-- ==== Sys2Proof/Word.lean ====
section
/-!
DEFINITION. Word.lean: the byte and word types of the block's formats (little-endian, R7; bits numbered from 0, R8).
-/
namespace Sys2Proof

/-- One byte. -/
abbrev Byte := BitVec 8

/-- A 64-bit word: one of the eight words of a submission entry or descriptor (R106). -/
abbrev Word := BitVec 64

end Sys2Proof
end

