-- ==== Sys2Proof/Syntax.lean ====
section
/-!
DEFINITION. Syntax.lean: the commands of the block, one constructor per row of the opcode table (spec/opcode_table.json), in
the table's order. A command is an access that a host makes, a frame or an edge that arrives at a port, a response that the
surroundings give, a descriptor that an engine runs, or an instant at which the block acts of itself.
-/
namespace Sys2Proof

/-- Who makes a host access: HT_CTX and HT_OPER (R41, R43). -/
structure Acc where
  ctx : Nat
  oper : Bool
deriving DecidableEq, Repr

/-- What the tests of R562 found: the pages (with the class of failure) that a bad memory serves, KiB of the reserved buffer lost, whether
every injected lockstep mismatch was seen, the failed macros and lanes, the failed (diagnostic, item) pairs of the hazard path and of the
clocks, and the segment whose injected rise the wake monitor missed. -/
structure SelfTest where
  memories : List (Nat × Nat)
  reserve : Nat
  lockstepOk : Bool
  macros : List Nat
  lanes : List Nat
  hazard : List (Nat × Nat)
  clocks : List Nat
  wake : Option Nat
deriving DecidableEq, Repr

/-- The commands of the block. Operands that many share: `a` the requester of a host access; `p` a page, or the port of a frame or link
(culvert ports from 0, fabric ports from 0x200); `q` a queue; `c` a context or channel; `t` a tracker or timer; `i`, `j`, `n`, `m` an element;
`v`, `bits` the value written; `bs`, `bytes` the bytes that arrive, and `sec` how the protection of the frame verified: 0 none, 1 the
keys, 2 not, 3 the old keys, 4 a frame that ends with FRX_ERR (log entry 20). -/
inductive Instr where
  /-- PORST_N_ASSERT (R35): every domain is in reset. The TEST_MODE input is no register and keeps its level, which holds HAZARD high
  (R69). -/
  | porstNAssert
  /-- PORST_N_RELEASE (R557): the always-on domain leaves reset and the FRC starts from zero. -/
  | porstNRelease
  /-- CORE_RST_N_ASSERT (R35). -/
  | coreRstNAssert
  /-- CORE_DOMAIN_RESET_RELEASE (R558, R560): PORST_N, PDC_CORE_OK and CORE_RST_N hold; ISO_CORE is released, and with GAR_AUTO the Garnet
  domain is switched on. -/
  | coreDomainResetRelease
  /-- GAR_RST_N_ASSERT (R35). -/
  | garRstNAssert
  /-- GARNET_SWITCH_GROUP_ENABLE (R36): one group at a time, 2 µs between groups. -/
  | garnetSwitchGroupEnable
  /-- GARNET_DOMAIN_RESET_RELEASE (R558): GAR_RST_N and PDC_GAR_OK hold, and 2 µs have passed since the last group. -/
  | garnetDomainResetRelease
  /-- POWER_OK_TIMEOUT (R559): 1 ms after a domain's enable its OK has not risen. -/
  | powerOkTimeout (garnet : Bool)
  /-- DOMAIN_FAULT (R38): a domain's OK falls, and the block has not asked for it. -/
  | domainFault (garnet : Bool)
  /-- HOST_REGISTER_WRITE (R42, R83). HT_ADDR, the byte strobes, and 64 bits of data. -/
  | hostRegisterWrite (a : Acc) (addr strb data : Nat)
  /-- READ_CLEAR_COUNTER_READ (R9): a read at an address; its RC fields clear. `wide` asks for 64 bits. -/
  | readClearCounterRead (a : Acc) (addr : Nat) (wide : Bool)
  /-- PAGE_ERR_READ (R112). -/
  | pageErrRead (a : Acc) (p : Nat)
  /-- LATCHING_REGISTER_READ (R511): a read of a 32-bit word, which latches the further words of its value for the requester. -/
  | latchingRegisterRead (a : Acc) (addr : Nat)
  /-- PAGE_ENABLE (R85): PAGE_CTL with ENABLE = 1; `men` is the IRQ_MEN bit of the write. -/
  | pageEnable (a : Acc) (p : Nat) (men : Bool)
  /-- PAGE_DISABLE (R85). -/
  | pageDisable (a : Acc) (p : Nat) (men : Bool)
  /-- PAGE_ABORT (R89, R92). -/
  | pageAbort (a : Acc) (p : Nat) (men : Bool)
  /-- PAGE_START_COMPLETE (R85). -/
  | pageStartComplete (p : Nat)
  /-- PAGE_DRAIN_COMPLETE (R85, R87). -/
  | pageDrainComplete (p : Nat)
  /-- PAGE_ABORT_COMPLETE (R85, R89). -/
  | pageAbortComplete (p : Nat)
  /-- ABORT_BOUND_EXPIRY (R91). -/
  | abortBoundExpiry (p : Nat)
  /-- PAGE_FUNCTION_FAULT (R90): a fault in a page's own function, with its code. -/
  | pageFunctionFault (p code : Nat)
  /-- MEMORY_ECC_UNCORRECTABLE (R90, R185, R192, R364): found at a read. `what` is 0 for a memory of the page's function, 1 for a stored
  record (stream and SEQ in `x`, `y`), 2 for part of the reserved buffer (`x` KiB), 3 for the header of a stored record of class `x`. -/
  | memoryEccUncorrectable (p what x y : Nat)
  /-- PAGE_OWNER_WRITE (R81). -/
  | pageOwnerWrite (a : Acc) (p v : Nat)
  /-- PAGE_IRQ_STAT_CLEAR (R84). -/
  | pageIrqStatClear (a : Acc) (p bits : Nat)
  /-- CLAIM_QUERY (R98). -/
  | claimQuery (a : Acc) (r : Nat)
  /-- BLK_CCLK_WRITE (R34). -/
  | blkCclkWrite (a : Acc) (mhz : Nat)
  /-- QUEUE_ENABLE (R102, R579). -/
  | queueEnable (a : Acc) (q : Nat)
  /-- QUEUE_START_COMPLETE (R579). -/
  | queueStartComplete (q : Nat)
  /-- QUEUE_DISABLE (R87). -/
  | queueDisable (a : Acc) (q : Nat)
  /-- QUEUE_ABORT (R89). -/
  | queueAbort (a : Acc) (q : Nat)
  /-- QUEUE_DOORBELL (R103). -/
  | queueDoorbell (a : Acc) (q tail : Nat)
  /-- CQ_HEAD_WRITE (R105). -/
  | cqHeadWrite (a : Acc) (q head : Nat)
  /-- QUEUE_ENTRY_FETCH (R104). -/
  | queueEntryFetch (q : Nat)
  /-- DESCRIPTOR_START (R516). `charge` is the nominal duration in cycles that the stride scheduler charges. -/
  | descriptorStart (engine charge : Nat)
  /-- LIST_CHAIN (R107). -/
  | listChain (q : Nat)
  /-- QUEUE_ENTRY_COMPLETE (R109). -/
  | queueEntryComplete (q : Nat)
  /-- QUEUE_COAL_TIMEOUT (R110). -/
  | queueCoalTimeout (q : Nat)
  /-- QUE_DB_SUM_READ (R101, R510): returns the bits that the requester sees and clears them. -/
  | queDbSumRead (a : Acc) (page : Nat)
  /-- QUE_IRQ_PEND_CLEAR (R110, R510). -/
  | queIrqPendClear (a : Acc) (page bits : Nat)
  /-- QUE_COMPLETION_CLEAR (R110): no effect while any bit of QUE_IRQ_PEND is set. -/
  | queCompletionClear (a : Acc) (page : Nat)
  /-- DMA_WRITE_RESPONSE (R46): the bytes stand in memory, and what they complete completes. `id` names the outstanding request. -/
  | dmaWriteResponse (id : Nat)
  /-- DMA_ERROR_RESPONSE (R46). `id` names the outstanding request. -/
  | dmaErrorResponse (id : Nat)
  /-- DMA_READ_COMPLETE (R45). `id` names the outstanding request. -/
  | dmaReadComplete (id : Nat)
  /-- TIM_STEP (R123). -/
  | timStep (a : Acc)
  /-- TIM_SET (R123). -/
  | timSet (a : Acc)
  /-- TIME_PROBE_TX (R124, R366): every 16 µs. The probe carries the servo state, TIME_LOST, PRESSURE, HEADROOM, the instant it leaves,
  and that at which the peer's last one arrived; its layout is open (log entry 62). -/
  | timeProbeTx (p : Nat)
  /-- TIME_PROBE_RX (R124, R125): `stamps` is when the peer sent this probe and when this part's last one reached it, both in the peer's
  NT. `hdr` is the probe's link header; `servo`, `lost`, `press` and `head` the states it reports. -/
  | timeProbeRx (p sec : Nat) (hdr : List Nat) (servo : Nat) (lost press head : Bool) (stamps : Nat × Option Nat)
  /-- HOLDOVER_LIMIT_EXPIRY (R139). -/
  | holdoverLimitExpiry
  /-- HOLDOVER_BOUND_TIME_LOST (R122): the holdover bound exceeds 10 µs. -/
  | holdoverBoundTimeLost
  /-- SOURCE_CHANGE_SETTLED (R125): TIM_BOUND returns to the usual bound. -/
  | sourceChangeSettled
  /-- TRANSIENT_SETTLE_EXPIRY (R138): the slope has stayed below EXIT_SLOPE for SETTLE_MS. -/
  | transientSettleExpiry
  /-- PTP_FRAME_RX (R51, R127): the frame's bytes, and whether it ends with FRX_ERR. -/
  | ptpFrameRx (i : Nat) (rx : List Nat × Bool)
  /-- TS_RX_SOF_PULSE (R53, R54): queued, at most sixteen. -/
  | tsRxSofPulse (i : Nat)
  /-- TS_TX_SOF_PULSE (R55, R126): the pulse of the oldest PTP frame sent on the port. A Sync's Follow_Up carries it; it is a Delay_Req's
  t3. -/
  | tsTxSofPulse (i : Nat)
  /-- PTP_SYNC_TX (R126): a two-step Sync of the master on a port at each Sync interval. -/
  | ptpSyncTx (i : Nat)
  /-- PTP_DELAY_REQ_TX (R126, R129): a Delay_Req of the slave at each Delay_Req interval, its correction field less the asymmetry. -/
  | ptpDelayReqTx
  /-- PTP_ANNOUNCE_TX (R126): every second, clockClass 248 and timeSource 0xA0; the other fields are the model's (log entry 63). -/
  | ptpAnnounceTx (i : Nat)
  /-- PTP_SLAVE_PORT_TIMEOUT (R130): three Sync intervals without a Sync: the other port, or none. -/
  | ptpSlavePortTimeout
  /-- LONGHAUL_TIME_RECORD (R135): the exchange's stamps, `t1` and `t4` in the far end's NT (2^-16 ns), `t2` and `t3` the FRC at which
  the far probe arrived and this part's left; every second a TIME record of the apparent offset, and an advisory verdict beyond 100 ns. -/
  | longhaulTimeRecord (i : Nat) (t1 : Int) (t2 t3 : Nat) (t4 : Int)
  /-- HW_TIMER_FIRE (R140, R141): timer `t` has reached its target, and no due timer has a lower index. After a step over the target it
  fires late, and its next target is the first of its period after NT. -/
  | hwTimerFire (t : Nat)
  /-- STEP_MARK_EDGE (R64, R152): `clean` says that the pulse keeps the minimum widths. -/
  | stepMarkEdge (clean : Bool)
  /-- STEP_IN_EDGE (R65, R148): the input of tracker `t` has been high for `high` ns; the filter's own delay and the wiring delay are
  taken from the time. -/
  | stepInEdge (t high : Nat)
  /-- PHASE_MARK_EDGE (R154). -/
  | phaseMarkEdge (j : Nat) (clean : Bool)
  /-- ANGLE_LATE (R155): the internal angle of tracker `t` has reached 0xFFFF. -/
  | angleLate (t : Nat)
  /-- TRACKER_STALL_TIMEOUT (R156). -/
  | trackerStallTimeout (t : Nat)
  /-- ACQUIRE_TIMEOUT (R151). -/
  | acquireTimeout (t : Nat)
  /-- SCHEDULE_ANGLE_FIRE (R159): the next entry of tracker `t` whose point the published angle has reached. -/
  | scheduleAngleFire (t : Nat)
  /-- SCHEDULE_MARK_MISSING_FIRE (R160). -/
  | scheduleMarkMissingFire (t : Nat)
  /-- STP_SWAP (R165). -/
  | stpSwap (a : Acc) (t : Nat)
  /-- STP_SET_INDEX (R146). -/
  | stpSetIndex (a : Acc) (t : Nat)
  /-- STP_TRK_EN_WRITE (R158). -/
  | stpTrkEnWrite (a : Acc) (i v : Nat)
  /-- FRM_CAPTURE_FULL (R176). -/
  | frmCaptureFull (a : Acc)
  /-- FRM_CAPTURE_SET (R176). -/
  | frmCaptureSet (a : Acc) (set : Nat)
  /-- FRM_SYNC (R189). -/
  | frmSync (a : Acc)
  /-- PARTIAL_TOKEN_REFILL (R177): one token every 25 µs, at most 8. -/
  | partialTokenRefill
  /-- CNT_SOFT_WRITE (R174): a 32-bit write at 0x058 adds its value zero-extended; one at 0x05C alone gets a bus error (R42, R211). -/
  | cntSoftWrite (a : Acc) (v : Nat)
  /-- PROXY_POLL_START (R207, R208): the poll of bus `b` that fell due first starts; the frame time is the stamped edge, of the latch
  write corrected by LATCH_DLY, or of the first read. -/
  | proxyPollStart (b : Nat)
  /-- PROXY_POLL_COMPLETE (R206, R207, R209): the bytes of each segment (none where it failed its retry) and the ns from the first to the
  last read. -/
  | proxyPollComplete (p : Nat) (segs : List (Option (List Nat))) (span : Nat)
  /-- GAR_OPEN (R246, R247). -/
  | garOpen (q : Nat)
  /-- GAR_LOAD (R237, R246): accepted by engines 1 and 2. -/
  | garLoad (q : Nat)
  /-- GAR_PROJECT (R227, R246). -/
  | garProject (q : Nat)
  /-- GAR_CLOSE (R247, R248). -/
  | garClose (q : Nat)
  /-- GAR_WLOAD (R242). -/
  | garWload (q : Nat)
  /-- GAR_LAYER (R241). -/
  | garLayer (q : Nat)
  /-- GAR_STORE (R246). -/
  | garStore (q : Nat)
  /-- DIG_HASH (R273). -/
  | digHash (q : Nat)
  /-- TAP_SOT (R230, R231, R235). `bs` are the bytes of the beat, `err` its error flag; `full` and `digFull` say that the tap buffer and
  the digest buffer are full. -/
  | tapSot (tap fmt tag : Nat) (bs : List Nat) (err full digFull : Bool)
  /-- TAP_BEAT (R230, R235). Operands as at TAP_SOT. -/
  | tapBeat (tap fmt : Nat) (bs : List Nat) (err full digFull : Bool)
  /-- TAP_EOT (R230, R234). Operands as at TAP_SOT. -/
  | tapEot (tap fmt : Nat) (bs : List Nat) (err full digFull : Bool)
  /-- TAP_TENSOR_IDLE_TIMEOUT (R235). -/
  | tapTensorIdleTimeout (tap : Nat)
  /-- CMT_EVENT (R59, R171): an event of the command tap is stamped, and enters the buffer of 64, or is counted as a trace drop of its
  engine's ID; the counters of the engine count it either way, busy ticks apart. The channel, the engine, the kind and the tag of the
  event. -/
  | cmtEvent (ch engine kind tag : Nat)
  /-- WINDOW_CLOSE_COMPLETE (R232). -/
  | windowCloseComplete (w : Nat)
  /-- WIN_CMD_OPEN (R252). -/
  | winCmdOpen (a : Acc) (w : Nat)
  /-- WIN_CMD_CLOSE (R252). -/
  | winCmdClose (a : Acc) (w : Nat)
  /-- MACRO_TEST_SLOT (R243). -/
  | macroTestSlot (m : Nat) (pass : Bool)
  /-- GAR_RETIRE (R244). -/
  | garRetire (a : Acc) (m : Nat)
  /-- MACRO_WEIGHT_ECC_ERROR (R245): treated as a failed test, without SUSPECT (R244); the pass is repeated on the macro that takes over,
  so no result changes. -/
  | macroWeightEccError (m : Nat)
  /-- CHECK_ENABLE (R255). -/
  | checkEnable (a : Acc)
  /-- CHECK_DEFINITION_LOADED (R256, R280, R349). -/
  | checkDefinitionLoaded (n : Nat)
  /-- CHECK_DISABLE (R257). -/
  | checkDisable (a : Acc)
  /-- CHECK_RECORD_ARRIVAL (R257): the oldest record held here that a loaded entry lists, once a reduction has its copy. -/
  | checkRecordArrival
  /-- CHECK_ROUND_TIMEOUT (R257): TIMEOUT_US after a round's first record, the oldest first. -/
  | checkRoundTimeout (n : Nat)
  /-- FRAME_BOUNDARY (R295, R296): the oldest boundary makes a sample for each matching slot. -/
  | frameBoundary
  /-- SAMPLE_DISPATCH (R309): waiting samples are dealt in order of assembly. -/
  | sampleDispatch
  /-- SAMPLE_RESULT (R312, R314): the walks of sample `ser` are complete. -/
  | sampleResult (ser : Nat)
  /-- AGT_MLOAD (R292). -/
  | agtMload (q : Nat)
  /-- AGT_ELOAD (R303). -/
  | agtEload (q : Nat)
  /-- AGT_EVAL (R319): the samples of a started EVAL are evaluated once. -/
  | agtEval (q : Nat)
  /-- AGT_MODEL_SWAP (R293). -/
  | agtModelSwap (a : Acc)
  /-- AGT_COL_SWAP (R301). -/
  | agtColSwap (a : Acc)
  /-- AGT_SWAP_TAKE_EFFECT (R293, R301): at a tick at which no sample is being assembled. -/
  | agtSwapTakeEffect
  /-- HELLO_TX (R324, R520): every 1 ms on a fabric port; on a culvert at link start, and every 100 µs while it agrees. -/
  | helloTx (p : Nat)
  /-- HELLO_RX (R325, R330, R521, R522): the peer's identity, ID and state, and any OFFER or FINISH. `meas` is the one-way delay in ns
  that the two-way exchange of R124 gives with this frame, where it gives one (R334). Two nodes with equal IDENTITY fault (R331). -/
  | helloRx (p sec : Nat) (meas : Option Nat) (bs : List Nat)
  /-- KEEPALIVE_TX (R324): every 10 µs on a fabric port and 4 µs on a culvert when no other frame has gone. -/
  | keepaliveTx (p : Nat)
  /-- KEEPALIVE_RX: liveness, and the peer's last HSEQ of each class, which shows a lost tail (R324, R328). -/
  | keepaliveRx (p sec : Nat) (bs : List Nat)
  /-- ACK_TX (R324, R371): every 2 µs while a frame of the peer is unacknowledged, held in the guard window. RECEIVED counts the records
  whose frames this ACK's RACK first covers (R370). -/
  | ackTx (p : Nat)
  /-- ACK_RX (R328): 8 pairs of RACK and CACK. -/
  | ackRx (p sec : Nat) (bs : List Nat)
  /-- LSA_REFRESH (R333): on a change and every 100 ms. -/
  | lsaRefresh
  /-- LSA_RX (R333). -/
  | lsaRx (p sec : Nat) (bs : List Nat)
  /-- LSA_AGE_EXPIRY (R333): not refreshed within 1 s. -/
  | lsaAgeExpiry
  /-- JOIN_TIMEOUT (R330): 3 ms with no fabric port up: a node alone claims at once. -/
  | joinTimeout
  /-- CLAIM_HOLD_EXPIRY (R330). -/
  | claimHoldExpiry
  /-- ROUTE_RECOMPUTE (R333, R336): the trees, paths and next hops of the changed database; nodes that cannot be reached leave it. -/
  | routeRecompute
  /-- DATA_FRAME_RX (R326, R361–R364): a frame beyond its credit is discarded and counted in FLW_OVERRUN; `dei` is the DEI bit of a tag
  ahead of its EtherType (R388). -/
  | dataFrameRx (p sec : Nat) (dei : Bool) (bs : List Nat)
  /-- CULVERT_FRAME_CRC_ERROR (R327): the frame is discarded and counted, and the receiver hunts for the next alignment word. -/
  | culvertFrameCrcError (p : Nat)
  /-- CULVERT_PHY_DOWN (R49): a fall of CUL_PHY_RDY declares the culvert down at once. -/
  | culvertPhyDown (p : Nat)
  /-- CULVERT_RX_TIMEOUT (R341): no frame for 20 µs. -/
  | culvertRxTimeout (p : Nat)
  /-- CULVERT_FAILBACK (R341): culvert A has stayed up for FAILBACK_MS; new records go on A again. -/
  | culvertFailback
  /-- FABRIC_LINK_TIMEOUT (R343): no frame for 50 µs. -/
  | fabricLinkTimeout (p : Nat)
  /-- REPLAY_WINDOW_EXPIRY (R340): a leaf's record uncustodied 2 ms after it was first sent is dropped; FUNC_IRQ REPLAY_EXCEEDED and
  condition 0x02 of guarantee 1, paired once the window holds again. -/
  | replayWindowExpiry
  /-- LONGHAUL_REPLAY_EXPIRY (R344): a frame uncustodied 8 ms after its first transmission. -/
  | longhaulReplayExpiry (p : Nat)
  /-- HOMES_LOST_EXPIRY (R22): the replay window of the leaf at port `p` has run out after it fell silent on both culverts, the second as
  the fabric reports it (log entry 46): its streams close with gap records of reason HOMES_LOST, whose COUNT the home does not know and is
  free, its entity is marked unreachable and an advisory verdict issued. -/
  | homesLostExpiry (p : Nat)
  /-- REGISTER_RX (R339). -/
  | registerRx (p sec : Nat) (bs : List Nat)
  /-- REGISTER_RETRY (R325): 1 ms after the last request of a leaf that is not registered. -/
  | registerRetry
  /-- GROUPDEF_RX (R325, R349). -/
  | groupdefRx (p sec : Nat) (bs : List Nat)
  /-- RED_GROUP_LOAD (R349). -/
  | redGroupLoad (a : Acc) (v : Nat)
  /-- REDUCTION_PARTIAL_ARRIVAL (R346, R354): the oldest record held that a group or a launch takes. -/
  | reductionPartialArrival
  /-- REDUCTION_PARTIAL_TIMEOUT (R346): TIMEOUT_US / 4 after the first input. -/
  | reductionPartialTimeout
  /-- REDUCTION_ROUND_TIMEOUT (R348): the root closes a round without all its members INCOMPLETE; it closes the maximum of a LAG group as
  the nodes close theirs (log entry 40). -/
  | reductionRoundTimeout
  /-- LAUNCH_ARM_CMD (R351). -/
  | launchArmCmd (a : Acc)
  /-- LAUNCH_CANCEL_CMD (R355). -/
  | launchCancelCmd (a : Acc)
  /-- LAUNCH_ARM_RX (R353). -/
  | launchArmRx (p sec : Nat) (bs : List Nat)
  /-- LAUNCH_COMMIT_RX (R355): held until the launch instant; one that comes after it changes nothing. -/
  | launchCommitRx (p sec : Nat) (bs : List Nat)
  /-- LAUNCH_ABORT_RX (R355). -/
  | launchAbortRx (p sec : Nat) (bs : List Nat)
  /-- CUL_LAUNCH_ACK (R353). -/
  | culLaunchAck (a : Acc)
  /-- FAB_PROXY_ACK_WRITE (R353). -/
  | fabProxyAckWrite (a : Acc) (i v : Nat)
  /-- LAUNCH_DEADLINE (R355): the launch instant − 500 µs − H. -/
  | launchDeadline
  /-- LAUNCH_INSTANT (R355): a committed leaf raises GO; without a decision the launch is aborted with NO_DECISION. -/
  | launchInstant
  /-- CULVERT_INSVC_WRITE (R362). -/
  | culvertInsvcWrite (a : Acc) (v : Nat)
  /-- STREAM_RECORD_RELEASE (R580): the instant at which no path can hand an earlier record to the stream (log entry 49). -/
  | streamRecordRelease (source : Nat)
  /-- GAP_EMIT_DEADLINE (R368): no later than 100 µs after the first loss. -/
  | gapEmitDeadline
  /-- LEDGER_PERIOD_CLOSE (R369, R374): at the period's boundary. -/
  | ledgerPeriodClose
  /-- LEAF_REHOME (R375): PRESSURE on A for REHOME_MS, HEADROOM on B. -/
  | leafRehome
  /-- LEAF_REHOME_RETURN (R375): FAILBACK_MS without PRESSURE on A. -/
  | leafRehomeReturn
  /-- LEAF_ENC_STEP_DOWN (R376): one level after REHOME_MS, and one more after each further REHOME_MS. -/
  | leafEncStepDown
  /-- LEAF_ENC_STEP_UP (R376): one level each time FAILBACK_MS pass without PRESSURE. -/
  | leafEncStepUp
  /-- DELIVERY_RING_WRITE (R378): a duplicate is discarded (R342); a record is written whole, with a filler where it would cross the end
  of the ring. -/
  | deliveryRingWrite (c : Nat)
  /-- ROUTE_WAIT_EXPIRY (R379): records whose destination has stayed unknown for FLW_ROUTE_WAIT are delivered here. -/
  | routeWaitExpiry
  /-- COPY_HOSTREC (R380). -/
  | copyHostrec (q : Nat)
  /-- COPY_BYTES (R380). -/
  | copyBytes (q : Nat)
  /-- EGRESS_FRAME_SELECT (R381): an idle port selects a queue, builds a frame and sends it. -/
  | egressFrameSelect (p : Nat)
  /-- GATE_ENTRY_CHANGE (R385, R386): the duration of an entry of list `g` has passed. -/
  | gateEntryChange (g : Nat)
  /-- SHP_GSWAP (R387). -/
  | shpGswap (a : Acc) (g : Nat)
  /-- TRACE_SYNC_TIMER (R396, R398): every 4,096 CCLK cycles, after one KIND 9 packet for each ID that lost packets in the interval. -/
  | traceSyncTimer
  /-- TRACE_RECORD_CLOSE_TIMER (R397): 10 µs after its first packet. -/
  | traceRecordCloseTimer (id : Nat)
  /-- WATCHPOINT_CROSSING (R408). -/
  | watchpointCrossing (w : Nat)
  /-- TRIG_IN_EDGE (R64, R66, R409): a rising edge on TRIG_IN[n]; it counts in the slots that name the pin (R171). -/
  | trigInEdge (n : Nat)
  /-- TRIG_OUT_PULSE_END (R66). -/
  | trigOutPulseEnd (n : Nat)
  /-- TRIGGER_FRAME_RX (R411): applied once per origin and sequence; a node sends it on to its leaves, and along the launch tree where it
  came over the fabric. -/
  | triggerFrameRx (p sec : Nat) (bs : List Nat)
  /-- TRC_TRIGGER (R409). -/
  | trcTrigger (a : Acc) (line : Nat)
  /-- TRC_REARM (R406). -/
  | trcRearm (a : Acc)
  /-- TRACE_BUFFER_FROZEN (R405): the post-trigger part is full. -/
  | traceBufferFrozen
  /-- TRC_SWMARK_WRITE (R418). -/
  | trcSwmarkWrite (a : Acc) (m v : Nat)
  /-- TRC_RD_DATA_READ (R418). -/
  | trcRdDataRead (a : Acc)
  /-- HOST_LP_REQ_RISE (R74, R175, R412): `stops` says that a slot's source lies in a part of the die that goes down. -/
  | hostLpReqRise (stops : List Nat)
  /-- HOST_LP_REQ_FALL (R412): while the TRC page is not RUNNING the markers wait. -/
  | hostLpReqFall
  /-- DBG_STOP (R414). -/
  | dbgStop (a : Acc)
  /-- STOP_ACK_RISE (R68, R415): STOP_REQ falls, and the scan-out starts. -/
  | stopAckRise
  /-- STOP_ACK_TIMEOUT (R415): 1 ms after STOP_REQ rose. -/
  | stopAckTimeout
  /-- SCAN_ACK_TIMEOUT (R69): without SCN_ACK within 1 ms the host part is absent. -/
  | scanAckTimeout
  /-- DUMP_COMPLETE (R415): the dump is written and STOP_REQ is low. -/
  | dumpComplete
  /-- HANG_WATCHDOG_EXPIRY (R417): an entry of queue `q` fetched and not completed for DBG_WDOG_MS. -/
  | hangWatchdogExpiry (q : Nat)
  /-- DBG_HANG_DONE_CLEAR (R417): a W1C write of DBG_HANG_STAT by the context or the operator. -/
  | dbgHangDoneClear (a : Acc) (c v : Nat)
  /-- TEST_MODE_CHANGE (R69, R551): while the input is high, WAKE_EN and STOP_REQ are low and HAZARD is high. -/
  | testModeChange (high : Bool)
  /-- SENSOR_RESULT (R60): `v` is the 16-bit result of channel `ch`. A channel above the profile's range is discarded and counted. -/
  | sensorResult (ch v : Nat)
  /-- SENSOR_RECORD_CLOSE_TIMER (R421). -/
  | sensorRecordCloseTimer
  /-- SENTINEL_SAMPLE_START (R422): every INTERVAL_S, all enabled sentinels together; a sample waits while TRANSIENT is set. -/
  | sentinelSampleStart
  /-- SENTINEL_GATE_COMPLETE (R422–R425): the gate of 1,000,000 ACLK cycles has ended. A temperature never read is open (log entry 64). -/
  | sentinelGateComplete
  /-- OPTICAL_EVALUATION (R427): every EVAL_MS. -/
  | opticalEvaluation
  /-- FADE_INTERVAL (R430): every FADE_INT_S. -/
  | fadeInterval
  /-- SWITCH_EXECUTION: the execution instant of authorised SWITCH entry `n` (R432): its gate opens, 60 s after the authorisation where
  the lane was not PREARMED. -/
  | switchExecution (n : Nat)
  /-- HEATER_RESULTS_LATCH (R434): 40 µs into a period. -/
  | heaterResultsLatch
  /-- HG_SWAP (R436). -/
  | hgSwap (a : Acc)
  /-- HG_CAL (R436). -/
  | hgCal (a : Acc)
  /-- HEATER_CAL_COMPLETE (R436): controller firmware inverts the matrix of group `g` and swaps it in, or rejects it; it waits while the
  controller is paused. -/
  | heaterCalComplete (g : Nat)
  /-- VERDICT_HOLD_EXPIRY (R442): HOLD_S without a report: a verdict of class 0 with CLEAR. -/
  | verdictHoldExpiry
  /-- EXPEL_VERDICT_RX (R452): an expulsion verdict of another node, at the arbiter. -/
  | expelVerdictRx
  /-- VRD_AUTHORISE (R448). -/
  | vrdAuthorise (a : Acc) (n : Nat)
  /-- VRD_HOLD (R448). -/
  | vrdHold (a : Acc) (n : Nat)
  /-- VRD_UNHOLD (R448). -/
  | vrdUnhold (a : Acc) (n : Nat)
  /-- VRD_LIFT (R462). -/
  | vrdLift (a : Acc) (n : Nat)
  /-- VRD_VOTE_YES (R462). -/
  | vrdVoteYes (a : Acc) (n : Nat)
  /-- VRD_VOTE_NO (R462). -/
  | vrdVoteNo (a : Acc) (n : Nat)
  /-- VRD_LOG_RESTART (R446). -/
  | vrdLogRestart (a : Acc)
  /-- ENTRY_TTL_EXPIRY (R447, R448, R450). -/
  | entryTtlExpiry (n : Nat)
  /-- BALLOT_REQUEST_RX (R453, R462): only a warden answers. -/
  | ballotRequestRx
  /-- BALLOT_VOTE_RX (R454): the signature goes to the root of trust. A vote for no open ballot is dropped (log entry 39). -/
  | ballotVoteRx
  /-- BALLOT_TIMEOUT (R455, R462): BALLOT_MS after the request of entry `n`; a warden whose operator has not answered abstains. -/
  | ballotTimeout (n : Nat)
  /-- VRD_ORD_LOAD (R457). -/
  | vrdOrdLoad (a : Acc) (slot : Nat)
  /-- VRD_ORD_REVOKE (R458). -/
  | vrdOrdRevoke (a : Acc) (slot : Nat)
  /-- BUDGET_HOUR_EXPIRY (R460, R461): releases leave the rolling hour. -/
  | budgetHourExpiry
  /-- VRD_SPARE_WRITE (R460). -/
  | vrdSpareWrite (a : Acc) (v : Nat)
  /-- CMP_OPEN (R471, R482). -/
  | cmpOpen (q : Nat)
  /-- CMP_DEFLATE (R469, R482). -/
  | cmpDeflate (q : Nat)
  /-- CMP_CLOSE (R471, R482). -/
  | cmpClose (q : Nat)
  /-- CMP_SAVE (R473, R482). -/
  | cmpSave (q : Nat)
  /-- CMP_RESTORE (R473, R482). -/
  | cmpRestore (q : Nat)
  /-- CMP_INFLATE (R482). -/
  | cmpInflate (q : Nat)
  /-- PCK_PACK (R481, R482). -/
  | pckPack (q : Nat)
  /-- CMP_ARCHIVE (R475, R485): operator only. -/
  | cmpArchive (a : Acc)
  /-- VERDICT_ARCHIVE_CUT_TIMER (R475): 1 s after its first entry, channel 3 closes its cut. -/
  | verdictArchiveCutTimer
  /-- CHUNK_RING_WRITE (R476, R477): the next chunk of a channel, once its ring has room. -/
  | chunkRingWrite (c : Nat)
  /-- REPEAT_WINDOW_EXPIRY (R490): REPEAT_MS without a repeat closes the newest entry. -/
  | repeatWindowExpiry
  /-- OPTIME_SECOND (R491): 100,000,000 cycles of ACLK while the always-on domain is powered. -/
  | optimeSecond
  /-- EVR_WRITE (R492). -/
  | evrWrite (a : Acc)
  /-- EVR_MIRROR_RESTART (R497). -/
  | evrMirrorRestart (a : Acc)
  /-- EVR_FORMAT (R498). -/
  | evrFormat (a : Acc)
  /-- EVR_RD_DATA_READ (R506). -/
  | evrRdDataRead (a : Acc)
  /-- MIRROR_ITEM_WRITE (R494, R495): the next item, where nothing of the mirror is under way. An item at the head that is not known is
  read for its length first. -/
  | mirrorItemWrite
  /-- EVR_FLUSH_TIMER (R495): EVR_FLUSH_MS after its first entry, the cut is closed. -/
  | evrFlushTimer
  /-- SUPERBLOCK_TIMER (R496): at least every 60 s. -/
  | superblockTimer
  /-- NV_WRITE_RESPONSE (R71): `ok` is clear where the error flag is set. -/
  | nvWriteResponse (ok : Bool)
  /-- NV_WRITE_TIMEOUT (R71): 100 ms without a response. -/
  | nvWriteTimeout
  /-- MBX_DATA_WRITE (R501): bytes 8i to 8i + 7 of mailbox `m`. -/
  | mbxDataWrite (a : Acc) (m i strb data : Nat)
  /-- MBX_PUSH (R501). -/
  | mbxPush (a : Acc) (m len : Nat)
  /-- MBX_ABORT (R503). -/
  | mbxAbort (a : Acc) (m : Nat)
  /-- MBX_POP_READ (R502). -/
  | mbxPopRead (a : Acc) (m : Nat)
  /-- FIRMWARE_MBX_POP (R501): an inbound message is taken. -/
  | firmwareMbxPop (m : Nat)
  /-- FIRMWARE_MBX_SEND (R502): an outbound mailbox that holds no message is filled. -/
  | firmwareMbxSend (m : Nat) (bytes : List Nat)
  /-- DB_IN_SET (R504). -/
  | dbInSet (a : Acc) (half v : Nat)
  /-- DB_OUT_CLEAR (R504). -/
  | dbOutClear (a : Acc) (half v : Nat)
  /-- FIRMWARE_DOORBELL (R504): the firmware sets outbound bit `n`, raising DOORBELL, or clears inbound bit `n`. -/
  | firmwareDoorbell (set : Bool) (n : Nat)
  /-- CONTEXT_ENABLE (R514). -/
  | contextEnable (a : Acc) (c : Nat)
  /-- CONTEXT_DISABLE (R514). -/
  | contextDisable (a : Acc) (c : Nat)
  /-- CONTEXT_CLEAR_DONE (R514): within 1 ms. -/
  | contextClearDone (c : Nat)
  /-- CTX_KILL (R510, R515): a tenant may name itself alone. -/
  | ctxKill (a : Acc) (c : Nat)
  /-- AGREEMENT_RETRY (R527). -/
  | agreementRetry (p : Nat)
  /-- REKEY_TIMER (R526): the lo end, REKEY_S after the last agreement. -/
  | rekeyTimer (p : Nat)
  /-- SEC_REKEY (R526). -/
  | secRekey (a : Acc)
  /-- OLD_KEY_ERASE (R526): 10 ms after the first frame under the new keys. -/
  | oldKeyErase (p : Nat)
  /-- SESSION_KEY_EXPIRY (R526): keys not replaced within 2 × REKEY_S end the session, and a new agreement starts. -/
  | sessionKeyExpiry (p : Nat)
  /-- DRBG_RESEED (R519): after 65,536 requests or 60 s. -/
  | drbgReseed
  /-- ROT_RESPONSE (R72). -/
  | rotResponse (id : Nat) (ok : Bool) (bytes : List Nat)
  /-- ROT_TIMEOUT_EXPIRY (R72): 50 ms after the request. -/
  | rotTimeoutExpiry (id : Nat)
  /-- BLOB_REQUEST_RETRY (R531): every 1 s until a blob is accepted. -/
  | blobRequestRetry
  /-- SEC_RELOAD (R531, R574). -/
  | secReload (a : Acc)
  /-- LOCKSTEP_MISMATCH (R538): `imageOk` is the outcome of the image's CRC-32C before the restart. -/
  | lockstepMismatch (imageOk : Bool)
  /-- CONTROLLER_RESTART_COMPLETE (R538, R573). -/
  | controllerRestartComplete
  /-- AGATE_KAT_RUN (R540): lane `l` gave `mismatches` scores other than the fixed ones. -/
  | agateKatRun (l mismatches : Nat)
  /-- CLOCK_XCHK_WINDOW (R542): 10,000 ACLK cycles have passed. -/
  | clockXchkWindow
  /-- CLOCK_XCHK_WATCHDOG (R542). -/
  | clockXchkWatchdog
  /-- NT_DUP_MISMATCH (R542): the two units differ by `diff`. -/
  | ntDupMismatch (diff : Nat)
  /-- LEDGER_CHECK_TIMER (R543): `credit` names the (link, class) pairs whose credit counters do not satisfy R361. -/
  | ledgerCheckTimer (credit : List (Nat × Nat))
  /-- SCRUB_PASS (R537): a pass over memory `m` corrected `fixed` single-bit errors; `bad` names the page that a memory with an
  uncorrectable one serves. -/
  | scrubPass (m fixed : Nat) (bad : Option Nat)
  /-- HZ_INJECT_TEST (R550): comparator `c` was driven past its limit, and tripped or not. -/
  | hzInjectTest (c : Nat) (tripped : Bool)
  /-- CFG_CRC_CHECK (R547, R550): `crc` is that of the always-on copy. -/
  | cfgCrcCheck (crc : Nat)
  /-- HZ_DUAL_MISMATCH (R550). -/
  | hzDualMismatch (detail : Nat)
  /-- HZ_READBACK_MISMATCH (R550): HAZARD at the boundary differs from the level driven. -/
  | hzReadbackMismatch
  /-- SAF_CLEAR (R554). -/
  | safClear (a : Acc)
  /-- SAF_INJECT (R552): INJ_DIAG and INJ_INDEX. -/
  | safInject (a : Acc) (d i : Nat)
  /-- HZ_IN_CHANGE (R548): an enabled input has been high for three ACLK cycles, or falls. -/
  | hzInChange (n : Nat) (high : Bool)
  /-- HAZARD_CHANNEL_SILENT (R548): the channel has given no result for MAX_GAP. -/
  | hazardChannelSilent (ch : Nat)
  /-- HAZARD_HOLD_EXPIRY (R67): 10 ms after the last condition has cleared. -/
  | hazardHoldExpiry
  /-- HB_OUT_TOGGLE (R67): every 500 µs. -/
  | hbOutToggle
  /-- BOOT_COMPLETE (R561): `crcOk` is the outcome of the ROM image's CRC-32C; a bad image leaves the controller held (R538). -/
  | bootComplete (crcOk : Bool)
  /-- SELFTEST_COMPLETE (R562). -/
  | selftestComplete (t : SelfTest)
  /-- START_UP_DONE (R564). A reserved buffer that is whole again pairs its condition (R364). -/
  | startUpDone
  /-- PWR_DOMAIN_ON (R559): PWR_DOM GAR_ON or CORE_ON = 1. -/
  | pwrDomainOn (a : Acc) (garnet : Bool)
  /-- PWR_DOMAIN_OFF (R559): PWR_DOM GAR_ON or CORE_ON = 0. -/
  | pwrDomainOff (a : Acc) (garnet : Bool)
  /-- PWR_WAKE_REQ (R565). Register `i` of the four, and the levels of SEG_ALERT. -/
  | pwrWakeReq (a : Acc) (i bits alert : Nat)
  /-- WAKE_INTERVAL_START (R566, R569): every INTERVAL_US from the release of PORST_N; new budgets and a new length apply from here. The
  levels of SEG_ALERT, and the four words of DIE_PGOOD. -/
  | wakeIntervalStart (alert : Nat) (pgood : List Nat)
  /-- PWR_WAKE_OFF (R568). -/
  | pwrWakeOff (a : Acc) (i bits : Nat)
  /-- PGOOD_TIMEOUT (R568). -/
  | pgoodTimeout (d : Nat)
  /-- DIE_PGOOD_FALL (R568). -/
  | diePgoodFall (d : Nat)
  /-- PGOOD_FAIL_CLEAR (R576): a W1C write. -/
  | pgoodFailClear (a : Acc) (i bits : Nat)
  /-- UPD_LOAD (R572). -/
  | updLoad (a : Acc)
  /-- UPD_VERIFY (R572). -/
  | updVerify (a : Acc)
  /-- UPD_HANDOVER (R573). -/
  | updHandover (a : Acc)
  /-- FIRMWARE_HANDOVER (R573): at the close of the ledger period. -/
  | firmwareHandover
  /-- FIRMWARE_ALIVE_TIMEOUT (R573): after 100 ms the previous image is restarted. The spec names no STATE after it: EMPTY or READY, a
  free choice (log entry 3). -/
  | firmwareAliveTimeout
  /-- UPD_COMMIT (R573). -/
  | updCommit (a : Acc)
  /-- UPD_DISCARD (R577). -/
  | updDiscard (a : Acc)
  /-- CUL_PHY_RDY_RISE (R49): the port trains, and HELLO at link start follows. -/
  | culPhyRdyRise (p : Nat)
  /-- CULVERT_ALIGNMENT_WORD_RX (R327): a hunting receiver finds the alignment word 0xA5C3_0F5A_0000_0000 | lane. -/
  | culvertAlignmentWordRx (p lane word : Nat)
  /-- SCN_ACK_RISE (R69): the surroundings deliver host scan data, which the scan-out takes into its dump. -/
  | scnAckRise (data : List Nat)
  /-- NV_READ_RESPONSE (R71, R498): the unit that the oldest read asked for. A superblock whose read fails is not valid (log entry 67). -/
  | nvReadResponse (ok : Bool) (bytes : List Nat)
  /-- FIRMWARE_ALIVE_REPORT (R573, R575): STATE becomes UNCOMMITTED. -/
  | firmwareAliveReport
  /-- CORE_AUTO_POWER_UP (R558): 10 µs after the always-on domain has left reset. -/
  | coreAutoPowerUp
  /-- WS_OUT_EDGE (R171, R422): an edge of a sentinel's output in the counter slots that name it, and in the gate under way. -/
  | wsOutEdge (n : Nat)
  /-- HB_OUT_INJECTION_RESUME (R552). -/
  | hbOutInjectionResume
deriving DecidableEq, Repr

end Sys2Proof
end

