-- ==== Sys2Proof/Decode.lean ====
section
/-!
DEFINITION. Decode.lean: the command that a word spells. No row of the opcode table gives bits: a command is an access, a frame, an edge or an
instant, and not a word, so no word spells one.
-/
namespace Sys2Proof

/-- No row of the table has bits, so there is no word to read. -/
def decodeTableWord (_nbits _w : Nat) : Option Instr := none

end Sys2Proof
end

