-- ==== Sys2Proof/Config.lean ====
section
/-!
DEFINITION. Config.lean: what a built part fixes, the free values of the model, and the external functions that the spec names but
does not define. Each is a constant without a body: nothing can be proved about which value it is, so a claim holds whatever it
is.
-/
namespace Sys2Proof.Config

/-- A fresh value each time: the model applies it to the counter `Hw.freeCtr`, which it advances (log entry 3). -/
opaque free : Nat → BitVec 64

/-- The bits of the DEFLATE blocks of a cut, its ending apart: the spec fixes the window, the match lengths and the candidates searched, and
says that the output is a function of input, history and DEPTH, but not which match is taken (R467, R468; log entry 9). -/
opaque deflate (hist input : List Nat) (depth : Nat) (final : Bool) : List Nat

/-- The bytes of the buffer of the sensor and health stream, which a part fixes (R421; log entry 186). -/
opaque sensorRoom : Nat

/-- SHA-384 of FIPS 180-4 (R519, R520, R528), used as a function without a body (log entry 10). -/
opaque sha384 : List Nat → List Nat

/-- The certificate obeys the form R521 asks (log entry 10). -/
opaque certWellFormed : List Nat → Bool

/-- The subject key of a certificate (R521). -/
opaque certKey : List Nat → List Nat

/-- The public key of a P-384 private scalar (R520). -/
opaque p384Public : Nat → List Nat

/-- The keys that R522 derives from own scalar, peer key and transcript. -/
opaque sessionKeys : Nat → List Nat → List Nat → Nat

/-- AES-256-GCM sealing of a body under a key and counter (R473, R518): ciphertext and tag. -/
opaque gcmSeal (key ctr : Nat) (aad body : List Nat) : List Nat

/-- The inverse of `gcmSeal`: none where the tag fails. -/
opaque gcmOpen (key ctr : Nat) (aad body : List Nat) : Option (List Nat)

/-- Which NaN a floating-point operation gives: IEEE 754 leaves its sign and payload open (log entry 11). -/
opaque nan64 : Nat → Nat → Nat

/-- The wear sentinels whose WS_EN output is high: the spec names the outputs and no register that sets them (R62, R422, log entry 64). -/
opaque wsEn : Nat → Bool

/-- The rate correction that the time servo derives from a measurement: the spec gives its bounds and not its law
(R118, R119, log entry 13): offset (ns × 2^16), time constant case, present rate. -/
opaque servoRate : Int → Nat → Nat → Nat

/-- The rate after a thermal feed-forward (R137): from the offsets that the learned table gives by linear interpolation at the previous and at
the new temperature (none beyond its ends; fractions in 0.01 ppm), and the present rate; it stands where one of them is none (log entry 60). -/
opaque feedForward : Option (Int × Int) → Option (Int × Int) → Nat → Nat

/-- The length of a time probe's payload, whose layout the spec leaves open (R124, log entry 62). -/
opaque probeLen : Nat

/-- The payload bytes of a time probe that carries these fields: R124 and R366 give no layout (log entry 62). -/
opaque probeBody : List Nat → List Nat

/-- The MAC address that the frames of a fabric port go to: no rule gives it (log entry 20). -/
opaque macTo : Nat → List Nat

/-- The servo's prediction of the slave's next offset (R131), whose law the spec leaves open: the last accepted offset (2^-16 ns, steps of NT
since then counted in), the ticks since it, the rate (log entry 151). -/
opaque predict : Int → Nat → Nat → Int

/-- The table after one more learning (R137), whose law the spec leaves open: table, temperature, rate (log entry 60). -/
opaque learn : List (Nat × Nat) → Int → Nat → List (Nat × Nat)

/-- The CRC-32C of the hazard configuration in the always-on domain: the spec names its contents and not the bytes it runs over (R547,
log entry 70): HZ_EN and the hazard entries of the blob. -/
opaque hazardCrc : List Nat → BitVec 32

/-- The silicon revision code of the part (BLK_SILICON). -/
opaque siliconRev : BitVec 32

/-- The version of the ROM image of the controller firmware (UPD_RUN_VER). -/
opaque romVersion : BitVec 32

end Sys2Proof.Config
end

