-- ==== Sys2Proof/Machine/Regs.lean ====
section
/-!
DEFINITION. Machine/Regs.lean: the register fields of the window (R77, R80 and the register table of each page),
one definition per field, with the page, the offset, the bits, the width and the reset value that the spec's table gives
("–" in a table: the value `profileResets` of Machine/State.lean puts, or 0), and one row per field with its access
code (R9), its write condition (R83), its selector (R578) and its legal range.
-/
namespace Sys2Proof.Machine

/-- One field of a register: `idx` is the element of an array of registers (a queue, a tracker, a port). -/
structure Field where
  page : Nat
  off : Nat
  stride : Nat
  lo : Nat
  width : Nat
  reset : Nat
  idx : Nat := 0
deriving DecidableEq, Repr

/-- Element `i` of an arrayed or banked register. -/
def Field.at (f : Field) (i : Nat) : Field := { f with idx := i }

/-- The name of a field in the register file: one number for each page, offset, bit and element. -/
def Field.key (f : Field) : Nat := ((f.page * 4096 + f.off) * 64 + f.lo) * 1048576 + f.idx

/-- The register file: (key, value) pairs in rising order of key; a field that is not listed holds its reset value. -/
abbrev RegFile := List (Nat × Nat)

def RegFile.find : RegFile → Nat → Option Nat
  | [], _ => none
  | (k, v) :: t, x => if k = x then some v else RegFile.find t x

/-- Insert or replace the entry of key `x`. -/
def RegFile.put : RegFile → Nat → Nat → RegFile
  | [], x, v => [(x, v)]
  | (k, w) :: t, x, v =>
    if k = x then (x, v) :: t else if x < k then (x, v) :: (k, w) :: t else (k, w) :: RegFile.put t x v

/-- A field's value: its entry, or its reset value. -/
def RegFile.read (r : RegFile) (f : Field) : Nat := (r.find f.key).getD f.reset

/-- Set a field, cut to its width. -/
def RegFile.write (r : RegFile) (f : Field) (v : Nat) : RegFile :=
  r.put f.key (v % 2 ^ f.width)

/-- Keys strictly rising. -/
def RegFile.sorted : RegFile → Bool
  | [] => true
  | [_] => true
  | (k, _) :: (k', v') :: t => decide (k < k') && RegFile.sorted ((k', v') :: t)

/-- Register access codes (R9). -/
inductive Access where
  | ro | rw | w1c | w1s | wo | rc
deriving DecidableEq, Repr

/-- When a write may change the field (R83): in any state, while its page is OFF, while its queue is OFF, while the
check entry's or group's EN is 0, while the culvert port is out of service, while the heater loop's EN is 0, while the
model slot's EN is 0, while the binding's EN is 0 (R236). -/
inductive Guard where
  | free | pageOff | queueOff | chkIdle | redIdle | portOut | loopOff | slotOff | bindOff
deriving DecidableEq, Repr

/-- Which selector register names the item that a register acts on (R578). -/
inductive Bank where
  | none | cntSel | prxSel | bindSel | accSel | chkSel | agtMsel | agtMap | agtRow | fabPort | culSel | redSel
  | flwLsel | shpPort | polSel | hltWs | optL | optH | optHIdx | vrdE | secSel | safD
deriving DecidableEq, Repr

/-- One field's row of the register tables: legal values `lo`–`hi` in multiples of `mul`; `prof` has bit 0, 1, 2 set
where a Boldal L, T, G has the field. -/
structure Row where
  f : Field
  acc : Access
  guard : Guard
  bank : Bank
  count : Nat
  lo : Nat
  hi : Nat
  mul : Nat
  prof : Nat
deriving DecidableEq, Repr

namespace R

def PAGE_ID_FUNC (p : Nat) : Field := ⟨p, 0x0, 0, 24, 8, 0x0, 0⟩
def PAGE_ID_INST (p : Nat) : Field := ⟨p, 0x0, 0, 16, 8, 0x0, 0⟩
def PAGE_ID_MAJOR (p : Nat) : Field := ⟨p, 0x0, 0, 8, 8, 0x1, 0⟩
def PAGE_ID_MINOR (p : Nat) : Field := ⟨p, 0x0, 0, 0, 8, 0x0, 0⟩
def PAGE_CAP_ABORTABLE (p : Nat) : Field := ⟨p, 0x4, 0, 0, 1, 0x0, 0⟩
def PAGE_CAP_SAVE (p : Nat) : Field := ⟨p, 0x4, 0, 1, 1, 0x0, 0⟩
def PAGE_CAP_TENANT (p : Nat) : Field := ⟨p, 0x4, 0, 2, 1, 0x0, 0⟩
def PAGE_CAP_FUNC_CAP (p : Nat) : Field := ⟨p, 0x4, 0, 16, 16, 0x0, 0⟩
def PAGE_CTL_ENABLE (p : Nat) : Field := ⟨p, 0x8, 0, 0, 1, 0x0, 0⟩
def PAGE_CTL_ABORT (p : Nat) : Field := ⟨p, 0x8, 0, 1, 1, 0x0, 0⟩
def PAGE_CTL_IRQ_MEN (p : Nat) : Field := ⟨p, 0x8, 0, 2, 1, 0x0, 0⟩
def PAGE_STATE_STATE (p : Nat) : Field := ⟨p, 0xc, 0, 0, 4, 0x0, 0⟩
def PAGE_ERR_FIRST (p : Nat) : Field := ⟨p, 0x10, 0, 0, 16, 0x0, 0⟩
def PAGE_ERR_COUNT (p : Nat) : Field := ⟨p, 0x10, 0, 16, 16, 0x0, 0⟩
def PAGE_IRQ_STAT_STATE_CHG (p : Nat) : Field := ⟨p, 0x14, 0, 0, 1, 0x0, 0⟩
def PAGE_IRQ_STAT_ERROR (p : Nat) : Field := ⟨p, 0x14, 0, 1, 1, 0x0, 0⟩
def PAGE_IRQ_STAT_ABORT_DONE (p : Nat) : Field := ⟨p, 0x14, 0, 2, 1, 0x0, 0⟩
def PAGE_IRQ_STAT_CLAIM_FAIL (p : Nat) : Field := ⟨p, 0x14, 0, 3, 1, 0x0, 0⟩
def PAGE_IRQ_STAT_FUNC_IRQ (p : Nat) : Field := ⟨p, 0x14, 0, 16, 16, 0x0, 0⟩
def PAGE_IRQ_EN_EN (p : Nat) : Field := ⟨p, 0x18, 0, 0, 32, 0x0, 0⟩
def PAGE_OWNER_OWNER (p : Nat) : Field := ⟨p, 0x1c, 0, 0, 8, 0xff, 0⟩
def PAGE_RES_HELD (p : Nat) : Field := ⟨p, 0x20, 0, 0, 8, 0x0, 0⟩
def PAGE_RES_NEEDED (p : Nat) : Field := ⟨p, 0x20, 0, 8, 8, 0x0, 0⟩
def PAGE_CLAIM_FAIL_RES (p : Nat) : Field := ⟨p, 0x24, 0, 0, 16, 0x0, 0⟩
def PAGE_CLAIM_FAIL_HOLDER (p : Nat) : Field := ⟨p, 0x24, 0, 16, 8, 0x0, 0⟩
def PAGE_CLAIM_FAIL_HCTX (p : Nat) : Field := ⟨p, 0x24, 0, 24, 8, 0x0, 0⟩
def PAGE_ABORT_BOUND_BOUND (p : Nat) : Field := ⟨p, 0x28, 0, 0, 16, 0x0, 0⟩
def PAGE_SEQ_SEQ (p : Nat) : Field := ⟨p, 0x2c, 0, 0, 32, 0x0, 0⟩
def BLK_PRESENT_PRESENT : Field := ⟨0x0, 0x40, 0x4, 0, 32, 0x0, 0⟩
def BLK_CLAIM_QUERY_RES : Field := ⟨0x0, 0x60, 0x0, 0, 16, 0x0, 0⟩
def BLK_CLAIM_RESULT_HOLDER : Field := ⟨0x0, 0x64, 0x0, 0, 8, 0xfe, 0⟩
def BLK_CLAIM_RESULT_HCTX : Field := ⟨0x0, 0x64, 0x0, 8, 8, 0xff, 0⟩
def BLK_CLAIM_RESULT_RES : Field := ⟨0x0, 0x64, 0x0, 16, 16, 0x0, 0⟩
def BLK_PORTS_CULVERT : Field := ⟨0x0, 0x68, 0x0, 0, 16, 0x0, 0⟩
def BLK_PORTS_FABRIC : Field := ⟨0x0, 0x68, 0x0, 16, 8, 0x0, 0⟩
def BLK_PORTS_TAPS : Field := ⟨0x0, 0x68, 0x0, 24, 8, 0x0, 0⟩
def BLK_CCLK_MHZ : Field := ⟨0x0, 0x6c, 0x0, 0, 16, 0x5dc, 0⟩
def BLK_SILICON_REV : Field := ⟨0x0, 0x70, 0x0, 0, 32, 0x0, 0⟩
def Q_BASE_LO_BASE : Field := ⟨0x2, 0x400, 0x60, 0, 32, 0x0, 0⟩
def Q_BASE_HI_BASE : Field := ⟨0x2, 0x404, 0x60, 0, 32, 0x0, 0⟩
def Q_CFG_SQ_LOG : Field := ⟨0x2, 0x408, 0x60, 0, 4, 0x4, 0⟩
def Q_CFG_CQ_LOG : Field := ⟨0x2, 0x408, 0x60, 4, 4, 0x4, 0⟩
def Q_CFG_ENGINE : Field := ⟨0x2, 0x408, 0x60, 8, 4, 0x0, 0⟩
def Q_CFG_CTX : Field := ⟨0x2, 0x408, 0x60, 12, 6, 0x0, 0⟩
def Q_CTL_ENABLE : Field := ⟨0x2, 0x40c, 0x60, 0, 1, 0x0, 0⟩
def Q_CTL_ABORT : Field := ⟨0x2, 0x40c, 0x60, 1, 1, 0x0, 0⟩
def Q_STATE_STATE : Field := ⟨0x2, 0x410, 0x60, 0, 4, 0x0, 0⟩
def Q_STATE_WAIT : Field := ⟨0x2, 0x410, 0x60, 4, 1, 0x0, 0⟩
def Q_STATE_ERR : Field := ⟨0x2, 0x410, 0x60, 16, 16, 0x0, 0⟩
def Q_HEAD_HEAD : Field := ⟨0x2, 0x414, 0x60, 0, 16, 0x0, 0⟩
def Q_DOORBELL_TAIL : Field := ⟨0x2, 0x418, 0x60, 0, 16, 0x0, 0⟩
def Q_TAIL_TAIL : Field := ⟨0x2, 0x41c, 0x60, 0, 16, 0x0, 0⟩
def CQ_BASE_LO_BASE : Field := ⟨0x2, 0x420, 0x60, 0, 32, 0x0, 0⟩
def CQ_BASE_HI_BASE : Field := ⟨0x2, 0x424, 0x60, 0, 32, 0x0, 0⟩
def CQ_HEAD_HEAD : Field := ⟨0x2, 0x428, 0x60, 0, 16, 0x0, 0⟩
def CQ_TAIL_TAIL : Field := ⟨0x2, 0x42c, 0x60, 0, 16, 0x0, 0⟩
def Q_COAL_COUNT : Field := ⟨0x2, 0x430, 0x60, 0, 16, 0x1, 0⟩
def Q_COAL_TIME : Field := ⟨0x2, 0x430, 0x60, 16, 16, 0x0, 0⟩
def Q_ERRCNT_COUNT : Field := ⟨0x2, 0x434, 0x60, 0, 32, 0x0, 0⟩
def TIM_CFG_SOURCE : Field := ⟨0x4, 0x40, 0x0, 0, 2, 0x0, 0⟩
def TIM_CFG_FF_EN : Field := ⟨0x4, 0x40, 0x0, 2, 1, 0x1, 0⟩
def TIM_CFG_TEMP_CH : Field := ⟨0x4, 0x40, 0x0, 4, 12, 0x0, 0⟩
def TIM_TRANSIENT_ENTER_SLOPE : Field := ⟨0x4, 0x44, 0x0, 0, 8, 0x14, 0⟩
def TIM_TRANSIENT_EXIT_SLOPE : Field := ⟨0x4, 0x44, 0x0, 8, 8, 0x5, 0⟩
def TIM_TRANSIENT_SETTLE_MS : Field := ⟨0x4, 0x44, 0x0, 16, 8, 0x5, 0⟩
def TIM_TRANSIENT_RESID_NS : Field := ⟨0x4, 0x44, 0x0, 24, 8, 0x4, 0⟩
def TIM_STATUS_SERVO : Field := ⟨0x4, 0x48, 0x0, 0, 3, 0x0, 0⟩
def TIM_STATUS_TIME_LOST : Field := ⟨0x4, 0x48, 0x0, 3, 1, 0x0, 0⟩
def TIM_STATUS_TRANSIENT : Field := ⟨0x4, 0x48, 0x0, 4, 1, 0x0, 0⟩
def TIM_STATUS_FIRST_STEP_DONE : Field := ⟨0x4, 0x48, 0x0, 5, 1, 0x0, 0⟩
def TIM_STATUS_SRC_USED : Field := ⟨0x4, 0x48, 0x0, 6, 2, 0x0, 0⟩
def TIM_CMD_STEP : Field := ⟨0x4, 0x4c, 0x0, 0, 1, 0x0, 0⟩
def TIM_CMD_SET : Field := ⟨0x4, 0x4c, 0x0, 1, 1, 0x0, 0⟩
def TIM_NT0_NT : Field := ⟨0x4, 0x50, 0x0, 0, 32, 0x0, 0⟩
def TIM_NT1_NT : Field := ⟨0x4, 0x54, 0x0, 0, 32, 0x0, 0⟩
def TIM_NT2_NT : Field := ⟨0x4, 0x58, 0x0, 0, 16, 0x0, 0⟩
def TIM_FRC_LO_FRC : Field := ⟨0x4, 0x60, 0x0, 0, 32, 0x0, 0⟩
def TIM_FRC_HI_FRC : Field := ⟨0x4, 0x64, 0x0, 0, 32, 0x0, 0⟩
def TIM_RATE_LO_RATE : Field := ⟨0x4, 0x68, 0x0, 0, 32, 0x0, 0⟩
def TIM_RATE_HI_RATE : Field := ⟨0x4, 0x6c, 0x0, 0, 20, 0x10000, 0⟩
def TIM_ERR_OFFSET : Field := ⟨0x4, 0x70, 0x0, 0, 32, 0x0, 0⟩
def TIM_BOUND_BOUND : Field := ⟨0x4, 0x74, 0x0, 0, 16, 0xffff, 0⟩
def TIM_BOUND_HOLD_MS : Field := ⟨0x4, 0x74, 0x0, 16, 16, 0x0, 0⟩
def TIM_STEPS_COUNT : Field := ⟨0x4, 0x78, 0x0, 0, 16, 0x0, 0⟩
def TIM_SET_NT_NT : Field := ⟨0x4, 0x80, 0x4, 0, 32, 0x0, 0⟩
def TIM_TEMP_TEMP : Field := ⟨0x4, 0x90, 0x0, 0, 16, 0x0, 0⟩
def TIM_FF_TEMP : Field := ⟨0x4, 0x100, 0x4, 0, 16, 0x0, 0⟩
def TIM_FF_FREQ : Field := ⟨0x4, 0x100, 0x4, 16, 16, 0x0, 0⟩
def TMR_OWNER_PAGE : Field := ⟨0x4, 0x200, 0x10, 0, 8, 0xff, 0⟩
def TMR_NEXT_LO_NS : Field := ⟨0x4, 0x204, 0x10, 0, 32, 0x0, 0⟩
def TMR_NEXT_HI_NS : Field := ⟨0x4, 0x208, 0x10, 0, 32, 0x0, 0⟩
def TMR_LATE_LATE : Field := ⟨0x4, 0x20c, 0x10, 0, 16, 0x0, 0⟩
def TMR_LATE_SKIPPED : Field := ⟨0x4, 0x20c, 0x10, 16, 16, 0x0, 0⟩
def PTP_CFG_DOMAIN : Field := ⟨0x5, 0x40, 0x0, 0, 8, 0x0, 0⟩
def PTP_CFG_OC_EN : Field := ⟨0x5, 0x40, 0x0, 8, 1, 0x1, 0⟩
def PTP_CFG_TC_EN : Field := ⟨0x5, 0x40, 0x0, 9, 1, 0x1, 0⟩
def PTP_CFG_MASTER : Field := ⟨0x5, 0x40, 0x0, 10, 1, 0x0, 0⟩
def PTP_CFG_SLAVE_PORT : Field := ⟨0x5, 0x40, 0x0, 12, 4, 0x0, 0⟩
def PTP_CFG_BACKUP_PORT : Field := ⟨0x5, 0x40, 0x0, 16, 4, 0x1, 0⟩
def PTP_CFG_BACKUP_EN : Field := ⟨0x5, 0x40, 0x0, 20, 1, 0x1, 0⟩
def PTP_CFG_LOG_DREQ : Field := ⟨0x5, 0x40, 0x0, 24, 4, 0xe, 0⟩
def PTP_CFG_LOG_SYNC : Field := ⟨0x5, 0x40, 0x0, 28, 4, 0xc, 0⟩
def PTP_CLOCK_ID_LO_ID : Field := ⟨0x5, 0x44, 0x0, 0, 32, 0x0, 0⟩
def PTP_CLOCK_ID_HI_ID : Field := ⟨0x5, 0x48, 0x0, 0, 32, 0x0, 0⟩
def PTP_GM_ID_LO_ID : Field := ⟨0x5, 0x4c, 0x0, 0, 32, 0x0, 0⟩
def PTP_GM_ID_HI_ID : Field := ⟨0x5, 0x50, 0x0, 0, 32, 0x0, 0⟩
def PTP_MPD_DELAY : Field := ⟨0x5, 0x54, 0x0, 0, 32, 0x0, 0⟩
def PTP_OUTLIER_COUNT : Field := ⟨0x5, 0x58, 0x0, 0, 32, 0x0, 0⟩
def PTP_TC_FWD_MASK : Field := ⟨0x5, 0x80, 0x4, 0, 16, 0x0, 0⟩
def PTP_RX_DLY_DELAY : Field := ⟨0x5, 0x100, 0x20, 0, 16, 0x0, 0⟩
def PTP_TX_LAT_LAT : Field := ⟨0x5, 0x104, 0x20, 0, 16, 0x0, 0⟩
def PTP_TX_LAT_DELAY : Field := ⟨0x5, 0x104, 0x20, 16, 16, 0x0, 0⟩
def PTP_ASYM_ASYM : Field := ⟨0x5, 0x108, 0x20, 0, 32, 0x0, 0⟩
def PTP_TS_MISS_COUNT : Field := ⟨0x5, 0x10c, 0x20, 0, 32, 0x0, 0⟩
def PTP_TX_TS_ERR_COUNT : Field := ⟨0x5, 0x110, 0x20, 0, 32, 0x0, 0⟩
def PTP_PORT_STAT_UNFIT : Field := ⟨0x5, 0x114, 0x20, 0, 1, 0x0, 0⟩
def PTP_PORT_STAT_SLAVE_ACTIVE : Field := ⟨0x5, 0x114, 0x20, 1, 1, 0x0, 0⟩
def PTP_PORT_STAT_AGREE : Field := ⟨0x5, 0x114, 0x20, 8, 8, 0x0, 0⟩
def PTP_DISCARD_COUNT : Field := ⟨0x5, 0x118, 0x20, 0, 32, 0x0, 0⟩
def STP_CFG_KP_SHIFT : Field := ⟨0x6, 0x40, 0x0, 0, 4, 0x2, 0⟩
def STP_CFG_KD_SHIFT : Field := ⟨0x6, 0x40, 0x0, 4, 4, 0x5, 0⟩
def STP_CFG_REINIT_N : Field := ⟨0x6, 0x40, 0x0, 8, 4, 0x8, 0⟩
def STP_CFG_LP_STALL : Field := ⟨0x6, 0x40, 0x0, 12, 1, 0x1, 0⟩
def STP_PERIOD_MIN_MIN : Field := ⟨0x6, 0x44, 0x0, 0, 32, 0x64, 0⟩
def STP_PERIOD_MAX_MAX : Field := ⟨0x6, 0x48, 0x0, 0, 32, 0x927c0, 0⟩
def STP_LAG_CFG_LAG_SHIFT : Field := ⟨0x6, 0x4c, 0x0, 0, 4, 0x4, 0⟩
def STP_CMD_SWAP : Field := ⟨0x6, 0x50, 0x0, 0, 1, 0x0, 0⟩
def STP_CMD_SET_INDEX : Field := ⟨0x6, 0x50, 0x0, 1, 1, 0x0, 0⟩
def STP_CMD_TRK : Field := ⟨0x6, 0x50, 0x0, 8, 8, 0x0, 0⟩
def STP_INDEX_SET_LO_INDEX : Field := ⟨0x6, 0x54, 0x0, 0, 32, 0x0, 0⟩
def STP_INDEX_SET_HI_INDEX : Field := ⟨0x6, 0x58, 0x0, 0, 16, 0x0, 0⟩
def STP_SCHED_STAT_SWAP_PENDING : Field := ⟨0x6, 0x5c, 0x0, 0, 1, 0x0, 0⟩
def STP_SCHED_STAT_SWAPS : Field := ⟨0x6, 0x5c, 0x0, 16, 16, 0x0, 0⟩
def STP_MISSED_COUNT : Field := ⟨0x6, 0x60, 0x0, 0, 32, 0x0, 0⟩
def STP_BOUNCE_COUNT : Field := ⟨0x6, 0x64, 0x0, 0, 32, 0x0, 0⟩
def STP_TRK_EN_EN : Field := ⟨0x6, 0x80, 0x4, 0, 32, 0x0, 0⟩
def STP_IN_MASK_MASK : Field := ⟨0x6, 0x90, 0x4, 0, 32, 0x0, 0⟩
def STP_LAG_GRP_GRP : Field := ⟨0x6, 0xa0, 0x4, 0, 32, 0x0, 0⟩
def PH_CFG_MODE : Field := ⟨0x6, 0x100, 0x4, 0, 2, 0x0, 0⟩
def PH_CFG_TOL : Field := ⟨0x6, 0x100, 0x4, 8, 8, 0x40, 0⟩
def PH_CFG_REF : Field := ⟨0x6, 0x100, 0x4, 16, 16, 0x0, 0⟩
def PH_LAST_ANGLE : Field := ⟨0x6, 0x140, 0x4, 0, 16, 0x0, 0⟩
def PH_LAST_OUT_TOL : Field := ⟨0x6, 0x140, 0x4, 16, 8, 0x0, 0⟩
def PH_LAST_REPEAT : Field := ⟨0x6, 0x140, 0x4, 24, 8, 0x0, 0⟩
def PH_MISS_COUNT : Field := ⟨0x6, 0x180, 0x4, 0, 32, 0x0, 0⟩
def STP_IN_CFG_DELAY : Field := ⟨0x6, 0x200, 0x4, 0, 16, 0x0, 0⟩
def STP_IN_CFG_FILTER : Field := ⟨0x6, 0x200, 0x4, 16, 10, 0x64, 0⟩
def SCH_CTL_KIND : Field := ⟨0x6, 0x400, 0x10, 0, 2, 0x0, 0⟩
def SCH_CTL_ACTION : Field := ⟨0x6, 0x400, 0x10, 4, 4, 0x0, 0⟩
def SCH_CTL_ARG : Field := ⟨0x6, 0x400, 0x10, 8, 8, 0x0, 0⟩
def SCH_CTL_TRACKER : Field := ⟨0x6, 0x400, 0x10, 16, 8, 0x0, 0⟩
def SCH_CTL_PHASE : Field := ⟨0x6, 0x400, 0x10, 24, 4, 0x0, 0⟩
def SCH_WHEN_ANGLE : Field := ⟨0x6, 0x404, 0x10, 0, 16, 0x0, 0⟩
def SCH_WHEN_DIV : Field := ⟨0x6, 0x404, 0x10, 16, 16, 0x0, 0⟩
def SCH_T0_LO_T0 : Field := ⟨0x6, 0x408, 0x10, 0, 32, 0x0, 0⟩
def SCH_T0_HI_T0 : Field := ⟨0x6, 0x40c, 0x10, 0, 32, 0x0, 0⟩
def TRK_STAT_STATE : Field := ⟨0x6, 0x800, 0x10, 0, 3, 0x0, 0⟩
def TRK_STAT_LATE : Field := ⟨0x6, 0x800, 0x10, 3, 1, 0x0, 0⟩
def TRK_STAT_REASON : Field := ⟨0x6, 0x800, 0x10, 4, 2, 0x0, 0⟩
def TRK_STAT_OUTLIERS : Field := ⟨0x6, 0x800, 0x10, 16, 16, 0x0, 0⟩
def TRK_POS_LO_SP : Field := ⟨0x6, 0x804, 0x10, 0, 32, 0x0, 0⟩
def TRK_POS_HI_SP : Field := ⟨0x6, 0x808, 0x10, 0, 32, 0x0, 0⟩
def TRK_PERIOD_PERIOD : Field := ⟨0x6, 0x80c, 0x10, 0, 32, 0x0, 0⟩
def CNT_SEL_SLOT : Field := ⟨0x8, 0x40, 0x0, 0, 15, 0x0, 0⟩
def CNT_SRC_CLASS : Field := ⟨0x8, 0x44, 0x0, 0, 4, 0x0, 0⟩
def CNT_SRC_INDEX : Field := ⟨0x8, 0x44, 0x0, 4, 12, 0x0, 0⟩
def CNT_SRC_MODE : Field := ⟨0x8, 0x44, 0x0, 16, 4, 0x0, 0⟩
def CNT_SRC_GAUGE : Field := ⟨0x8, 0x44, 0x0, 20, 1, 0x0, 0⟩
def CNT_SETS_MASK : Field := ⟨0x8, 0x48, 0x0, 0, 16, 0x0, 0⟩
def CNT_VAL_LO_VAL : Field := ⟨0x8, 0x4c, 0x0, 0, 32, 0x0, 0⟩
def CNT_VAL_HI_VAL : Field := ⟨0x8, 0x50, 0x0, 0, 32, 0x0, 0⟩
def CNT_SOFT_SLOT_SLOT : Field := ⟨0x8, 0x54, 0x0, 0, 14, 0x0, 0⟩
def CNT_SOFT_ADD : Field := ⟨0x8, 0x58, 0x0, 0, 64, 0x0, 0⟩
def CNT_SETSZ_SIZE : Field := ⟨0x8, 0x80, 0x4, 0, 11, 0x0, 0⟩
def FRM_CFG_ENC : Field := ⟨0x9, 0x40, 0x0, 0, 2, 0x1, 0⟩
def FRM_CFG_KEY_EVERY : Field := ⟨0x9, 0x40, 0x0, 4, 8, 0x10, 0⟩
def FRM_CFG_SUM_N : Field := ⟨0x9, 0x40, 0x0, 16, 12, 0x10, 0⟩
def FRM_STAT_ENC_ACTIVE : Field := ⟨0x9, 0x44, 0x0, 0, 2, 0x1, 0⟩
def FRM_STAT_STEPPED_DOWN : Field := ⟨0x9, 0x44, 0x0, 2, 1, 0x0, 0⟩
def FRM_CMD_CAPTURE_FULL : Field := ⟨0x9, 0x48, 0x0, 0, 1, 0x0, 0⟩
def FRM_CMD_CAPTURE_SET : Field := ⟨0x9, 0x48, 0x0, 1, 1, 0x0, 0⟩
def FRM_CMD_SYNC : Field := ⟨0x9, 0x48, 0x0, 2, 1, 0x0, 0⟩
def FRM_CMD_SET : Field := ⟨0x9, 0x48, 0x0, 8, 4, 0x0, 0⟩
def FRM_SKIP_FULL_COUNT : Field := ⟨0x9, 0x4c, 0x0, 0, 32, 0x0, 0⟩
def FRM_SKIP_PART_COUNT : Field := ⟨0x9, 0x50, 0x0, 0, 32, 0x0, 0⟩
def FRM_FRAMES_COUNT : Field := ⟨0x9, 0x54, 0x0, 0, 32, 0x0, 0⟩
def FRM_PFRAMES_COUNT : Field := ⟨0x9, 0x58, 0x0, 0, 32, 0x0, 0⟩
def FRM_KEY_FORCED_COUNT : Field := ⟨0x9, 0x5c, 0x0, 0, 32, 0x0, 0⟩
def PRX_BUS_CFG_MODE : Field := ⟨0xa, 0x40, 0x4, 0, 2, 0x0, 0⟩
def PRX_BUS_CFG_PEC : Field := ⟨0xa, 0x40, 0x4, 2, 1, 0x1, 0⟩
def PRX_BUS_CFG_RATE : Field := ⟨0xa, 0x40, 0x4, 8, 8, 0x1, 0⟩
def PRX_SEL_PROXY : Field := ⟨0xa, 0x80, 0x0, 0, 7, 0x0, 0⟩
def PRX_DIE_BUS : Field := ⟨0xa, 0x84, 0x0, 0, 4, 0x0, 0⟩
def PRX_DIE_ADDR : Field := ⟨0xa, 0x84, 0x0, 4, 7, 0x0, 0⟩
def PRX_DIE_DYN : Field := ⟨0xa, 0x84, 0x0, 11, 1, 0x0, 0⟩
def PRX_DIE_TRACKER : Field := ⟨0xa, 0x84, 0x0, 12, 7, 0x0, 0⟩
def PRX_DIE_EN : Field := ⟨0xa, 0x84, 0x0, 19, 1, 0x0, 0⟩
def PRX_DIE_LATCH_MODE : Field := ⟨0xa, 0x84, 0x0, 20, 2, 0x0, 0⟩
def PRX_LATCH_REG : Field := ⟨0xa, 0x88, 0x0, 0, 16, 0x0, 0⟩
def PRX_LATCH_VAL : Field := ⟨0xa, 0x88, 0x0, 16, 8, 0x0, 0⟩
def PRX_LATCH_DLY_DLY : Field := ⟨0xa, 0x8c, 0x0, 0, 16, 0x0, 0⟩
def PRX_SEG_REG : Field := ⟨0xa, 0xa0, 0x4, 0, 16, 0x0, 0⟩
def PRX_SEG_COUNT : Field := ⟨0xa, 0xa0, 0x4, 16, 9, 0x0, 0⟩
def PRX_SEG_WIDTH : Field := ⟨0xa, 0xa0, 0x4, 25, 2, 0x0, 0⟩
def PRX_SEG_GAUGE : Field := ⟨0xa, 0xa0, 0x4, 27, 1, 0x0, 0⟩
def PRX_SEG_BIG : Field := ⟨0xa, 0xa0, 0x4, 28, 1, 0x0, 0⟩
def PRX_STAT_UNREACHABLE : Field := ⟨0xa, 0xe0, 0x0, 0, 1, 0x0, 0⟩
def PRX_STAT_FAIL_RUN : Field := ⟨0xa, 0xe0, 0x0, 8, 8, 0x0, 0⟩
def PRX_POLLS_COUNT : Field := ⟨0xa, 0xe4, 0x0, 0, 32, 0x0, 0⟩
def PRX_SKIP_COUNT : Field := ⟨0xa, 0xe8, 0x0, 0, 32, 0x0, 0⟩
def PRX_FAIL_COUNT : Field := ⟨0xa, 0xec, 0x0, 0, 32, 0x0, 0⟩
def PRX_STALE_COUNT : Field := ⟨0xa, 0xf0, 0x0, 0, 32, 0x0, 0⟩
def GAR_POOL_TAP : Field := ⟨0x10, 0x40, 0x0, 0, 10, 0x0, 0⟩
def GAR_POOL_DENSE : Field := ⟨0x10, 0x40, 0x0, 16, 10, 0x0, 0⟩
def GAR_STAT_ACTIVE : Field := ⟨0x10, 0x44, 0x0, 0, 10, 0x0, 0⟩
def GAR_STAT_TEST : Field := ⟨0x10, 0x44, 0x0, 10, 4, 0x0, 0⟩
def GAR_STAT_DEGRADED : Field := ⟨0x10, 0x44, 0x0, 14, 1, 0x0, 0⟩
def GAR_STAT_CMD : Field := ⟨0x10, 0x44, 0x0, 16, 10, 0x0, 0⟩
def GAR_WIDTH_K : Field := ⟨0x10, 0x48, 0x0, 0, 11, 0x0, 0⟩
def GAR_WIDTH_LOAD : Field := ⟨0x10, 0x48, 0x0, 16, 16, 0x0, 0⟩
def GAR_ROT_ROUNDS : Field := ⟨0x10, 0x4c, 0x0, 0, 16, 0x0, 0⟩
def GAR_ROT_SLOT_US : Field := ⟨0x10, 0x4c, 0x0, 16, 16, 0x0, 0⟩
def GAR_CMD_RETIRE : Field := ⟨0x10, 0x50, 0x0, 0, 1, 0x0, 0⟩
def GAR_CMD_MACRO : Field := ⟨0x10, 0x50, 0x0, 16, 9, 0x0, 0⟩
def GAR_KAT_FAIL_COUNT : Field := ⟨0x10, 0x54, 0x0, 0, 32, 0x0, 0⟩
def GAR_SAT_COUNT : Field := ⟨0x10, 0x58, 0x0, 0, 32, 0x0, 0⟩
def GAR_INC_COUNT : Field := ⟨0x10, 0x5c, 0x0, 0, 32, 0x0, 0⟩
def GAR_NONFIN_COUNT : Field := ⟨0x10, 0x60, 0x0, 0, 32, 0x0, 0⟩
def GAR_DENSE_DENSE : Field := ⟨0x10, 0x64, 0x0, 0, 10, 0x0, 0⟩
def GAR_DENSE_TAP : Field := ⟨0x10, 0x64, 0x0, 16, 10, 0x0, 0⟩
def GAR_RETIRED_MASK : Field := ⟨0x10, 0x80, 0x4, 0, 32, 0x0, 0⟩
def TAP_CFG_EN : Field := ⟨0x11, 0x40, 0x4, 0, 1, 0x0, 0⟩
def TAP_CFG_HDR : Field := ⟨0x11, 0x40, 0x4, 1, 1, 0x0, 0⟩
def TAP_OVF_COUNT : Field := ⟨0x11, 0x100, 0x4, 0, 32, 0x0, 0⟩
def BIND_SEL_BIND : Field := ⟨0x11, 0x200, 0x0, 0, 8, 0x0, 0⟩
def BIND_MATCH_TAG : Field := ⟨0x11, 0x204, 0x0, 0, 16, 0x0, 0⟩
def BIND_MATCH_MASK : Field := ⟨0x11, 0x204, 0x0, 16, 16, 0x0, 0⟩
def BIND_CTL_EN : Field := ⟨0x11, 0x208, 0x0, 0, 1, 0x0, 0⟩
def BIND_CTL_MODE : Field := ⟨0x11, 0x208, 0x0, 1, 1, 0x0, 0⟩
def BIND_CTL_DIG : Field := ⟨0x11, 0x208, 0x0, 2, 1, 0x0, 0⟩
def BIND_CTL_FMT_OVR : Field := ⟨0x11, 0x208, 0x0, 3, 1, 0x0, 0⟩
def BIND_CTL_FMT : Field := ⟨0x11, 0x208, 0x0, 4, 3, 0x0, 0⟩
def BIND_CTL_TAP : Field := ⟨0x11, 0x208, 0x0, 8, 6, 0x3f, 0⟩
def BIND_CTL_WINDOW : Field := ⟨0x11, 0x208, 0x0, 16, 4, 0x0, 0⟩
def BIND_CTL_ACCOUNT : Field := ⟨0x11, 0x208, 0x0, 20, 10, 0x0, 0⟩
def BIND_PARAM_E_REF : Field := ⟨0x11, 0x20c, 0x0, 0, 16, 0x0, 0⟩
def BIND_PARAM_K_LOG : Field := ⟨0x11, 0x20c, 0x0, 16, 4, 0x6, 0⟩
def BIND_SEED_LO_SEED : Field := ⟨0x11, 0x210, 0x0, 0, 32, 0x0, 0⟩
def BIND_SEED_HI_SEED : Field := ⟨0x11, 0x214, 0x0, 0, 32, 0x0, 0⟩
def BIND_STAT_CONFLICT : Field := ⟨0x11, 0x218, 0x0, 0, 16, 0x0, 0⟩
def BIND_STAT_MISSED : Field := ⟨0x11, 0x218, 0x0, 16, 16, 0x0, 0⟩
def BIND_TENSORS_COUNT : Field := ⟨0x11, 0x21c, 0x0, 0, 32, 0x0, 0⟩
def GAR_UNBOUND_COUNT : Field := ⟨0x11, 0x280, 0x0, 0, 32, 0x0, 0⟩
def ACC_SEL_ACCOUNT : Field := ⟨0x12, 0x40, 0x0, 0, 10, 0x0, 0⟩
def ACC_STAT_OPEN : Field := ⟨0x12, 0x44, 0x0, 0, 1, 0x0, 0⟩
def ACC_STAT_SAT : Field := ⟨0x12, 0x44, 0x0, 1, 1, 0x0, 0⟩
def ACC_STAT_INCOMPLETE : Field := ⟨0x12, 0x44, 0x0, 2, 1, 0x0, 0⟩
def ACC_STAT_NONFINITE : Field := ⟨0x12, 0x44, 0x0, 3, 1, 0x0, 0⟩
def ACC_STAT_SUSPECT : Field := ⟨0x12, 0x44, 0x0, 4, 1, 0x0, 0⟩
def ACC_STAT_ORIGIN : Field := ⟨0x12, 0x44, 0x0, 5, 1, 0x0, 0⟩
def ACC_STAT_K_LOG : Field := ⟨0x12, 0x44, 0x0, 8, 4, 0x0, 0⟩
def ACC_STAT_CTX : Field := ⟨0x12, 0x44, 0x0, 16, 6, 0x0, 0⟩
def ACC_PARAM_E_REF : Field := ⟨0x12, 0x48, 0x0, 0, 16, 0x0, 0⟩
def ACC_PARAM_CLOSES : Field := ⟨0x12, 0x48, 0x0, 16, 16, 0x0, 0⟩
def ACC_SEED_LO_SEED : Field := ⟨0x12, 0x4c, 0x0, 0, 32, 0x0, 0⟩
def ACC_SEED_HI_SEED : Field := ⟨0x12, 0x50, 0x0, 0, 32, 0x0, 0⟩
def ACC_ELEMS_LO_ELEMS : Field := ⟨0x12, 0x54, 0x0, 0, 32, 0x0, 0⟩
def ACC_ELEMS_HI_ELEMS : Field := ⟨0x12, 0x58, 0x0, 0, 32, 0x0, 0⟩
def ACC_TENSORS_COUNT : Field := ⟨0x12, 0x5c, 0x0, 0, 32, 0x0, 0⟩
def ACC_NONFIN_COUNT : Field := ⟨0x12, 0x60, 0x0, 0, 32, 0x0, 0⟩
def ACC_IDX_INDEX : Field := ⟨0x12, 0x64, 0x0, 0, 10, 0x0, 0⟩
def ACC_VAL0_VAL : Field := ⟨0x12, 0x68, 0x0, 0, 32, 0x0, 0⟩
def ACC_VAL1_VAL : Field := ⟨0x12, 0x6c, 0x0, 0, 32, 0x0, 0⟩
def ACC_VAL2_VAL : Field := ⟨0x12, 0x70, 0x0, 0, 32, 0x0, 0⟩
def WIN_STAT_OPEN : Field := ⟨0x13, 0x40, 0x4, 0, 1, 0x0, 0⟩
def WIN_STAT_CLOSING : Field := ⟨0x13, 0x40, 0x4, 1, 1, 0x0, 0⟩
def WIN_STAT_DEFER : Field := ⟨0x13, 0x40, 0x4, 2, 1, 0x0, 0⟩
def WIN_STAT_INSTANCES : Field := ⟨0x13, 0x40, 0x4, 16, 16, 0x0, 0⟩
def WIN_CMD_OPEN : Field := ⟨0x13, 0x80, 0x0, 0, 1, 0x0, 0⟩
def WIN_CMD_CLOSE : Field := ⟨0x13, 0x80, 0x0, 1, 1, 0x0, 0⟩
def WIN_CMD_WINDOW : Field := ⟨0x13, 0x80, 0x0, 8, 4, 0x0, 0⟩
def OPB_SIZE_KIB : Field := ⟨0x13, 0x84, 0x0, 0, 32, 0x0, 0⟩
def SLU_RAW_COUNT : Field := ⟨0x14, 0x40, 0x0, 0, 32, 0x0, 0⟩
def SLU_PACKED_COUNT : Field := ⟨0x14, 0x44, 0x0, 0, 32, 0x0, 0⟩
def SLU_STALL_LO_CYCLES : Field := ⟨0x14, 0x48, 0x0, 0, 32, 0x0, 0⟩
def SLU_STALL_HI_CYCLES : Field := ⟨0x14, 0x4c, 0x0, 0, 32, 0x0, 0⟩
def SLU_STALL_BLK_COUNT : Field := ⟨0x14, 0x50, 0x0, 0, 32, 0x0, 0⟩
def SLU_WORST_D : Field := ⟨0x14, 0x54, 0x0, 0, 7, 0x0, 0⟩
def SLU_MALFORMED_COUNT : Field := ⟨0x14, 0x58, 0x0, 0, 32, 0x0, 0⟩
def DIG_STAT_CORES : Field := ⟨0x13, 0x100, 0x0, 0, 8, 0x0, 0⟩
def DIG_TENSORS_COUNT : Field := ⟨0x13, 0x104, 0x0, 0, 32, 0x0, 0⟩
def DIG_INC_COUNT : Field := ⟨0x13, 0x108, 0x0, 0, 32, 0x0, 0⟩
def CHK_SEL_ENTRY : Field := ⟨0x13, 0x140, 0x0, 0, 8, 0x0, 0⟩
def CHK_CTL_EN : Field := ⟨0x13, 0x144, 0x0, 0, 1, 0x0, 0⟩
def CHK_CTL_LOADED : Field := ⟨0x13, 0x144, 0x0, 1, 1, 0x0, 0⟩
def CHK_DEF_LO_ADDR : Field := ⟨0x13, 0x148, 0x0, 0, 32, 0x0, 0⟩
def CHK_DEF_HI_ADDR : Field := ⟨0x13, 0x14c, 0x0, 0, 32, 0x0, 0⟩
def CHK_DEF_LEN_BYTES : Field := ⟨0x13, 0x150, 0x0, 0, 21, 0x0, 0⟩
def CHK_CTX_CTX : Field := ⟨0x13, 0x154, 0x0, 0, 6, 0x0, 0⟩
def CHK_STAT_OUTCOME : Field := ⟨0x13, 0x158, 0x0, 0, 4, 0x0, 0⟩
def CHK_STAT_OPEN : Field := ⟨0x13, 0x158, 0x0, 4, 3, 0x0, 0⟩
def CHK_ROUNDS_COUNT : Field := ⟨0x13, 0x15c, 0x0, 0, 32, 0x0, 0⟩
def CHK_MISMATCH_COUNT : Field := ⟨0x13, 0x160, 0x0, 0, 32, 0x0, 0⟩
def CHK_INCOMPLETE_COUNT : Field := ⟨0x13, 0x164, 0x0, 0, 32, 0x0, 0⟩
def CHK_LATE_COUNT : Field := ⟨0x13, 0x168, 0x0, 0, 32, 0x0, 0⟩
def CHK_BOUND0_BOUND : Field := ⟨0x13, 0x16c, 0x0, 0, 32, 0x0, 0⟩
def CHK_BOUND1_BOUND : Field := ⟨0x13, 0x170, 0x0, 0, 32, 0x0, 0⟩
def CHK_BOUND2_BOUND : Field := ⟨0x13, 0x174, 0x0, 0, 32, 0x0, 0⟩
def CHK_ROUND_LO_KEY : Field := ⟨0x13, 0x178, 0x0, 0, 32, 0x0, 0⟩
def CHK_ROUND_HI_KEY : Field := ⟨0x13, 0x17c, 0x0, 0, 32, 0x0, 0⟩
def ND_TOTAL_LO_COUNT : Field := ⟨0x13, 0x200, 0x0, 0, 32, 0x0, 0⟩
def ND_TOTAL_HI_COUNT : Field := ⟨0x13, 0x204, 0x0, 0, 32, 0x0, 0⟩
def ND_LAST_CAUSE : Field := ⟨0x13, 0x208, 0x0, 0, 4, 0x0, 0⟩
def ND_LAST_FRC_LO_FRC : Field := ⟨0x13, 0x20c, 0x0, 0, 32, 0x0, 0⟩
def ND_LAST_FRC_HI_FRC : Field := ⟨0x13, 0x210, 0x0, 0, 32, 0x0, 0⟩
def ND_CNT_COUNT : Field := ⟨0x13, 0x240, 0x4, 0, 32, 0x0, 0⟩
def AGT_STAT_IN_FLIGHT : Field := ⟨0x20, 0x40, 0x0, 0, 16, 0x0, 0⟩
def AGT_PENDING_COUNT : Field := ⟨0x20, 0x44, 0x0, 0, 20, 0x0, 0⟩
def AGT_SAMPLES_COUNT : Field := ⟨0x20, 0x48, 0x0, 0, 32, 0x0, 0⟩
def AGT_VISITS_LO_COUNT : Field := ⟨0x20, 0x4c, 0x0, 0, 32, 0x0, 0⟩
def AGT_VISITS_HI_COUNT : Field := ⟨0x20, 0x50, 0x0, 0, 32, 0x0, 0⟩
def AGT_COALESCED_COUNT : Field := ⟨0x20, 0x54, 0x0, 0, 32, 0x0, 0⟩
def AGT_ENT_MISS_COUNT : Field := ⟨0x20, 0x58, 0x0, 0, 32, 0x0, 0⟩
def AGT_TYPE_MISS_COUNT : Field := ⟨0x20, 0x5c, 0x0, 0, 32, 0x0, 0⟩
def AGT_TRANSIENT_COUNT : Field := ⟨0x20, 0x60, 0x0, 0, 32, 0x0, 0⟩
def AGT_GATED_COUNT : Field := ⟨0x20, 0x64, 0x0, 0, 32, 0x0, 0⟩
def AGT_SELF_ROW_ROW : Field := ⟨0x20, 0x68, 0x0, 0, 8, 0x0, 0⟩
def AGT_CMD_COL_SWAP : Field := ⟨0x20, 0x6c, 0x0, 0, 1, 0x0, 0⟩
def AGT_COL_STAT_COL_PENDING : Field := ⟨0x20, 0x70, 0x0, 0, 1, 0x0, 0⟩
def AGT_COL_STAT_COL_SWAPS : Field := ⟨0x20, 0x70, 0x0, 16, 16, 0x0, 0⟩
def AGT_MSEL_SLOT : Field := ⟨0x20, 0x80, 0x0, 0, 4, 0x0, 0⟩
def AGT_MS_CTL_EN : Field := ⟨0x20, 0x84, 0x0, 0, 1, 0x0, 0⟩
def AGT_MS_CTL_TRIGGER : Field := ⟨0x20, 0x84, 0x0, 1, 1, 0x0, 0⟩
def AGT_MS_CTL_OFFER : Field := ⟨0x20, 0x84, 0x0, 2, 1, 0x0, 0⟩
def AGT_MS_CTL_CTX : Field := ⟨0x20, 0x84, 0x0, 8, 6, 0x0, 0⟩
def AGT_MS_CTL_DIV : Field := ⟨0x20, 0x84, 0x0, 16, 16, 0x1, 0⟩
def AGT_MS_SRC_KEY : Field := ⟨0x20, 0x88, 0x0, 0, 19, 0x0, 0⟩
def AGT_MS_MASK_MASK : Field := ⟨0x20, 0x8c, 0x0, 0, 19, 0x0, 0⟩
def AGT_MS_R0_BASE_BASE : Field := ⟨0x20, 0x90, 0x0, 0, 20, 0x0, 0⟩
def AGT_MS_R0_SIZE_SIZE : Field := ⟨0x20, 0x94, 0x0, 0, 21, 0x0, 0⟩
def AGT_MS_R1_BASE_BASE : Field := ⟨0x20, 0x98, 0x0, 0, 20, 0x0, 0⟩
def AGT_MS_R1_SIZE_SIZE : Field := ⟨0x20, 0x9c, 0x0, 0, 21, 0x0, 0⟩
def AGT_MS_STAT_ACTIVE_REG : Field := ⟨0x20, 0xa0, 0x0, 0, 1, 0x0, 0⟩
def AGT_MS_STAT_ACTIVE_VALID : Field := ⟨0x20, 0xa0, 0x0, 1, 1, 0x0, 0⟩
def AGT_MS_STAT_STANDBY_VALID : Field := ⟨0x20, 0xa0, 0x0, 2, 1, 0x0, 0⟩
def AGT_MS_STAT_STANDBY_BUSY : Field := ⟨0x20, 0xa0, 0x0, 3, 1, 0x0, 0⟩
def AGT_MS_STAT_SWAP_PENDING : Field := ⟨0x20, 0xa0, 0x0, 4, 1, 0x0, 0⟩
def AGT_MS_STAT_LAST_CLASS : Field := ⟨0x20, 0xa0, 0x0, 12, 4, 0x0, 0⟩
def AGT_MS_STAT_SWAPS : Field := ⟨0x20, 0xa0, 0x0, 16, 16, 0x0, 0⟩
def AGT_MS_CMD_SWAP : Field := ⟨0x20, 0xa4, 0x0, 0, 1, 0x0, 0⟩
def AGT_MS_ID_ID : Field := ⟨0x20, 0xa8, 0x4, 0, 32, 0x0, 0⟩
def AGT_MS_OFFERED_COUNT : Field := ⟨0x20, 0xb8, 0x0, 0, 32, 0x0, 0⟩
def AGT_MAP_SEL_NODE : Field := ⟨0x20, 0x200, 0x0, 0, 12, 0x0, 0⟩
def AGT_MAP_BASE : Field := ⟨0x20, 0x204, 0x0, 0, 18, 0x0, 0⟩
def AGT_MAP_COUNT : Field := ⟨0x20, 0x204, 0x0, 18, 8, 0x0, 0⟩
def AGT_ROW_SEL_ROW : Field := ⟨0x20, 0x210, 0x0, 0, 18, 0x0, 0⟩
def AGT_ROW_KEY_KEY : Field := ⟨0x20, 0x214, 0x0, 0, 19, 0x0, 0⟩
def AGT_ROW_KEY_VALID : Field := ⟨0x20, 0x214, 0x0, 31, 1, 0x0, 0⟩
def AGT_ROW_TYPES_TYPEMASK : Field := ⟨0x20, 0x218, 0x0, 0, 32, 0x0, 0⟩
def AGT_ROW_IDX_FEAT : Field := ⟨0x20, 0x21c, 0x0, 0, 5, 0x0, 0⟩
def AGT_ROW_VAL_VAL : Field := ⟨0x20, 0x220, 0x0, 0, 32, 0x0, 0⟩
def AGT_COL_A_A : Field := ⟨0x20, 0x400, 0x8, 0, 32, 0x0, 0⟩
def AGT_COL_B_B : Field := ⟨0x20, 0x404, 0x8, 0, 32, 0x0, 0⟩
def AGT_COL_ACT_A_A : Field := ⟨0x20, 0x800, 0x8, 0, 32, 0x0, 0⟩
def AGT_COL_ACT_B_B : Field := ⟨0x20, 0x804, 0x8, 0, 32, 0x0, 0⟩
def FAB_ID_NODE : Field := ⟨0x28, 0x40, 0x0, 0, 12, 0x0, 0⟩
def FAB_ID_STATE : Field := ⟨0x28, 0x40, 0x0, 12, 2, 0x0, 0⟩
def FAB_IDENTITY_LO_ID : Field := ⟨0x28, 0x44, 0x0, 0, 32, 0x0, 0⟩
def FAB_IDENTITY_HI_ID : Field := ⟨0x28, 0x48, 0x0, 0, 32, 0x0, 0⟩
def FAB_CFG_CLAIM_HOLD : Field := ⟨0x28, 0x4c, 0x0, 0, 10, 0x14, 0⟩
def FAB_CFG_HOP_COST : Field := ⟨0x28, 0x4c, 0x0, 10, 6, 0x2, 0⟩
def FAB_NODES_NODES : Field := ⟨0x28, 0x50, 0x0, 0, 12, 0x0, 0⟩
def FAB_NODES_NO_BACKUP : Field := ⟨0x28, 0x50, 0x0, 16, 12, 0x0, 0⟩
def FAB_LSDB_SEQ_SEQ : Field := ⟨0x28, 0x54, 0x0, 0, 32, 0x0, 0⟩
def FAB_FRAME_DISC_COUNT : Field := ⟨0x28, 0x58, 0x0, 0, 32, 0x0, 0⟩
def FAB_DUP_UNFILTERED_COUNT : Field := ⟨0x28, 0x5c, 0x0, 0, 32, 0x0, 0⟩
def FAB_PORT_SEL_PORT : Field := ⟨0x28, 0x60, 0x0, 0, 4, 0x0, 0⟩
def FAB_PORT_CFG_EN : Field := ⟨0x28, 0x64, 0x0, 0, 1, 0x0, 0⟩
def FAB_PORT_CFG_LONGHAUL : Field := ⟨0x28, 0x64, 0x0, 1, 1, 0x0, 0⟩
def FAB_PORT_CFG_COST_ADD : Field := ⟨0x28, 0x64, 0x0, 16, 16, 0x0, 0⟩
def FAB_PORT_STAT_LINK : Field := ⟨0x28, 0x68, 0x0, 0, 2, 0x0, 0⟩
def FAB_PORT_STAT_NEIGHBOUR : Field := ⟨0x28, 0x68, 0x0, 4, 12, 0x0, 0⟩
def FAB_PORT_STAT_DELAY : Field := ⟨0x28, 0x68, 0x0, 16, 16, 0x0, 0⟩
def FAB_LH_BASE_LO_ADDR : Field := ⟨0x28, 0x6c, 0x0, 0, 32, 0x0, 0⟩
def FAB_LH_BASE_HI_ADDR : Field := ⟨0x28, 0x70, 0x0, 0, 32, 0x0, 0⟩
def FAB_PORT_RETX_COUNT : Field := ⟨0x28, 0x74, 0x0, 0, 32, 0x0, 0⟩
def FAB_PORT_DOWNS_COUNT : Field := ⟨0x28, 0x78, 0x0, 0, 32, 0x0, 0⟩
def FAB_FLOW_A_LSRC_LO : Field := ⟨0x28, 0x100, 0x8, 0, 13, 0x0, 0⟩
def FAB_FLOW_A_LSRC_HI : Field := ⟨0x28, 0x100, 0x8, 13, 13, 0x0, 0⟩
def FAB_FLOW_A_EN : Field := ⟨0x28, 0x100, 0x8, 26, 1, 0x0, 0⟩
def FAB_FLOW_B_TYPE : Field := ⟨0x28, 0x104, 0x8, 0, 8, 0xff, 0⟩
def FAB_FLOW_B_DST : Field := ⟨0x28, 0x104, 0x8, 8, 12, 0x0, 0⟩
def FAB_LAUNCH_JOB_JOB : Field := ⟨0x28, 0x300, 0x0, 0, 32, 0x0, 0⟩
def FAB_LAUNCH_NT_NT : Field := ⟨0x28, 0x304, 0x4, 0, 32, 0x0, 0⟩
def FAB_LAUNCH_SIZE_SIZE : Field := ⟨0x28, 0x310, 0x0, 0, 19, 0x0, 0⟩
def FAB_LAUNCH_CMD_ARM : Field := ⟨0x28, 0x314, 0x0, 0, 1, 0x0, 0⟩
def FAB_LAUNCH_CMD_CANCEL : Field := ⟨0x28, 0x314, 0x0, 1, 1, 0x0, 0⟩
def FAB_LAUNCH_STAT_STATE : Field := ⟨0x28, 0x318, 0x0, 0, 2, 0x0, 0⟩
def FAB_LAUNCH_STAT_ROOT : Field := ⟨0x28, 0x318, 0x0, 2, 1, 0x0, 0⟩
def FAB_LAUNCH_STAT_REASON : Field := ⟨0x28, 0x318, 0x0, 4, 4, 0x0, 0⟩
def FAB_LAUNCH_STAT_JOB : Field := ⟨0x28, 0x318, 0x0, 8, 24, 0x0, 0⟩
def FAB_LAUNCH_COUNT_COUNT : Field := ⟨0x28, 0x31c, 0x0, 0, 19, 0x0, 0⟩
def FAB_PROXY_ACK_ACK : Field := ⟨0x28, 0x320, 0x4, 0, 32, 0x0, 0⟩
def CUL_CFG_FAILBACK_MS : Field := ⟨0x2c, 0x40, 0x0, 0, 14, 0x64, 0⟩
def CUL_LEAF_ACTIVE : Field := ⟨0x2c, 0x44, 0x0, 0, 2, 0x0, 0⟩
def CUL_LEAF_REGISTERED : Field := ⟨0x2c, 0x44, 0x0, 2, 1, 0x0, 0⟩
def CUL_LEAF_NODE : Field := ⟨0x2c, 0x44, 0x0, 4, 12, 0x0, 0⟩
def CUL_LEAF_PORT : Field := ⟨0x2c, 0x44, 0x0, 16, 7, 0x0, 0⟩
def CUL_REPLAY_KIB : Field := ⟨0x2c, 0x48, 0x0, 0, 12, 0x0, 0⟩
def CUL_REPLAY_AGE : Field := ⟨0x2c, 0x48, 0x0, 16, 16, 0x0, 0⟩
def CUL_REPLAYED_COUNT : Field := ⟨0x2c, 0x4c, 0x0, 0, 32, 0x0, 0⟩
def CUL_SEL_PORT : Field := ⟨0x2c, 0x50, 0x0, 0, 8, 0x0, 0⟩
def CUL_PORT_CTL_INSVC : Field := ⟨0x2c, 0x54, 0x0, 0, 1, 0x0, 0⟩
def CUL_PORT_STAT_LINK : Field := ⟨0x2c, 0x58, 0x0, 0, 3, 0x0, 0⟩
def CUL_PORT_STAT_REG : Field := ⟨0x2c, 0x58, 0x0, 3, 1, 0x0, 0⟩
def CUL_PORT_STAT_PEER_NODE : Field := ⟨0x2c, 0x58, 0x0, 4, 12, 0x0, 0⟩
def CUL_PORT_STAT_PEER_PORT : Field := ⟨0x2c, 0x58, 0x0, 16, 7, 0x0, 0⟩
def CUL_LAT_TX : Field := ⟨0x2c, 0x5c, 0x0, 0, 16, 0x0, 0⟩
def CUL_LAT_RX : Field := ⟨0x2c, 0x5c, 0x0, 16, 16, 0x0, 0⟩
def CUL_DOWNS_COUNT : Field := ⟨0x2c, 0x60, 0x0, 0, 32, 0x0, 0⟩
def CUL_CRC_COUNT : Field := ⟨0x2c, 0x64, 0x0, 0, 32, 0x0, 0⟩
def CUL_LAUNCH_JOB_JOB : Field := ⟨0x2c, 0x80, 0x0, 0, 32, 0x0, 0⟩
def CUL_LAUNCH_NT_NT : Field := ⟨0x2c, 0x84, 0x4, 0, 32, 0x0, 0⟩
def CUL_LAUNCH_CMD_ACK : Field := ⟨0x2c, 0x90, 0x0, 0, 1, 0x0, 0⟩
def CUL_LAUNCH_STAT_STATE : Field := ⟨0x2c, 0x94, 0x0, 0, 2, 0x0, 0⟩
def CUL_LAUNCH_STAT_ACKED : Field := ⟨0x2c, 0x94, 0x0, 2, 1, 0x0, 0⟩
def RED_SEL_GROUP : Field := ⟨0x24, 0x40, 0x0, 0, 10, 0x0, 0⟩
def RED_CTL_EN : Field := ⟨0x24, 0x44, 0x0, 0, 1, 0x0, 0⟩
def RED_CTL_LOADED : Field := ⟨0x24, 0x44, 0x0, 1, 1, 0x0, 0⟩
def RED_DEF_LO_ADDR : Field := ⟨0x24, 0x48, 0x0, 0, 32, 0x0, 0⟩
def RED_DEF_HI_ADDR : Field := ⟨0x24, 0x4c, 0x0, 0, 32, 0x0, 0⟩
def RED_DEF_LEN_BYTES : Field := ⟨0x24, 0x50, 0x0, 0, 21, 0x0, 0⟩
def RED_CTX_CTX : Field := ⟨0x24, 0x54, 0x0, 0, 6, 0x0, 0⟩
def RED_STAT_OP : Field := ⟨0x24, 0x58, 0x0, 0, 3, 0x0, 0⟩
def RED_STAT_ROOT_HERE : Field := ⟨0x24, 0x58, 0x0, 3, 1, 0x0, 0⟩
def RED_STAT_ROOT : Field := ⟨0x24, 0x58, 0x0, 4, 12, 0x0, 0⟩
def RED_STAT_OPEN : Field := ⟨0x24, 0x58, 0x0, 16, 3, 0x0, 0⟩
def RED_ROUNDS_COUNT : Field := ⟨0x24, 0x5c, 0x0, 0, 32, 0x0, 0⟩
def RED_INCOMPLETE_COUNT : Field := ⟨0x24, 0x60, 0x0, 0, 32, 0x0, 0⟩
def RED_LATE_COUNT : Field := ⟨0x24, 0x64, 0x0, 0, 32, 0x0, 0⟩
def RED_TREE_CHG_COUNT : Field := ⟨0x24, 0x68, 0x0, 0, 32, 0x0, 0⟩
def FLW_CFG_PERIOD_MS : Field := ⟨0x30, 0x40, 0x0, 0, 10, 0xa, 0⟩
def FLW_CFG_REHOME_MS : Field := ⟨0x30, 0x40, 0x0, 16, 8, 0x5, 0⟩
def FLW_POOL_KIB : Field := ⟨0x30, 0x44, 0x0, 0, 17, 0x0, 0⟩
def FLW_LEVEE_HIGH : Field := ⟨0x30, 0x48, 0x0, 0, 8, 0xe0, 0⟩
def FLW_LEVEE_LOW : Field := ⟨0x30, 0x48, 0x0, 8, 8, 0xa0, 0⟩
def FLW_ROUTE_WAIT_MS : Field := ⟨0x30, 0x4c, 0x0, 0, 16, 0x7d0, 0⟩
def FLW_STAT_PRESSURE : Field := ⟨0x30, 0x50, 0x0, 0, 1, 0x0, 0⟩
def FLW_STAT_HEADROOM : Field := ⟨0x30, 0x50, 0x0, 1, 1, 0x1, 0⟩
def FLW_STAT_RESV_SHORT : Field := ⟨0x30, 0x50, 0x0, 2, 1, 0x0, 0⟩
def FLW_STAT_REHOMED : Field := ⟨0x30, 0x50, 0x0, 3, 1, 0x0, 0⟩
def FLW_POOL_USE_KIB : Field := ⟨0x30, 0x54, 0x0, 0, 17, 0x0, 0⟩
def FLW_RESV_NEED : Field := ⟨0x30, 0x58, 0x0, 0, 16, 0x0, 0⟩
def FLW_RESV_AVAIL : Field := ⟨0x30, 0x58, 0x0, 16, 16, 0x0, 0⟩
def FLW_PERIOD_PERIOD : Field := ⟨0x30, 0x5c, 0x0, 0, 32, 0x0, 0⟩
def FLW_NOROUTE_COUNT : Field := ⟨0x30, 0x60, 0x0, 0, 32, 0x0, 0⟩
def FLW_OVERRUN_COUNT : Field := ⟨0x30, 0x64, 0x0, 0, 32, 0x0, 0⟩
def FLW_LSEL_CLASS : Field := ⟨0x30, 0x80, 0x0, 0, 3, 0x0, 0⟩
def FLW_LED_COUNT : Field := ⟨0x30, 0x84, 0x4, 0, 32, 0x0, 0⟩
def FLW_DROP_COUNT : Field := ⟨0x30, 0xc0, 0x4, 0, 32, 0x0, 0⟩
def DLV_BASE_LO_BASE : Field := ⟨0x30, 0x100, 0x20, 0, 32, 0x0, 0⟩
def DLV_BASE_HI_BASE : Field := ⟨0x30, 0x104, 0x20, 0, 32, 0x0, 0⟩
def DLV_SIZE_KIB : Field := ⟨0x30, 0x108, 0x20, 0, 20, 0x0, 0⟩
def DLV_HEAD_HEAD : Field := ⟨0x30, 0x10c, 0x20, 0, 32, 0x0, 0⟩
def DLV_TAIL_TAIL : Field := ⟨0x30, 0x110, 0x20, 0, 32, 0x0, 0⟩
def SHP_PORT_SEL_PORT : Field := ⟨0x34, 0x40, 0x0, 0, 10, 0x0, 0⟩
def SHP_PCFG_OVERHEAD : Field := ⟨0x34, 0x44, 0x0, 0, 8, 0x18, 0⟩
def SHP_PCFG_GLIST : Field := ⟨0x34, 0x44, 0x0, 8, 2, 0x0, 0⟩
def SHP_RATE_MBPS : Field := ⟨0x34, 0x48, 0x0, 0, 20, 0x0, 0⟩
def SHP_BURST_BYTES : Field := ⟨0x34, 0x4c, 0x0, 0, 24, 0x10000, 0⟩
def SHP_QUANTUM_QA : Field := ⟨0x34, 0x50, 0x4, 0, 16, 0x2400, 0⟩
def SHP_QUANTUM_QB : Field := ⟨0x34, 0x50, 0x4, 16, 16, 0x2400, 0⟩
def SHP_OVERRUN_COUNT : Field := ⟨0x34, 0x5c, 0x0, 0, 32, 0x0, 0⟩
def SHP_GL_CFG_MODE : Field := ⟨0x34, 0x80, 0x20, 0, 2, 0x0, 0⟩
def SHP_GL_CFG_TRACKER : Field := ⟨0x34, 0x80, 0x20, 8, 7, 0x0, 0⟩
def SHP_GL_CFG_FALLBACK : Field := ⟨0x34, 0x80, 0x20, 16, 8, 0xff, 0⟩
def SHP_GL_CFG_LEN : Field := ⟨0x34, 0x80, 0x20, 24, 8, 0x0, 0⟩
def SHP_GL_BASE_LO_NT : Field := ⟨0x34, 0x84, 0x20, 0, 32, 0x0, 0⟩
def SHP_GL_BASE_HI_NT : Field := ⟨0x34, 0x88, 0x20, 0, 32, 0x0, 0⟩
def SHP_GL_CYCLE_NS : Field := ⟨0x34, 0x8c, 0x20, 0, 32, 0xf4240, 0⟩
def SHP_GL_STAT_ENTRY : Field := ⟨0x34, 0x90, 0x20, 0, 8, 0x0, 0⟩
def SHP_GL_STAT_GATES : Field := ⟨0x34, 0x90, 0x20, 8, 8, 0xff, 0⟩
def SHP_GL_STAT_SWAP_PENDING : Field := ⟨0x34, 0x90, 0x20, 16, 1, 0x0, 0⟩
def SHP_GL_STAT_FALLBACK_ON : Field := ⟨0x34, 0x90, 0x20, 17, 1, 0x1, 0⟩
def SHP_GL_STAT_IGNORED : Field := ⟨0x34, 0x90, 0x20, 18, 14, 0x0, 0⟩
def SHP_CMD_GSWAP : Field := ⟨0x34, 0xc0, 0x0, 0, 1, 0x0, 0⟩
def SHP_CMD_LIST : Field := ⟨0x34, 0xc0, 0x0, 1, 1, 0x0, 0⟩
def SHP_GE_GATES : Field := ⟨0x34, 0x400, 0x4, 0, 8, 0xff, 0⟩
def SHP_GE_DUR : Field := ⟨0x34, 0x400, 0x4, 8, 24, 0x0, 0⟩
def POL_SEL_PORT : Field := ⟨0x35, 0x40, 0x0, 0, 4, 0x0, 0⟩
def POL_SEL_CLASS : Field := ⟨0x35, 0x40, 0x0, 4, 3, 0x3, 0⟩
def POL_CTL_EN : Field := ⟨0x35, 0x44, 0x0, 0, 1, 0x0, 0⟩
def POL_CTL_AWARE : Field := ⟨0x35, 0x44, 0x0, 1, 1, 0x0, 0⟩
def POL_CIR_MBPS : Field := ⟨0x35, 0x48, 0x0, 0, 20, 0x61a80, 0⟩
def POL_PIR_MBPS : Field := ⟨0x35, 0x4c, 0x0, 0, 20, 0x61a80, 0⟩
def POL_CBS_BYTES : Field := ⟨0x35, 0x50, 0x0, 0, 24, 0x40000, 0⟩
def POL_PBS_BYTES : Field := ⟨0x35, 0x54, 0x0, 0, 24, 0x40000, 0⟩
def POL_GREEN_COUNT : Field := ⟨0x35, 0x58, 0x0, 0, 32, 0x0, 0⟩
def POL_YELLOW_COUNT : Field := ⟨0x35, 0x5c, 0x0, 0, 32, 0x0, 0⟩
def POL_RED_COUNT : Field := ⟨0x35, 0x60, 0x0, 0, 32, 0x0, 0⟩
def TRC_CFG_PORT_MODE : Field := ⟨0x38, 0x40, 0x0, 0, 2, 0x0, 0⟩
def TRC_CFG_BUF_MODE : Field := ⟨0x38, 0x40, 0x0, 2, 2, 0x0, 0⟩
def TRC_CFG_PRE : Field := ⟨0x38, 0x40, 0x0, 4, 4, 0x8, 0⟩
def TRC_CFG_LOW_LEVEE : Field := ⟨0x38, 0x40, 0x0, 8, 8, 0xc0, 0⟩
def TRC_CFG_LP_SET : Field := ⟨0x38, 0x40, 0x0, 16, 4, 0x0, 0⟩
def TRC_BUF_KIB : Field := ⟨0x38, 0x44, 0x0, 0, 16, 0x0, 0⟩
def TRC_STAT_FROZEN : Field := ⟨0x38, 0x48, 0x0, 0, 1, 0x0, 0⟩
def TRC_STAT_FILLING : Field := ⟨0x38, 0x48, 0x0, 1, 1, 0x0, 0⟩
def TRC_STAT_FUNNEL : Field := ⟨0x38, 0x48, 0x0, 2, 1, 0x1, 0⟩
def TRC_STAT_LP : Field := ⟨0x38, 0x48, 0x0, 3, 1, 0x0, 0⟩
def TRC_CMD_REARM : Field := ⟨0x38, 0x4c, 0x0, 0, 1, 0x0, 0⟩
def TRC_CMD_TRIGGER : Field := ⟨0x38, 0x4c, 0x0, 1, 1, 0x0, 0⟩
def TRC_CMD_LINE : Field := ⟨0x38, 0x4c, 0x0, 2, 2, 0x0, 0⟩
def TRC_BUF_WR_OFF : Field := ⟨0x38, 0x50, 0x0, 0, 24, 0x0, 0⟩
def TRC_BUF_START_OFF : Field := ⟨0x38, 0x54, 0x0, 0, 24, 0x0, 0⟩
def TRC_TRIG_POS_OFF : Field := ⟨0x38, 0x58, 0x0, 0, 24, 0x0, 0⟩
def TRC_TRIG_EXTRA_COUNT : Field := ⟨0x38, 0x5c, 0x0, 0, 32, 0x0, 0⟩
def TRC_RD_OFF_OFF : Field := ⟨0x38, 0x60, 0x0, 0, 24, 0x0, 0⟩
def TRC_RD_DATA_DATA : Field := ⟨0x38, 0x64, 0x0, 0, 32, 0x0, 0⟩
def TRC_SYNCS_COUNT : Field := ⟨0x38, 0x68, 0x0, 0, 32, 0x0, 0⟩
def TRC_ID_EN : Field := ⟨0x38, 0x80, 0x4, 0, 1, 0x0, 0⟩
def TRC_ID_PORT : Field := ⟨0x38, 0x80, 0x4, 1, 1, 0x0, 0⟩
def TRC_ID_REC : Field := ⟨0x38, 0x80, 0x4, 2, 1, 0x0, 0⟩
def TRC_ID_BUF : Field := ⟨0x38, 0x80, 0x4, 3, 1, 0x0, 0⟩
def TRC_ID_PRIO : Field := ⟨0x38, 0x80, 0x4, 4, 1, 0x1, 0⟩
def TRC_ID_CTX : Field := ⟨0x38, 0x80, 0x4, 8, 6, 0x0, 0⟩
def TRC_DROP_COUNT : Field := ⟨0x38, 0x280, 0x4, 0, 32, 0x0, 0⟩
def WP_CTL_EN : Field := ⟨0x38, 0x500, 0x10, 0, 1, 0x0, 0⟩
def WP_CTL_CMP : Field := ⟨0x38, 0x500, 0x10, 1, 2, 0x0, 0⟩
def WP_CTL_TRIG : Field := ⟨0x38, 0x500, 0x10, 3, 1, 0x0, 0⟩
def WP_CTL_LINE : Field := ⟨0x38, 0x500, 0x10, 4, 2, 0x0, 0⟩
def WP_CTL_SLOT : Field := ⟨0x38, 0x500, 0x10, 16, 15, 0x0, 0⟩
def WP_THR_LO_THR : Field := ⟨0x38, 0x504, 0x10, 0, 32, 0x0, 0⟩
def WP_THR_HI_THR : Field := ⟨0x38, 0x508, 0x10, 0, 32, 0x0, 0⟩
def WP_HITS_COUNT : Field := ⟨0x38, 0x50c, 0x10, 0, 32, 0x0, 0⟩
def TL_CTL_WP : Field := ⟨0x38, 0x600, 0x10, 0, 1, 0x0, 0⟩
def TL_CTL_IN : Field := ⟨0x38, 0x600, 0x10, 1, 1, 0x0, 0⟩
def TL_CTL_REMOTE : Field := ⟨0x38, 0x600, 0x10, 2, 1, 0x0, 0⟩
def TL_CTL_SOFT : Field := ⟨0x38, 0x600, 0x10, 3, 1, 0x1, 0⟩
def TL_CTL_OUT : Field := ⟨0x38, 0x600, 0x10, 8, 1, 0x0, 0⟩
def TL_CTL_FREEZE : Field := ⟨0x38, 0x600, 0x10, 9, 1, 0x0, 0⟩
def TL_CTL_TRAY : Field := ⟨0x38, 0x600, 0x10, 10, 1, 0x0, 0⟩
def TL_CTL_FABRIC : Field := ⟨0x38, 0x600, 0x10, 11, 1, 0x0, 0⟩
def TL_CTL_WIDTH : Field := ⟨0x38, 0x600, 0x10, 16, 11, 0x20, 0⟩
def TL_COUNT_COUNT : Field := ⟨0x38, 0x604, 0x10, 0, 32, 0x0, 0⟩
def TRC_SWMARK_VALUE : Field := ⟨0x38, 0x700, 0x8, 0, 64, 0x0, 0⟩
def DBG_CFG_STOP_LINES : Field := ⟨0x3a, 0x40, 0x0, 0, 4, 0x0, 0⟩
def DBG_CFG_SCAN_HOST : Field := ⟨0x3a, 0x40, 0x0, 4, 1, 0x1, 0⟩
def DBG_CFG_FREEZE : Field := ⟨0x3a, 0x40, 0x0, 5, 1, 0x1, 0⟩
def DBG_CFG_TRACE : Field := ⟨0x3a, 0x40, 0x0, 6, 1, 0x1, 0⟩
def DBG_CMD_STOP : Field := ⟨0x3a, 0x44, 0x0, 0, 1, 0x0, 0⟩
def DBG_STAT_STATE : Field := ⟨0x3a, 0x48, 0x0, 0, 3, 0x0, 0⟩
def DBG_STAT_HOST_ABSENT : Field := ⟨0x3a, 0x48, 0x0, 3, 1, 0x0, 0⟩
def DBG_STAT_TRUNCATED : Field := ⟨0x3a, 0x48, 0x0, 4, 1, 0x0, 0⟩
def DBG_DUMP_LO_ADDR : Field := ⟨0x3a, 0x4c, 0x0, 0, 32, 0x0, 0⟩
def DBG_DUMP_HI_ADDR : Field := ⟨0x3a, 0x50, 0x0, 0, 32, 0x0, 0⟩
def DBG_DUMP_KIB_KIB : Field := ⟨0x3a, 0x54, 0x0, 0, 20, 0x1000, 0⟩
def DBG_DUMP_LEN_BYTES : Field := ⟨0x3a, 0x58, 0x0, 0, 32, 0x0, 0⟩
def DBG_STOP_EXTRA_COUNT : Field := ⟨0x3a, 0x5c, 0x0, 0, 32, 0x0, 0⟩
def DBG_WDOG_MS_MS : Field := ⟨0x3a, 0x60, 0x0, 0, 16, 0x0, 0⟩
def DBG_HANG_LO_ADDR : Field := ⟨0x3a, 0x100, 0x10, 0, 32, 0x0, 0⟩
def DBG_HANG_HI_ADDR : Field := ⟨0x3a, 0x104, 0x10, 0, 32, 0x0, 0⟩
def DBG_HANG_STAT_DONE : Field := ⟨0x3a, 0x108, 0x10, 0, 1, 0x0, 0⟩
def DBG_HANG_STAT_QUEUE : Field := ⟨0x3a, 0x108, 0x10, 16, 16, 0x0, 0⟩
def HLT_WS_CFG_INTERVAL_S : Field := ⟨0x40, 0x40, 0x0, 0, 17, 0xe10, 0⟩
def HLT_WS_CFG_TEMP_CH : Field := ⟨0x40, 0x40, 0x0, 17, 12, 0x0, 0⟩
def HLT_T_REF_TEMP : Field := ⟨0x40, 0x44, 0x0, 0, 16, 0x352, 0⟩
def HLT_AGE_H_HOURS : Field := ⟨0x40, 0x48, 0x0, 0, 32, 0x0, 0⟩
def HLT_SENS_RANGE_COUNT : Field := ⟨0x40, 0x4c, 0x0, 0, 32, 0x0, 0⟩
def HLT_WS_SEL_WS : Field := ⟨0x40, 0x50, 0x0, 0, 6, 0x0, 0⟩
def HLT_WS_BASE_F0 : Field := ⟨0x40, 0x54, 0x0, 0, 32, 0x0, 0⟩
def HLT_WS_CLASS_CLASS : Field := ⟨0x40, 0x58, 0x0, 0, 2, 0x0, 0⟩
def HLT_WS_N_N : Field := ⟨0x40, 0x5c, 0x0, 0, 32, 0x0, 0⟩
def HLT_WS_S1_S1 : Field := ⟨0x40, 0x60, 0x4, 0, 32, 0x0, 0⟩
def HLT_WS_S2_S2 : Field := ⟨0x40, 0x68, 0x4, 0, 32, 0x0, 0⟩
def HLT_WS_LAST_F_F : Field := ⟨0x40, 0x70, 0x0, 0, 32, 0x0, 0⟩
def HLT_WM_NEXP_NEXP : Field := ⟨0x40, 0x80, 0x10, 0, 32, 0x0, 0⟩
def HLT_WM_TC_TC : Field := ⟨0x40, 0x84, 0x10, 0, 32, 0x0, 0⟩
def HLT_WM_LIM_LIM : Field := ⟨0x40, 0x88, 0x10, 0, 32, 0x0, 0⟩
def HLT_WM_Z_Z : Field := ⟨0x40, 0x8c, 0x10, 0, 32, 0x0, 0⟩
def HLT_EOL_H_HOURS : Field := ⟨0x40, 0xc0, 0x0, 0, 32, 0xffffffff, 0⟩
def HLT_EARLY_H_HOURS : Field := ⟨0x40, 0xc4, 0x0, 0, 32, 0xffffffff, 0⟩
def HLT_LATE_H_HOURS : Field := ⟨0x40, 0xc8, 0x0, 0, 32, 0xffffffff, 0⟩
def HLT_SENS_EN_EN : Field := ⟨0x40, 0x200, 0x4, 0, 32, 0x0, 0⟩
def OPT_CFG_EVAL_MS : Field := ⟨0x42, 0x40, 0x0, 0, 16, 0x3e8, 0⟩
def OPT_CFG_SW_LIST : Field := ⟨0x42, 0x40, 0x0, 16, 2, 0x0, 0⟩
def OPT_CFG_SW_GATE : Field := ⟨0x42, 0x40, 0x0, 18, 3, 0x7, 0⟩
def OPT_CFG_CONV : Field := ⟨0x42, 0x40, 0x0, 24, 5, 0x0, 0⟩
def OPT_FADE_FADE_INT_S : Field := ⟨0x42, 0x44, 0x0, 0, 16, 0xe10, 0⟩
def OPT_FADE_PREARM_H : Field := ⟨0x42, 0x44, 0x0, 16, 8, 0x48, 0⟩
def OPT_FADE_Z : Field := ⟨0x42, 0x44, 0x0, 24, 8, 0x20, 0⟩
def OPT_LOC_EXCESS : Field := ⟨0x42, 0x48, 0x0, 0, 16, 0x64, 0⟩
def OPT_LOC_DEBOUNCE : Field := ⟨0x42, 0x48, 0x0, 16, 4, 0x3, 0⟩
def OPT_SW_LANE_LANE : Field := ⟨0x42, 0x4c, 0x0, 0, 9, 0x0, 0⟩
def OPT_SW_LANE_KIND : Field := ⟨0x42, 0x4c, 0x0, 9, 1, 0x0, 0⟩
def OPT_SW_LANE_COUNT : Field := ⟨0x42, 0x4c, 0x0, 16, 16, 0x0, 0⟩
def OPT_LSEL_LANE : Field := ⟨0x42, 0x80, 0x0, 0, 9, 0x0, 0⟩
def LN_CFG_MODE : Field := ⟨0x42, 0x84, 0x0, 0, 2, 0x0, 0⟩
def LN_CFG_MUXGRP : Field := ⟨0x42, 0x84, 0x0, 8, 8, 0x0, 0⟩
def LN_CFG_CPLGRP : Field := ⟨0x42, 0x84, 0x0, 16, 8, 0x0, 0⟩
def LN_CH0_CH_LAS : Field := ⟨0x42, 0x88, 0x0, 0, 12, 0xfff, 0⟩
def LN_CH0_CH_MOD : Field := ⟨0x42, 0x88, 0x0, 16, 12, 0xfff, 0⟩
def LN_CH1_CH_MUX : Field := ⟨0x42, 0x8c, 0x0, 0, 12, 0xfff, 0⟩
def LN_CH1_CH_CPL : Field := ⟨0x42, 0x8c, 0x0, 16, 12, 0xfff, 0⟩
def LN_CH2_CH_RX : Field := ⟨0x42, 0x90, 0x0, 0, 12, 0xfff, 0⟩
def LN_NOM_NOM : Field := ⟨0x42, 0x94, 0x0, 0, 32, 0x0, 0⟩
def LN_PWR_P_LAS_NOM : Field := ⟨0x42, 0x98, 0x0, 0, 16, 0x0, 0⟩
def LN_PWR_P_MIN : Field := ⟨0x42, 0x98, 0x0, 16, 16, 0x0, 0⟩
def LN_KEY_KEY : Field := ⟨0x42, 0x9c, 0x0, 0, 32, 0x0, 0⟩
def LN_SPARE_GRP : Field := ⟨0x42, 0xa0, 0x0, 0, 4, 0x0, 0⟩
def LN_SPARE_CH : Field := ⟨0x42, 0xa0, 0x0, 4, 6, 0x0, 0⟩
def LN_SPARE_EN : Field := ⟨0x42, 0xa0, 0x0, 10, 1, 0x0, 0⟩
def LN_STAT_FSTATE : Field := ⟨0x42, 0xa4, 0x0, 0, 3, 0x0, 0⟩
def LN_STAT_LOC : Field := ⟨0x42, 0xa4, 0x0, 3, 3, 0x0, 0⟩
def LN_STAT_SCOPE : Field := ⟨0x42, 0xa4, 0x0, 6, 2, 0x0, 0⟩
def OPT_HSEL_GRP : Field := ⟨0x42, 0x100, 0x0, 0, 4, 0x0, 0⟩
def HG_CFG_EN : Field := ⟨0x42, 0x104, 0x0, 0, 1, 0x0, 0⟩
def HG_CFG_N : Field := ⟨0x42, 0x104, 0x0, 1, 7, 0x1, 0⟩
def HG_CFG_MEAS_BASE : Field := ⟨0x42, 0x104, 0x0, 8, 12, 0x0, 0⟩
def HG_GAIN_GAIN : Field := ⟨0x42, 0x108, 0x0, 0, 8, 0x10, 0⟩
def HG_GAIN_GSHIFT : Field := ⟨0x42, 0x108, 0x0, 8, 4, 0x4, 0⟩
def HG_GAIN_DMAX : Field := ⟨0x42, 0x108, 0x0, 16, 12, 0x100, 0⟩
def HG_GAIN_DITHER : Field := ⟨0x42, 0x108, 0x0, 28, 4, 0x4, 0⟩
def HG_HOLD_HOLD : Field := ⟨0x42, 0x10c, 0x4, 0, 32, 0xffffffff, 0⟩
def HG_IDX_IDX : Field := ⟨0x42, 0x114, 0x0, 0, 12, 0x0, 0⟩
def HG_SP_SP : Field := ⟨0x42, 0x118, 0x0, 0, 16, 0x0, 0⟩
def HG_MX_MINV : Field := ⟨0x42, 0x11c, 0x0, 0, 16, 0x0, 0⟩
def HG_CODE_CODE : Field := ⟨0x42, 0x120, 0x0, 0, 16, 0x0, 0⟩
def HG_CMD_SWAP : Field := ⟨0x42, 0x124, 0x0, 0, 1, 0x0, 0⟩
def HG_CMD_CAL : Field := ⟨0x42, 0x124, 0x0, 1, 1, 0x0, 0⟩
def HG_STAT_CAL : Field := ⟨0x42, 0x128, 0x0, 0, 2, 0x0, 0⟩
def HG_STAT_CAL_RUN : Field := ⟨0x42, 0x128, 0x0, 2, 1, 0x0, 0⟩
def HG_STAT_MISSED : Field := ⟨0x42, 0x128, 0x0, 16, 16, 0x0, 0⟩
def VRD_CFG_QUORUM : Field := ⟨0x44, 0x40, 0x0, 0, 4, 0x0, 0⟩
def VRD_CFG_WARDENS : Field := ⟨0x44, 0x40, 0x0, 4, 4, 0x0, 0⟩
def VRD_CFG_WARDEN : Field := ⟨0x44, 0x40, 0x0, 8, 1, 0x0, 0⟩
def VRD_CFG_BALLOT_MS : Field := ⟨0x44, 0x40, 0x0, 16, 16, 0x3e8, 0⟩
def VRD_JOB_SIZE_SIZE : Field := ⟨0x44, 0x44, 0x0, 0, 19, 0x0, 0⟩
def VRD_JOB_ID_JOB : Field := ⟨0x44, 0x48, 0x0, 0, 32, 0x0, 0⟩
def VRD_ARBITER_NODE : Field := ⟨0x44, 0x4c, 0x0, 0, 12, 0x0, 0⟩
def VRD_ARBITER_HERE : Field := ⟨0x44, 0x4c, 0x0, 12, 1, 0x0, 0⟩
def VRD_BUDGET_BUDGET : Field := ⟨0x44, 0x50, 0x0, 0, 14, 0x32, 0⟩
def VRD_SPARE_POOL : Field := ⟨0x44, 0x54, 0x0, 0, 16, 0x0, 0⟩
def VRD_SPARE_FLOOR : Field := ⟨0x44, 0x54, 0x0, 16, 16, 0x0, 0⟩
def VRD_SPARE_STAT_TAKEN : Field := ⟨0x44, 0x58, 0x0, 0, 16, 0x0, 0⟩
def VRD_SPARE_STAT_HOUR : Field := ⟨0x44, 0x58, 0x0, 16, 16, 0x0, 0⟩
def VRD_STRAG_LIMIT : Field := ⟨0x44, 0x5c, 0x0, 0, 19, 0x1000, 0⟩
def VRD_STRAG_DIV_DIV : Field := ⟨0x44, 0x60, 0x0, 0, 16, 0x64, 0⟩
def VRD_TIMES_HOLD_S : Field := ⟨0x44, 0x64, 0x0, 0, 16, 0x3c, 0⟩
def VRD_TTL_S : Field := ⟨0x44, 0x68, 0x0, 0, 32, 0x15180, 0⟩
def VRD_STAT_QUORUM_UNREACHABLE : Field := ⟨0x44, 0x6c, 0x0, 0, 1, 0x0, 0⟩
def VRD_STAT_LOG_FAULT : Field := ⟨0x44, 0x6c, 0x0, 1, 1, 0x0, 0⟩
def VRD_STAT_ORDERS : Field := ⟨0x44, 0x6c, 0x0, 8, 8, 0x0, 0⟩
def VRD_STAT_WITHHELD : Field := ⟨0x44, 0x6c, 0x0, 16, 16, 0x0, 0⟩
def VRD_VERDICTS_COUNT : Field := ⟨0x44, 0x70, 0x0, 0, 32, 0x0, 0⟩
def VRD_AUTH_FAIL_COUNT : Field := ⟨0x44, 0x74, 0x0, 0, 32, 0x0, 0⟩
def VRD_REPEATS_COUNT : Field := ⟨0x44, 0x78, 0x0, 0, 32, 0x0, 0⟩
def VRD_ENTRY_FULL_COUNT : Field := ⟨0x44, 0x7c, 0x0, 0, 16, 0x0, 0⟩
def VRD_ENTRY_FULL_NOT_ARBITER : Field := ⟨0x44, 0x7c, 0x0, 16, 16, 0x0, 0⟩
def VRD_LOG_BASE_LO_BASE : Field := ⟨0x44, 0x80, 0x0, 0, 32, 0x0, 0⟩
def VRD_LOG_BASE_HI_BASE : Field := ⟨0x44, 0x84, 0x0, 0, 32, 0x0, 0⟩
def VRD_LOG_SIZE_KIB : Field := ⟨0x44, 0x88, 0x0, 0, 20, 0x40, 0⟩
def VRD_LOG_TAIL_OFF : Field := ⟨0x44, 0x8c, 0x0, 0, 32, 0x0, 0⟩
def VRD_CMD_AUTHORISE : Field := ⟨0x44, 0x90, 0x0, 0, 1, 0x0, 0⟩
def VRD_CMD_HOLD : Field := ⟨0x44, 0x90, 0x0, 1, 1, 0x0, 0⟩
def VRD_CMD_UNHOLD : Field := ⟨0x44, 0x90, 0x0, 2, 1, 0x0, 0⟩
def VRD_CMD_LIFT : Field := ⟨0x44, 0x90, 0x0, 3, 1, 0x0, 0⟩
def VRD_CMD_VOTE_YES : Field := ⟨0x44, 0x90, 0x0, 4, 1, 0x0, 0⟩
def VRD_CMD_VOTE_NO : Field := ⟨0x44, 0x90, 0x0, 5, 1, 0x0, 0⟩
def VRD_CMD_LOG_RESTART : Field := ⟨0x44, 0x90, 0x0, 6, 1, 0x0, 0⟩
def VRD_CMD_ENTRY : Field := ⟨0x44, 0x90, 0x0, 16, 8, 0x0, 0⟩
def VRD_ESEL_ENTRY : Field := ⟨0x44, 0x94, 0x0, 0, 8, 0x0, 0⟩
def VRD_ESTAT_STATE : Field := ⟨0x44, 0x98, 0x0, 0, 3, 0x0, 0⟩
def VRD_ESTAT_AKIND : Field := ⟨0x44, 0x98, 0x0, 3, 2, 0x0, 0⟩
def VRD_ESTAT_REASON : Field := ⟨0x44, 0x98, 0x0, 8, 8, 0x0, 0⟩
def VRD_ESTAT_YES : Field := ⟨0x44, 0x98, 0x0, 16, 4, 0x0, 0⟩
def VRD_ESTAT_NO : Field := ⟨0x44, 0x98, 0x0, 20, 4, 0x0, 0⟩
def VRD_ESTAT_AUTH : Field := ⟨0x44, 0x98, 0x0, 24, 5, 0x0, 0⟩
def VRD_ESUBJ_SUBJECT : Field := ⟨0x44, 0x9c, 0x0, 0, 32, 0x0, 0⟩
def VRD_ORD_LO_ADDR : Field := ⟨0x44, 0xc0, 0x0, 0, 32, 0x0, 0⟩
def VRD_ORD_HI_ADDR : Field := ⟨0x44, 0xc4, 0x0, 0, 32, 0x0, 0⟩
def VRD_ORD_LEN_BYTES : Field := ⟨0x44, 0xc8, 0x0, 0, 12, 0x0, 0⟩
def VRD_ORD_CTX_CTX : Field := ⟨0x44, 0xcc, 0x0, 0, 6, 0x0, 0⟩
def VRD_ORD_CMD_LOAD : Field := ⟨0x44, 0xd0, 0x0, 0, 1, 0x0, 0⟩
def VRD_ORD_CMD_REVOKE : Field := ⟨0x44, 0xd0, 0x0, 1, 1, 0x0, 0⟩
def VRD_ORD_CMD_SLOT : Field := ⟨0x44, 0xd0, 0x0, 8, 5, 0x0, 0⟩
def VRD_ORD_VALID_MASK : Field := ⟨0x44, 0xd4, 0x0, 0, 32, 0x0, 0⟩
def VRD_WARDEN_NODE : Field := ⟨0x44, 0x100, 0x4, 0, 12, 0x0, 0⟩
def VRD_POL_EXPEL_CLASS : Field := ⟨0x44, 0x200, 0x4, 0, 4, 0x0, 0⟩
def CMP_CFG_ABORT_SAVE : Field := ⟨0x48, 0x40, 0x0, 0, 1, 0x1, 0⟩
def CMP_SAVE_LO_ADDR : Field := ⟨0x48, 0x44, 0x0, 0, 32, 0x0, 0⟩
def CMP_SAVE_HI_ADDR : Field := ⟨0x48, 0x48, 0x0, 0, 32, 0x0, 0⟩
def CMP_RECPACK_TRACE : Field := ⟨0x48, 0x4c, 0x0, 0, 1, 0x0, 0⟩
def CMP_RECPACK_MARKER : Field := ⟨0x48, 0x4c, 0x0, 1, 1, 0x0, 0⟩
def CMP_RECPACK_DEPTH : Field := ⟨0x48, 0x4c, 0x0, 8, 8, 0x7, 0⟩
def CMP_SLOTS_OPEN : Field := ⟨0x48, 0x50, 0x0, 0, 16, 0x0, 0⟩
def CMP_SLOTS_CHAN : Field := ⟨0x48, 0x50, 0x0, 16, 16, 0x0, 0⟩
def CMP_IN_KIB_KIB : Field := ⟨0x48, 0x54, 0x0, 0, 32, 0x0, 0⟩
def CMP_OUT_KIB_KIB : Field := ⟨0x48, 0x58, 0x0, 0, 32, 0x0, 0⟩
def CMP_NOGAIN_COUNT : Field := ⟨0x48, 0x5c, 0x0, 0, 32, 0x0, 0⟩
def CMP_RECPACK_NG_COUNT : Field := ⟨0x48, 0x60, 0x0, 0, 32, 0x0, 0⟩
def CMP_CMD_ARCHIVE : Field := ⟨0x48, 0x64, 0x0, 0, 1, 0x0, 0⟩
def CH_CFG_EN : Field := ⟨0x48, 0x100, 0x20, 0, 1, 0x0, 0⟩
def CH_CFG_AUTO : Field := ⟨0x48, 0x100, 0x20, 1, 1, 0x0, 0⟩
def CH_CFG_DEPTH : Field := ⟨0x48, 0x100, 0x20, 8, 8, 0xf, 0⟩
def CH_CFG_SLOT : Field := ⟨0x48, 0x100, 0x20, 16, 4, 0x0, 0⟩
def CH_BASE_LO_BASE : Field := ⟨0x48, 0x104, 0x20, 0, 32, 0x0, 0⟩
def CH_BASE_HI_BASE : Field := ⟨0x48, 0x108, 0x20, 0, 32, 0x0, 0⟩
def CH_SIZE_KIB : Field := ⟨0x48, 0x10c, 0x20, 0, 20, 0x80, 0⟩
def CH_HEAD_HEAD : Field := ⟨0x48, 0x110, 0x20, 0, 32, 0x0, 0⟩
def CH_TAIL_TAIL : Field := ⟨0x48, 0x114, 0x20, 0, 32, 0x0, 0⟩
def CH_LOST_COUNT : Field := ⟨0x48, 0x118, 0x20, 0, 32, 0x0, 0⟩
def CH_STORED_COUNT : Field := ⟨0x48, 0x11c, 0x20, 0, 32, 0x0, 0⟩
def PCK_PACKED_COUNT : Field := ⟨0x49, 0x40, 0x0, 0, 32, 0x0, 0⟩
def PCK_RAW_COUNT : Field := ⟨0x49, 0x44, 0x0, 0, 32, 0x0, 0⟩
def PCK_IN_KIB_KIB : Field := ⟨0x49, 0x48, 0x0, 0, 32, 0x0, 0⟩
def PCK_OUT_KIB_KIB : Field := ⟨0x49, 0x4c, 0x0, 0, 32, 0x0, 0⟩
def EVR_CFG_REPEAT_MS : Field := ⟨0x4c, 0x40, 0x0, 0, 16, 0x3e8, 0⟩
def EVR_CFG_PACK : Field := ⟨0x4c, 0x40, 0x0, 16, 1, 0x0, 0⟩
def EVR_NV_BASE_UNIT : Field := ⟨0x4c, 0x44, 0x0, 0, 32, 0x0, 0⟩
def EVR_NV_UNITS_UNITS : Field := ⟨0x4c, 0x48, 0x0, 0, 32, 0x800, 0⟩
def EVR_FLUSH_MS_MS : Field := ⟨0x4c, 0x4c, 0x0, 0, 16, 0x64, 0⟩
def EVR_STAT_MIRROR_RUN : Field := ⟨0x4c, 0x50, 0x0, 0, 1, 0x0, 0⟩
def EVR_STAT_NV_BLANK : Field := ⟨0x4c, 0x50, 0x0, 1, 1, 0x0, 0⟩
def EVR_STAT_NV_STOPPED : Field := ⟨0x4c, 0x50, 0x0, 2, 1, 0x0, 0⟩
def EVR_STAT_SB : Field := ⟨0x4c, 0x50, 0x0, 3, 1, 0x0, 0⟩
def EVR_OPTIME_S : Field := ⟨0x4c, 0x54, 0x0, 0, 32, 0x0, 0⟩
def EVR_PCYCLE_COUNT : Field := ⟨0x4c, 0x58, 0x0, 0, 32, 0x0, 0⟩
def EVR_ENTRIES_COUNT : Field := ⟨0x4c, 0x5c, 0x0, 0, 32, 0x0, 0⟩
def EVR_NEWEST_SEQ_SEQ : Field := ⟨0x4c, 0x60, 0x0, 0, 32, 0x0, 0⟩
def EVR_OLDEST_OFF : Field := ⟨0x4c, 0x64, 0x0, 0, 21, 0x0, 0⟩
def EVR_NEWEST_OFF : Field := ⟨0x4c, 0x68, 0x0, 0, 21, 0x0, 0⟩
def EVR_OVERWRITTEN_COUNT : Field := ⟨0x4c, 0x6c, 0x0, 0, 32, 0x0, 0⟩
def EVR_MIRROR_LOST_COUNT : Field := ⟨0x4c, 0x70, 0x0, 0, 32, 0x0, 0⟩
def EVR_UNMIRRORED_COUNT : Field := ⟨0x4c, 0x74, 0x0, 0, 32, 0x0, 0⟩
def EVR_RD_OFF_OFF : Field := ⟨0x4c, 0x78, 0x0, 0, 21, 0x0, 0⟩
def EVR_RD_DATA_DATA : Field := ⟨0x4c, 0x7c, 0x0, 0, 32, 0x0, 0⟩
def EVR_HOST_ADDR_LO_ADDR : Field := ⟨0x4c, 0x80, 0x0, 0, 32, 0x0, 0⟩
def EVR_HOST_ADDR_HI_ADDR : Field := ⟨0x4c, 0x84, 0x0, 0, 32, 0x0, 0⟩
def EVR_HOST_LEN_BYTES : Field := ⟨0x4c, 0x88, 0x0, 0, 10, 0x0, 0⟩
def EVR_HOST_LEN_CODE : Field := ⟨0x4c, 0x88, 0x0, 16, 16, 0x8000, 0⟩
def EVR_CMD_WRITE : Field := ⟨0x4c, 0x8c, 0x0, 0, 1, 0x0, 0⟩
def EVR_CMD_MIRROR_RESTART : Field := ⟨0x4c, 0x8c, 0x0, 1, 1, 0x0, 0⟩
def EVR_CMD_FORMAT : Field := ⟨0x4c, 0x8c, 0x0, 2, 1, 0x0, 0⟩
def MBX_OWNER_CTX : Field := ⟨0x4d, 0x40, 0x4, 0, 6, 0x0, 0⟩
def DB_IN_LO_BITS : Field := ⟨0x4d, 0x80, 0x0, 0, 32, 0x0, 0⟩
def DB_IN_HI_BITS : Field := ⟨0x4d, 0x84, 0x0, 0, 32, 0x0, 0⟩
def DB_OUT_LO_BITS : Field := ⟨0x4d, 0x88, 0x0, 0, 32, 0x0, 0⟩
def DB_OUT_HI_BITS : Field := ⟨0x4d, 0x8c, 0x0, 0, 32, 0x0, 0⟩
def MBX_DATA_DATA : Field := ⟨0x4d, 0x100, 0x8, 0, 64, 0x0, 0⟩
def MBX_CTL_PUSH : Field := ⟨0x4d, 0x140, 0x80, 0, 1, 0x0, 0⟩
def MBX_CTL_ABORT : Field := ⟨0x4d, 0x140, 0x80, 1, 1, 0x0, 0⟩
def MBX_CTL_LEN : Field := ⟨0x4d, 0x140, 0x80, 8, 7, 0x0, 0⟩
def MBX_STAT_FULL : Field := ⟨0x4d, 0x144, 0x80, 0, 1, 0x0, 0⟩
def MBX_STAT_TAKEN : Field := ⟨0x4d, 0x144, 0x80, 1, 1, 0x0, 0⟩
def MBX_STAT_LEN : Field := ⟨0x4d, 0x144, 0x80, 8, 7, 0x0, 0⟩
def MBX_POP_LEN : Field := ⟨0x4d, 0x148, 0x80, 0, 7, 0x0, 0⟩
def CTX_OPER_CTX : Field := ⟨0x1, 0x40, 0x0, 0, 6, 0x0, 0⟩
def CTX_CMD_KILL : Field := ⟨0x1, 0x44, 0x0, 0, 1, 0x0, 0⟩
def CTX_CMD_CTX : Field := ⟨0x1, 0x44, 0x0, 8, 6, 0x0, 0⟩
def CTX_SWITCHES_COUNT : Field := ⟨0x1, 0x48, 0x0, 0, 32, 0x0, 0⟩
def CTX_CFG_EN : Field := ⟨0x1, 0x100, 0x20, 0, 1, 0x0, 0⟩
def CTX_CFG_OPER : Field := ⟨0x1, 0x100, 0x20, 1, 1, 0x0, 0⟩
def CTX_CFG_WEIGHT : Field := ⟨0x1, 0x100, 0x20, 8, 8, 0x10, 0⟩
def CTX_OPB_BASE : Field := ⟨0x1, 0x104, 0x20, 0, 16, 0x0, 0⟩
def CTX_OPB_KIB : Field := ⟨0x1, 0x104, 0x20, 16, 16, 0x0, 0⟩
def CTX_DENSE_FIRST : Field := ⟨0x1, 0x108, 0x20, 0, 11, 0x0, 0⟩
def CTX_DENSE_COUNT : Field := ⟨0x1, 0x108, 0x20, 16, 11, 0x0, 0⟩
def CTX_STAT_CLEARING : Field := ⟨0x1, 0x10c, 0x20, 0, 1, 0x0, 0⟩
def CTX_STAT_KEY : Field := ⟨0x1, 0x10c, 0x20, 1, 1, 0x0, 0⟩
def CTX_STAT_QUEUES : Field := ⟨0x1, 0x10c, 0x20, 8, 8, 0x0, 0⟩
def CTX_BUSY_LO_CYCLES : Field := ⟨0x1, 0x110, 0x20, 0, 32, 0x0, 0⟩
def CTX_BUSY_HI_CYCLES : Field := ⟨0x1, 0x114, 0x20, 0, 32, 0x0, 0⟩
def SEC_CFG_REKEY_S : Field := ⟨0x50, 0x40, 0x0, 0, 16, 0xe10, 0⟩
def SEC_STAT_BLOB : Field := ⟨0x50, 0x44, 0x0, 0, 2, 0x0, 0⟩
def SEC_STAT_ANCHORS : Field := ⟨0x50, 0x44, 0x0, 8, 3, 0x0, 0⟩
def SEC_STAT_DENY : Field := ⟨0x50, 0x44, 0x0, 16, 7, 0x0, 0⟩
def SEC_BLOB_VER_VERSION : Field := ⟨0x50, 0x48, 0x0, 0, 32, 0x0, 0⟩
def SEC_CMD_REKEY : Field := ⟨0x50, 0x4c, 0x0, 0, 1, 0x0, 0⟩
def SEC_CMD_RELOAD : Field := ⟨0x50, 0x4c, 0x0, 1, 1, 0x0, 0⟩
def SEC_SEL_PORT : Field := ⟨0x50, 0x50, 0x0, 0, 10, 0x0, 0⟩
def SEC_PSTAT_STATE : Field := ⟨0x50, 0x54, 0x0, 0, 3, 0x0, 0⟩
def SEC_PSTAT_GEN : Field := ⟨0x50, 0x54, 0x0, 8, 8, 0x0, 0⟩
def SEC_PSTAT_AGE_S : Field := ⟨0x50, 0x54, 0x0, 16, 16, 0x0, 0⟩
def SEC_PEER_LO_ID : Field := ⟨0x50, 0x58, 0x0, 0, 32, 0x0, 0⟩
def SEC_PEER_HI_ID : Field := ⟨0x50, 0x5c, 0x0, 0, 32, 0x0, 0⟩
def SEC_FAILS_COUNT : Field := ⟨0x50, 0x60, 0x0, 0, 32, 0x0, 0⟩
def SEC_TAG_FAIL_COUNT : Field := ⟨0x50, 0x64, 0x0, 0, 32, 0x0, 0⟩
def SEC_CLEAR_DISC_COUNT : Field := ⟨0x50, 0x68, 0x0, 0, 32, 0x0, 0⟩
def SEC_SESSIONS_UP : Field := ⟨0x50, 0x6c, 0x0, 0, 16, 0x0, 0⟩
def SEC_SESSIONS_RESEEDS : Field := ⟨0x50, 0x6c, 0x0, 16, 16, 0x0, 0⟩
def SAF_CFG_SCRUB_DIS : Field := ⟨0x54, 0x40, 0x0, 0, 1, 0x0, 0⟩
def SAF_CFG_GAR_KAT_DIS : Field := ⟨0x54, 0x40, 0x0, 1, 1, 0x0, 0⟩
def SAF_CFG_AGT_KAT_DIS : Field := ⟨0x54, 0x40, 0x0, 2, 1, 0x0, 0⟩
def SAF_CFG_LEDGER_DIS : Field := ⟨0x54, 0x40, 0x0, 3, 1, 0x0, 0⟩
def SAF_CFG_DF_HAZARD : Field := ⟨0x54, 0x40, 0x0, 4, 1, 0x0, 0⟩
def SAF_STAT_DF_LATCHED : Field := ⟨0x54, 0x44, 0x0, 0, 1, 0x0, 0⟩
def SAF_STAT_CTRL_HELD : Field := ⟨0x54, 0x44, 0x0, 1, 1, 0x0, 0⟩
def SAF_STAT_HAZARD : Field := ⟨0x54, 0x44, 0x0, 2, 1, 0x0, 0⟩
def SAF_STAT_SUSPENDED : Field := ⟨0x54, 0x44, 0x0, 3, 1, 0x0, 0⟩
def SAF_STAT_INJ_BUSY : Field := ⟨0x54, 0x44, 0x0, 4, 1, 0x0, 0⟩
def SAF_CMD_CLEAR : Field := ⟨0x54, 0x48, 0x0, 0, 1, 0x0, 0⟩
def SAF_CMD_INJECT : Field := ⟨0x54, 0x48, 0x0, 1, 1, 0x0, 0⟩
def SAF_CMD_INJ_DIAG : Field := ⟨0x54, 0x48, 0x0, 8, 5, 0x0, 0⟩
def SAF_CMD_INJ_INDEX : Field := ⟨0x54, 0x48, 0x0, 16, 16, 0x0, 0⟩
def SAF_ROUND_US : Field := ⟨0x54, 0x4c, 0x0, 0, 16, 0x0, 0⟩
def SAF_LAYER_SUSPECT_COUNT : Field := ⟨0x54, 0x50, 0x0, 0, 32, 0x0, 0⟩
def SAF_HZ_SRC_SRC : Field := ⟨0x54, 0x54, 0x0, 0, 2, 0x0, 0⟩
def SAF_HZ_SRC_INDEX : Field := ⟨0x54, 0x54, 0x0, 16, 16, 0x0, 0⟩
def SAF_HZ_COUNT_COUNT : Field := ⟨0x54, 0x58, 0x0, 0, 32, 0x0, 0⟩
def SAF_CFG_CRC_CRC : Field := ⟨0x54, 0x5c, 0x0, 0, 32, 0x0, 0⟩
def SAF_DF_COUNT : Field := ⟨0x54, 0x60, 0x4, 0, 32, 0x0, 0⟩
def SAF_HZ_LIM_LO : Field := ⟨0x54, 0x100, 0x4, 0, 16, 0x0, 0⟩
def SAF_HZ_LIM_HI : Field := ⟨0x54, 0x100, 0x4, 16, 16, 0x0, 0⟩
def SAF_DSEL_DIAG : Field := ⟨0x54, 0x200, 0x0, 0, 5, 0x1, 0⟩
def SAF_DRUNS_COUNT : Field := ⟨0x54, 0x204, 0x0, 0, 32, 0x0, 0⟩
def SAF_DFAILS_COUNT : Field := ⟨0x54, 0x208, 0x0, 0, 32, 0x0, 0⟩
def SAF_DLAST_LO_NT : Field := ⟨0x54, 0x20c, 0x0, 0, 32, 0x0, 0⟩
def SAF_DLAST_HI_NT : Field := ⟨0x54, 0x210, 0x0, 0, 32, 0x0, 0⟩
def SAF_DCORR_COUNT : Field := ⟨0x54, 0x214, 0x0, 0, 32, 0x0, 0⟩
def PWR_DOM_CORE_AUTO : Field := ⟨0x58, 0x40, 0x0, 0, 1, 0x1, 0⟩
def PWR_DOM_GAR_AUTO : Field := ⟨0x58, 0x40, 0x0, 1, 1, 0x1, 0⟩
def PWR_DOM_GAR_ON : Field := ⟨0x58, 0x40, 0x0, 2, 1, 0x1, 0⟩
def PWR_DOM_CORE_ON : Field := ⟨0x58, 0x40, 0x0, 3, 1, 0x1, 0⟩
def PWR_DOM_CORE_ST : Field := ⟨0x58, 0x40, 0x0, 4, 2, 0x0, 0⟩
def PWR_DOM_GAR_ST : Field := ⟨0x58, 0x40, 0x0, 6, 2, 0x0, 0⟩
def PWR_DOM_GROUPS : Field := ⟨0x58, 0x40, 0x0, 8, 4, 0x0, 0⟩
def PWR_START_AON : Field := ⟨0x58, 0x44, 0x0, 0, 1, 0x0, 0⟩
def PWR_START_CORE : Field := ⟨0x58, 0x44, 0x0, 1, 1, 0x0, 0⟩
def PWR_START_BOOT : Field := ⟨0x58, 0x44, 0x0, 2, 1, 0x0, 0⟩
def PWR_START_LOG : Field := ⟨0x58, 0x44, 0x0, 3, 1, 0x0, 0⟩
def PWR_START_BLOB : Field := ⟨0x58, 0x44, 0x0, 4, 1, 0x0, 0⟩
def PWR_START_SELFTEST : Field := ⟨0x58, 0x44, 0x0, 5, 1, 0x0, 0⟩
def PWR_START_TIME : Field := ⟨0x58, 0x44, 0x0, 6, 1, 0x0, 0⟩
def PWR_START_FABRIC : Field := ⟨0x58, 0x44, 0x0, 7, 1, 0x0, 0⟩
def PWR_START_DONE : Field := ⟨0x58, 0x44, 0x0, 8, 1, 0x0, 0⟩
def PWR_START_MS_MS : Field := ⟨0x58, 0x48, 0x0, 0, 32, 0x0, 0⟩
def PWR_WAKE_CFG_INTERVAL_US : Field := ⟨0x58, 0x50, 0x0, 0, 10, 0x64, 0⟩
def PWR_WAKE_CFG_PGOOD_MS : Field := ⟨0x58, 0x50, 0x0, 16, 10, 0x32, 0⟩
def PWR_QUEUE_DEPTH : Field := ⟨0x58, 0x54, 0x0, 0, 8, 0x0, 0⟩
def PWR_QUEUE_ALERT : Field := ⟨0x58, 0x54, 0x0, 8, 8, 0x0, 0⟩
def PWR_DEFERRED_COUNT : Field := ⟨0x58, 0x58, 0x0, 0, 32, 0x0, 0⟩
def PWR_ALERT_BLOCK_COUNT : Field := ⟨0x58, 0x5c, 0x0, 0, 32, 0x0, 0⟩
def PWR_BUDGET_A : Field := ⟨0x58, 0x80, 0x4, 0, 8, 0x28, 0⟩
def PWR_WAKE_REQ_REQ : Field := ⟨0x58, 0x100, 0x4, 0, 32, 0x0, 0⟩
def PWR_WAKE_OFF_OFF : Field := ⟨0x58, 0x110, 0x4, 0, 32, 0x0, 0⟩
def PWR_WAKE_STAT_WAKE : Field := ⟨0x58, 0x120, 0x4, 0, 32, 0x0, 0⟩
def PWR_QUEUED_QUEUED : Field := ⟨0x58, 0x130, 0x4, 0, 32, 0x0, 0⟩
def PWR_PGOOD_PGOOD : Field := ⟨0x58, 0x140, 0x4, 0, 32, 0x0, 0⟩
def PWR_PGOOD_FAIL_FAIL : Field := ⟨0x58, 0x150, 0x4, 0, 32, 0x0, 0⟩
def PWR_DIE_STEP_A : Field := ⟨0x58, 0x200, 0x4, 0, 8, 0x0, 0⟩
def PWR_DIE_SEG : Field := ⟨0x58, 0x200, 0x4, 8, 3, 0x0, 0⟩
def UPD_IMG_SIZE_KIB : Field := ⟨0x5c, 0x40, 0x0, 0, 16, 0x0, 0⟩
def UPD_SEG_LO_ADDR : Field := ⟨0x5c, 0x44, 0x0, 0, 32, 0x0, 0⟩
def UPD_SEG_HI_ADDR : Field := ⟨0x5c, 0x48, 0x0, 0, 32, 0x0, 0⟩
def UPD_SEG_LEN_BYTES : Field := ⟨0x5c, 0x4c, 0x0, 0, 17, 0x0, 0⟩
def UPD_SEG_OFF_OFF : Field := ⟨0x5c, 0x50, 0x0, 0, 22, 0x0, 0⟩
def UPD_CMD_LOAD : Field := ⟨0x5c, 0x54, 0x0, 0, 1, 0x0, 0⟩
def UPD_CMD_VERIFY : Field := ⟨0x5c, 0x54, 0x0, 1, 1, 0x0, 0⟩
def UPD_CMD_HANDOVER : Field := ⟨0x5c, 0x54, 0x0, 2, 1, 0x0, 0⟩
def UPD_CMD_COMMIT : Field := ⟨0x5c, 0x54, 0x0, 3, 1, 0x0, 0⟩
def UPD_CMD_DISCARD : Field := ⟨0x5c, 0x54, 0x0, 4, 1, 0x0, 0⟩
def UPD_STAT_STATE : Field := ⟨0x5c, 0x58, 0x0, 0, 3, 0x0, 0⟩
def UPD_STAT_FROM_ROM : Field := ⟨0x5c, 0x58, 0x0, 3, 1, 0x1, 0⟩
def UPD_RUN_VER_VERSION : Field := ⟨0x5c, 0x5c, 0x0, 0, 32, 0x0, 0⟩
def UPD_STAGE_VER_VERSION : Field := ⟨0x5c, 0x60, 0x0, 0, 32, 0x0, 0⟩
def UPD_PAUSE_US_US : Field := ⟨0x5c, 0x64, 0x0, 0, 16, 0x0, 0⟩
def UPD_ROLLBACKS_COUNT : Field := ⟨0x5c, 0x68, 0x0, 0, 32, 0x0, 0⟩
def QUE_DB_SUM_PEND : Field := ⟨0x2, 0x40, 0x0, 0, 32, 0x0, 0⟩
def QUE_IRQ_PEND_PEND : Field := ⟨0x2, 0x44, 0x0, 0, 32, 0x0, 0⟩

end R

def regRowsBLK : List Row := [
  ⟨R.BLK_PRESENT_PRESENT, .ro, .free, .none, 8, 0, 4294967295, 1, 7⟩,
  ⟨R.BLK_CLAIM_QUERY_RES, .wo, .free, .none, 1, 0, 65535, 1, 7⟩,
  ⟨R.BLK_CLAIM_RESULT_HOLDER, .ro, .free, .none, 1, 0, 255, 1, 7⟩,
  ⟨R.BLK_CLAIM_RESULT_HCTX, .ro, .free, .none, 1, 0, 255, 1, 7⟩,
  ⟨R.BLK_CLAIM_RESULT_RES, .ro, .free, .none, 1, 0, 65535, 1, 7⟩,
  ⟨R.BLK_PORTS_CULVERT, .ro, .free, .none, 1, 0, 65535, 1, 7⟩,
  ⟨R.BLK_PORTS_FABRIC, .ro, .free, .none, 1, 0, 255, 1, 7⟩,
  ⟨R.BLK_PORTS_TAPS, .ro, .free, .none, 1, 0, 255, 1, 7⟩,
  ⟨R.BLK_CCLK_MHZ, .rw, .free, .none, 1, 0, 65535, 1, 7⟩,
  ⟨R.BLK_SILICON_REV, .ro, .free, .none, 1, 0, 4294967295, 1, 7⟩]

def regRowsQUE : List Row := [
  ⟨R.Q_BASE_LO_BASE, .rw, .queueOff, .none, 32, 0, 4294967295, 64, 7⟩,
  ⟨R.Q_BASE_HI_BASE, .rw, .queueOff, .none, 32, 0, 4294967295, 1, 7⟩,
  ⟨R.Q_CFG_SQ_LOG, .rw, .queueOff, .none, 32, 4, 12, 1, 7⟩,
  ⟨R.Q_CFG_CQ_LOG, .rw, .queueOff, .none, 32, 4, 12, 1, 7⟩,
  ⟨R.Q_CFG_ENGINE, .rw, .queueOff, .none, 32, 0, 7, 1, 7⟩,
  ⟨R.Q_CFG_CTX, .rw, .queueOff, .none, 32, 0, 63, 1, 7⟩,
  ⟨R.Q_CTL_ENABLE, .rw, .free, .none, 32, 0, 1, 1, 7⟩,
  ⟨R.Q_CTL_ABORT, .wo, .free, .none, 32, 0, 1, 1, 7⟩,
  ⟨R.Q_STATE_STATE, .ro, .free, .none, 32, 0, 15, 1, 7⟩,
  ⟨R.Q_STATE_WAIT, .ro, .free, .none, 32, 0, 1, 1, 7⟩,
  ⟨R.Q_STATE_ERR, .ro, .free, .none, 32, 0, 65535, 1, 7⟩,
  ⟨R.Q_HEAD_HEAD, .ro, .free, .none, 32, 0, 65535, 1, 7⟩,
  ⟨R.Q_DOORBELL_TAIL, .wo, .free, .none, 32, 0, 65535, 1, 7⟩,
  ⟨R.Q_TAIL_TAIL, .ro, .free, .none, 32, 0, 65535, 1, 7⟩,
  ⟨R.CQ_BASE_LO_BASE, .rw, .queueOff, .none, 32, 0, 4294967295, 64, 7⟩,
  ⟨R.CQ_BASE_HI_BASE, .rw, .queueOff, .none, 32, 0, 4294967295, 1, 7⟩,
  ⟨R.CQ_HEAD_HEAD, .rw, .free, .none, 32, 0, 65535, 1, 7⟩,
  ⟨R.CQ_TAIL_TAIL, .ro, .free, .none, 32, 0, 65535, 1, 7⟩,
  ⟨R.Q_COAL_COUNT, .rw, .free, .none, 32, 1, 65535, 1, 7⟩,
  ⟨R.Q_COAL_TIME, .rw, .free, .none, 32, 0, 65535, 1, 7⟩,
  ⟨R.Q_ERRCNT_COUNT, .rc, .free, .none, 32, 0, 4294967295, 1, 7⟩,
  ⟨R.QUE_DB_SUM_PEND, .rc, .free, .none, 1, 0, 4294967295, 1, 7⟩,
  ⟨R.QUE_IRQ_PEND_PEND, .w1c, .free, .none, 1, 0, 4294967295, 1, 7⟩]

def regRowsTIM : List Row := [
  ⟨R.TIM_CFG_SOURCE, .rw, .pageOff, .none, 1, 1, 3, 1, 7⟩,
  ⟨R.TIM_CFG_FF_EN, .rw, .pageOff, .none, 1, 0, 1, 1, 7⟩,
  ⟨R.TIM_CFG_TEMP_CH, .rw, .pageOff, .none, 1, 0, 4095, 1, 7⟩,
  ⟨R.TIM_TRANSIENT_ENTER_SLOPE, .rw, .pageOff, .none, 1, 0, 255, 1, 7⟩,
  ⟨R.TIM_TRANSIENT_EXIT_SLOPE, .rw, .pageOff, .none, 1, 0, 255, 1, 7⟩,
  ⟨R.TIM_TRANSIENT_SETTLE_MS, .rw, .pageOff, .none, 1, 1, 255, 1, 7⟩,
  ⟨R.TIM_TRANSIENT_RESID_NS, .rw, .pageOff, .none, 1, 1, 255, 1, 7⟩,
  ⟨R.TIM_STATUS_SERVO, .ro, .free, .none, 1, 0, 7, 1, 7⟩,
  ⟨R.TIM_STATUS_TIME_LOST, .ro, .free, .none, 1, 0, 1, 1, 7⟩,
  ⟨R.TIM_STATUS_TRANSIENT, .ro, .free, .none, 1, 0, 1, 1, 7⟩,
  ⟨R.TIM_STATUS_FIRST_STEP_DONE, .ro, .free, .none, 1, 0, 1, 1, 7⟩,
  ⟨R.TIM_STATUS_SRC_USED, .ro, .free, .none, 1, 0, 3, 1, 7⟩,
  ⟨R.TIM_CMD_STEP, .wo, .free, .none, 1, 0, 1, 1, 7⟩,
  ⟨R.TIM_CMD_SET, .wo, .free, .none, 1, 0, 1, 1, 7⟩,
  ⟨R.TIM_NT0_NT, .ro, .free, .none, 1, 0, 4294967295, 1, 7⟩,
  ⟨R.TIM_NT1_NT, .ro, .free, .none, 1, 0, 4294967295, 1, 7⟩,
  ⟨R.TIM_NT2_NT, .ro, .free, .none, 1, 0, 65535, 1, 7⟩,
  ⟨R.TIM_FRC_LO_FRC, .ro, .free, .none, 1, 0, 4294967295, 1, 7⟩,
  ⟨R.TIM_FRC_HI_FRC, .ro, .free, .none, 1, 0, 4294967295, 1, 7⟩,
  ⟨R.TIM_RATE_LO_RATE, .ro, .free, .none, 1, 0, 4294967295, 1, 7⟩,
  ⟨R.TIM_RATE_HI_RATE, .ro, .free, .none, 1, 0, 1048575, 1, 7⟩,
  ⟨R.TIM_ERR_OFFSET, .ro, .free, .none, 1, 0, 4294967295, 1, 7⟩,
  ⟨R.TIM_BOUND_BOUND, .ro, .free, .none, 1, 0, 65535, 1, 7⟩,
  ⟨R.TIM_BOUND_HOLD_MS, .ro, .free, .none, 1, 0, 65535, 1, 7⟩,
  ⟨R.TIM_STEPS_COUNT, .ro, .free, .none, 1, 0, 65535, 1, 7⟩,
  ⟨R.TIM_SET_NT_NT, .rw, .free, .none, 3, 0, 4294967295, 1, 7⟩,
  ⟨R.TIM_TEMP_TEMP, .ro, .free, .none, 1, 0, 65535, 1, 7⟩,
  ⟨R.TIM_FF_TEMP, .ro, .free, .none, 16, 0, 65535, 1, 7⟩,
  ⟨R.TIM_FF_FREQ, .ro, .free, .none, 16, 0, 65535, 1, 7⟩,
  ⟨R.TMR_OWNER_PAGE, .ro, .free, .none, 32, 0, 255, 1, 7⟩,
  ⟨R.TMR_NEXT_LO_NS, .ro, .free, .none, 32, 0, 4294967295, 1, 7⟩,
  ⟨R.TMR_NEXT_HI_NS, .ro, .free, .none, 32, 0, 4294967295, 1, 7⟩,
  ⟨R.TMR_LATE_LATE, .rc, .free, .none, 32, 0, 65535, 1, 7⟩,
  ⟨R.TMR_LATE_SKIPPED, .rc, .free, .none, 32, 0, 65535, 1, 7⟩]

def regRowsPTP : List Row := [
  ⟨R.PTP_CFG_DOMAIN, .rw, .pageOff, .none, 1, 0, 255, 1, 7⟩,
  ⟨R.PTP_CFG_OC_EN, .rw, .pageOff, .none, 1, 0, 1, 1, 7⟩,
  ⟨R.PTP_CFG_TC_EN, .rw, .pageOff, .none, 1, 0, 1, 1, 7⟩,
  ⟨R.PTP_CFG_MASTER, .rw, .pageOff, .none, 1, 0, 1, 1, 7⟩,
  ⟨R.PTP_CFG_SLAVE_PORT, .rw, .pageOff, .none, 1, 0, 15, 1, 7⟩,
  ⟨R.PTP_CFG_BACKUP_PORT, .rw, .pageOff, .none, 1, 0, 15, 1, 7⟩,
  ⟨R.PTP_CFG_BACKUP_EN, .rw, .pageOff, .none, 1, 0, 1, 1, 7⟩,
  ⟨R.PTP_CFG_LOG_DREQ, .rw, .pageOff, .none, 1, 0, 15, 1, 7⟩,
  ⟨R.PTP_CFG_LOG_SYNC, .rw, .pageOff, .none, 1, 0, 15, 1, 7⟩,
  ⟨R.PTP_CLOCK_ID_LO_ID, .ro, .free, .none, 1, 0, 4294967295, 1, 7⟩,
  ⟨R.PTP_CLOCK_ID_HI_ID, .ro, .free, .none, 1, 0, 4294967295, 1, 7⟩,
  ⟨R.PTP_GM_ID_LO_ID, .ro, .free, .none, 1, 0, 4294967295, 1, 7⟩,
  ⟨R.PTP_GM_ID_HI_ID, .ro, .free, .none, 1, 0, 4294967295, 1, 7⟩,
  ⟨R.PTP_MPD_DELAY, .ro, .free, .none, 1, 0, 4294967295, 1, 7⟩,
  ⟨R.PTP_OUTLIER_COUNT, .rc, .free, .none, 1, 0, 4294967295, 1, 7⟩,
  ⟨R.PTP_TC_FWD_MASK, .rw, .pageOff, .none, 16, 0, 65535, 1, 7⟩,
  ⟨R.PTP_RX_DLY_DELAY, .rw, .pageOff, .none, 16, 0, 65535, 1, 7⟩,
  ⟨R.PTP_TX_LAT_LAT, .rw, .pageOff, .none, 16, 0, 65535, 1, 7⟩,
  ⟨R.PTP_TX_LAT_DELAY, .rw, .pageOff, .none, 16, 0, 65535, 1, 7⟩,
  ⟨R.PTP_ASYM_ASYM, .rw, .pageOff, .none, 16, 0, 4294967295, 1, 7⟩,
  ⟨R.PTP_TS_MISS_COUNT, .rc, .free, .none, 16, 0, 4294967295, 1, 7⟩,
  ⟨R.PTP_TX_TS_ERR_COUNT, .rc, .free, .none, 16, 0, 4294967295, 1, 7⟩,
  ⟨R.PTP_PORT_STAT_UNFIT, .ro, .free, .none, 16, 0, 1, 1, 7⟩,
  ⟨R.PTP_PORT_STAT_SLAVE_ACTIVE, .ro, .free, .none, 16, 0, 1, 1, 7⟩,
  ⟨R.PTP_PORT_STAT_AGREE, .ro, .free, .none, 16, 0, 255, 1, 7⟩,
  ⟨R.PTP_DISCARD_COUNT, .rc, .free, .none, 16, 0, 4294967295, 1, 7⟩]

def regRowsSTP : List Row := [
  ⟨R.STP_CFG_KP_SHIFT, .rw, .pageOff, .none, 1, 0, 8, 1, 7⟩,
  ⟨R.STP_CFG_KD_SHIFT, .rw, .pageOff, .none, 1, 2, 12, 1, 7⟩,
  ⟨R.STP_CFG_REINIT_N, .rw, .pageOff, .none, 1, 2, 15, 1, 7⟩,
  ⟨R.STP_CFG_LP_STALL, .rw, .pageOff, .none, 1, 0, 1, 1, 1⟩,
  ⟨R.STP_PERIOD_MIN_MIN, .rw, .pageOff, .none, 1, 100, 10000000, 1, 7⟩,
  ⟨R.STP_PERIOD_MAX_MAX, .rw, .pageOff, .none, 1, 1, 1000000, 1, 7⟩,
  ⟨R.STP_LAG_CFG_LAG_SHIFT, .rw, .pageOff, .none, 1, 0, 15, 1, 7⟩,
  ⟨R.STP_CMD_SWAP, .wo, .free, .none, 1, 0, 1, 1, 7⟩,
  ⟨R.STP_CMD_SET_INDEX, .wo, .free, .none, 1, 0, 1, 1, 7⟩,
  ⟨R.STP_CMD_TRK, .wo, .free, .none, 1, 0, 255, 1, 7⟩,
  ⟨R.STP_INDEX_SET_LO_INDEX, .rw, .free, .none, 1, 0, 4294967295, 1, 7⟩,
  ⟨R.STP_INDEX_SET_HI_INDEX, .rw, .free, .none, 1, 0, 65535, 1, 7⟩,
  ⟨R.STP_SCHED_STAT_SWAP_PENDING, .ro, .free, .none, 1, 0, 1, 1, 7⟩,
  ⟨R.STP_SCHED_STAT_SWAPS, .ro, .free, .none, 1, 0, 65535, 1, 7⟩,
  ⟨R.STP_MISSED_COUNT, .rc, .free, .none, 1, 0, 4294967295, 1, 7⟩,
  ⟨R.STP_BOUNCE_COUNT, .rc, .free, .none, 1, 0, 4294967295, 1, 7⟩,
  ⟨R.STP_TRK_EN_EN, .rw, .free, .none, 4, 0, 4294967295, 1, 7⟩,
  ⟨R.STP_IN_MASK_MASK, .rw, .pageOff, .none, 4, 0, 4294967295, 1, 2⟩,
  ⟨R.STP_LAG_GRP_GRP, .rw, .pageOff, .none, 16, 0, 4294967295, 1, 7⟩,
  ⟨R.PH_CFG_MODE, .rw, .pageOff, .none, 15, 0, 2, 1, 7⟩,
  ⟨R.PH_CFG_TOL, .rw, .free, .none, 15, 0, 255, 1, 7⟩,
  ⟨R.PH_CFG_REF, .rw, .free, .none, 15, 0, 65535, 1, 7⟩,
  ⟨R.PH_LAST_ANGLE, .ro, .free, .none, 15, 0, 65535, 1, 1⟩,
  ⟨R.PH_LAST_OUT_TOL, .rc, .free, .none, 15, 0, 255, 1, 1⟩,
  ⟨R.PH_LAST_REPEAT, .rc, .free, .none, 15, 0, 255, 1, 1⟩,
  ⟨R.PH_MISS_COUNT, .rc, .free, .none, 15, 0, 4294967295, 1, 1⟩,
  ⟨R.STP_IN_CFG_DELAY, .rw, .pageOff, .none, 128, 0, 65535, 1, 2⟩,
  ⟨R.STP_IN_CFG_FILTER, .rw, .pageOff, .none, 128, 0, 1000, 1, 2⟩,
  ⟨R.SCH_CTL_KIND, .rw, .free, .none, 64, 0, 3, 1, 7⟩,
  ⟨R.SCH_CTL_ACTION, .rw, .free, .none, 64, 0, 15, 1, 7⟩,
  ⟨R.SCH_CTL_ARG, .rw, .free, .none, 64, 0, 255, 1, 7⟩,
  ⟨R.SCH_CTL_TRACKER, .rw, .free, .none, 64, 0, 255, 1, 7⟩,
  ⟨R.SCH_CTL_PHASE, .rw, .free, .none, 64, 0, 15, 1, 7⟩,
  ⟨R.SCH_WHEN_ANGLE, .rw, .free, .none, 64, 0, 65535, 1, 7⟩,
  ⟨R.SCH_WHEN_DIV, .rw, .free, .none, 64, 0, 65535, 1, 7⟩,
  ⟨R.SCH_T0_LO_T0, .rw, .free, .none, 64, 0, 4294967295, 1, 7⟩,
  ⟨R.SCH_T0_HI_T0, .rw, .free, .none, 64, 0, 4294967295, 1, 7⟩,
  ⟨R.TRK_STAT_STATE, .ro, .free, .none, 128, 0, 7, 1, 7⟩,
  ⟨R.TRK_STAT_LATE, .ro, .free, .none, 128, 0, 1, 1, 7⟩,
  ⟨R.TRK_STAT_REASON, .ro, .free, .none, 128, 0, 3, 1, 7⟩]

def regRowsSTP1 : List Row := [
  ⟨R.TRK_STAT_OUTLIERS, .rc, .free, .none, 128, 0, 65535, 1, 7⟩,
  ⟨R.TRK_POS_LO_SP, .ro, .free, .none, 128, 0, 4294967295, 1, 7⟩,
  ⟨R.TRK_POS_HI_SP, .ro, .free, .none, 128, 0, 4294967295, 1, 7⟩,
  ⟨R.TRK_PERIOD_PERIOD, .ro, .free, .none, 128, 0, 4294967295, 1, 7⟩]

def regRowsCNT : List Row := [
  ⟨R.CNT_SEL_SLOT, .rw, .free, .none, 1, 0, 32767, 1, 7⟩,
  ⟨R.CNT_SRC_CLASS, .rw, .pageOff, .cntSel, 1, 0, 15, 1, 7⟩,
  ⟨R.CNT_SRC_INDEX, .rw, .pageOff, .cntSel, 1, 0, 4095, 1, 7⟩,
  ⟨R.CNT_SRC_MODE, .rw, .pageOff, .cntSel, 1, 0, 15, 1, 7⟩,
  ⟨R.CNT_SRC_GAUGE, .ro, .free, .cntSel, 1, 0, 1, 1, 7⟩,
  ⟨R.CNT_SETS_MASK, .rw, .pageOff, .cntSel, 1, 0, 65535, 1, 7⟩,
  ⟨R.CNT_VAL_LO_VAL, .ro, .free, .cntSel, 1, 0, 4294967295, 1, 7⟩,
  ⟨R.CNT_VAL_HI_VAL, .ro, .free, .cntSel, 1, 0, 4294967295, 1, 7⟩,
  ⟨R.CNT_SOFT_SLOT_SLOT, .rw, .free, .none, 1, 0, 16383, 1, 7⟩,
  ⟨R.CNT_SOFT_ADD, .wo, .free, .none, 1, 0, 18446744073709551615, 1, 7⟩,
  ⟨R.CNT_SETSZ_SIZE, .ro, .free, .none, 16, 0, 2047, 1, 7⟩]

def regRowsFRM : List Row := [
  ⟨R.FRM_CFG_ENC, .rw, .free, .none, 1, 0, 2, 1, 7⟩,
  ⟨R.FRM_CFG_KEY_EVERY, .rw, .pageOff, .none, 1, 1, 255, 1, 7⟩,
  ⟨R.FRM_CFG_SUM_N, .rw, .pageOff, .none, 1, 2, 4095, 1, 7⟩,
  ⟨R.FRM_STAT_ENC_ACTIVE, .ro, .free, .none, 1, 0, 3, 1, 7⟩,
  ⟨R.FRM_STAT_STEPPED_DOWN, .ro, .free, .none, 1, 0, 1, 1, 7⟩,
  ⟨R.FRM_CMD_CAPTURE_FULL, .wo, .free, .none, 1, 0, 1, 1, 7⟩,
  ⟨R.FRM_CMD_CAPTURE_SET, .wo, .free, .none, 1, 0, 1, 1, 7⟩,
  ⟨R.FRM_CMD_SYNC, .wo, .free, .none, 1, 0, 1, 1, 7⟩,
  ⟨R.FRM_CMD_SET, .wo, .free, .none, 1, 0, 15, 1, 7⟩,
  ⟨R.FRM_SKIP_FULL_COUNT, .rc, .free, .none, 1, 0, 4294967295, 1, 7⟩,
  ⟨R.FRM_SKIP_PART_COUNT, .rc, .free, .none, 1, 0, 4294967295, 1, 7⟩,
  ⟨R.FRM_FRAMES_COUNT, .ro, .free, .none, 1, 0, 4294967295, 1, 7⟩,
  ⟨R.FRM_PFRAMES_COUNT, .ro, .free, .none, 1, 0, 4294967295, 1, 7⟩,
  ⟨R.FRM_KEY_FORCED_COUNT, .rc, .free, .none, 1, 0, 4294967295, 1, 7⟩]

def regRowsPRX : List Row := [
  ⟨R.PRX_BUS_CFG_MODE, .rw, .pageOff, .none, 16, 0, 2, 1, 7⟩,
  ⟨R.PRX_BUS_CFG_PEC, .rw, .pageOff, .none, 16, 0, 1, 1, 7⟩,
  ⟨R.PRX_BUS_CFG_RATE, .rw, .pageOff, .none, 16, 1, 125, 1, 7⟩,
  ⟨R.PRX_SEL_PROXY, .rw, .free, .none, 1, 0, 127, 1, 7⟩,
  ⟨R.PRX_DIE_BUS, .rw, .pageOff, .prxSel, 1, 0, 15, 1, 7⟩,
  ⟨R.PRX_DIE_ADDR, .rw, .pageOff, .prxSel, 1, 0, 127, 1, 7⟩,
  ⟨R.PRX_DIE_DYN, .rw, .pageOff, .prxSel, 1, 0, 1, 1, 7⟩,
  ⟨R.PRX_DIE_TRACKER, .rw, .pageOff, .prxSel, 1, 0, 127, 1, 7⟩,
  ⟨R.PRX_DIE_EN, .rw, .pageOff, .prxSel, 1, 0, 1, 1, 7⟩,
  ⟨R.PRX_DIE_LATCH_MODE, .rw, .pageOff, .prxSel, 1, 0, 1, 1, 7⟩,
  ⟨R.PRX_LATCH_REG, .rw, .pageOff, .prxSel, 1, 0, 65535, 1, 7⟩,
  ⟨R.PRX_LATCH_VAL, .rw, .pageOff, .prxSel, 1, 0, 255, 1, 7⟩,
  ⟨R.PRX_LATCH_DLY_DLY, .rw, .pageOff, .prxSel, 1, 0, 65535, 1, 7⟩,
  ⟨R.PRX_SEG_REG, .rw, .pageOff, .prxSel, 16, 0, 65535, 1, 7⟩,
  ⟨R.PRX_SEG_COUNT, .rw, .pageOff, .prxSel, 16, 0, 256, 1, 7⟩,
  ⟨R.PRX_SEG_WIDTH, .rw, .pageOff, .prxSel, 16, 0, 3, 1, 7⟩,
  ⟨R.PRX_SEG_GAUGE, .rw, .pageOff, .prxSel, 16, 0, 1, 1, 7⟩,
  ⟨R.PRX_SEG_BIG, .rw, .pageOff, .prxSel, 16, 0, 1, 1, 7⟩,
  ⟨R.PRX_STAT_UNREACHABLE, .ro, .free, .prxSel, 1, 0, 1, 1, 7⟩,
  ⟨R.PRX_STAT_FAIL_RUN, .ro, .free, .prxSel, 1, 0, 255, 1, 7⟩,
  ⟨R.PRX_POLLS_COUNT, .ro, .free, .prxSel, 1, 0, 4294967295, 1, 7⟩,
  ⟨R.PRX_SKIP_COUNT, .rc, .free, .prxSel, 1, 0, 4294967295, 1, 7⟩,
  ⟨R.PRX_FAIL_COUNT, .rc, .free, .prxSel, 1, 0, 4294967295, 1, 7⟩,
  ⟨R.PRX_STALE_COUNT, .rc, .free, .prxSel, 1, 0, 4294967295, 1, 7⟩]

def regRowsGAR : List Row := [
  ⟨R.GAR_POOL_TAP, .rw, .pageOff, .none, 1, 0, 1023, 1, 7⟩,
  ⟨R.GAR_POOL_DENSE, .rw, .pageOff, .none, 1, 0, 1023, 1, 7⟩,
  ⟨R.GAR_STAT_ACTIVE, .ro, .free, .none, 1, 0, 1023, 1, 7⟩,
  ⟨R.GAR_STAT_TEST, .ro, .free, .none, 1, 0, 15, 1, 7⟩,
  ⟨R.GAR_STAT_DEGRADED, .ro, .free, .none, 1, 0, 1, 1, 7⟩,
  ⟨R.GAR_STAT_CMD, .ro, .free, .none, 1, 0, 1023, 1, 7⟩,
  ⟨R.GAR_WIDTH_K, .ro, .free, .none, 1, 0, 2047, 1, 7⟩,
  ⟨R.GAR_WIDTH_LOAD, .ro, .free, .none, 1, 0, 65535, 1, 7⟩,
  ⟨R.GAR_ROT_ROUNDS, .ro, .free, .none, 1, 0, 65535, 1, 7⟩,
  ⟨R.GAR_ROT_SLOT_US, .ro, .free, .none, 1, 0, 65535, 1, 7⟩,
  ⟨R.GAR_CMD_RETIRE, .wo, .free, .none, 1, 0, 1, 1, 7⟩,
  ⟨R.GAR_CMD_MACRO, .wo, .free, .none, 1, 0, 511, 1, 7⟩,
  ⟨R.GAR_KAT_FAIL_COUNT, .rc, .free, .none, 1, 0, 4294967295, 1, 7⟩,
  ⟨R.GAR_SAT_COUNT, .rc, .free, .none, 1, 0, 4294967295, 1, 7⟩,
  ⟨R.GAR_INC_COUNT, .rc, .free, .none, 1, 0, 4294967295, 1, 7⟩,
  ⟨R.GAR_NONFIN_COUNT, .rc, .free, .none, 1, 0, 4294967295, 1, 7⟩,
  ⟨R.GAR_DENSE_DENSE, .ro, .free, .none, 1, 0, 1023, 1, 7⟩,
  ⟨R.GAR_DENSE_TAP, .ro, .free, .none, 1, 0, 1023, 1, 7⟩,
  ⟨R.GAR_RETIRED_MASK, .ro, .free, .none, 11, 0, 4294967295, 1, 7⟩]

def regRowsTAP : List Row := [
  ⟨R.TAP_CFG_EN, .rw, .pageOff, .none, 40, 0, 1, 1, 7⟩,
  ⟨R.TAP_CFG_HDR, .rw, .pageOff, .none, 40, 0, 1, 1, 7⟩,
  ⟨R.TAP_OVF_COUNT, .rc, .free, .none, 40, 0, 4294967295, 1, 7⟩,
  ⟨R.BIND_SEL_BIND, .rw, .free, .none, 1, 0, 255, 1, 7⟩,
  ⟨R.BIND_MATCH_TAG, .rw, .bindOff, .bindSel, 1, 0, 65535, 1, 7⟩,
  ⟨R.BIND_MATCH_MASK, .rw, .bindOff, .bindSel, 1, 0, 65535, 1, 7⟩,
  ⟨R.BIND_CTL_EN, .rw, .free, .bindSel, 1, 0, 1, 1, 7⟩,
  ⟨R.BIND_CTL_MODE, .rw, .bindOff, .bindSel, 1, 0, 1, 1, 7⟩,
  ⟨R.BIND_CTL_DIG, .rw, .bindOff, .bindSel, 1, 0, 1, 1, 7⟩,
  ⟨R.BIND_CTL_FMT_OVR, .rw, .bindOff, .bindSel, 1, 0, 1, 1, 7⟩,
  ⟨R.BIND_CTL_FMT, .rw, .bindOff, .bindSel, 1, 0, 7, 1, 7⟩,
  ⟨R.BIND_CTL_TAP, .rw, .bindOff, .bindSel, 1, 0, 63, 1, 7⟩,
  ⟨R.BIND_CTL_WINDOW, .rw, .bindOff, .bindSel, 1, 0, 15, 1, 7⟩,
  ⟨R.BIND_CTL_ACCOUNT, .rw, .bindOff, .bindSel, 1, 0, 1023, 1, 7⟩,
  ⟨R.BIND_PARAM_E_REF, .rw, .bindOff, .bindSel, 1, 0, 65535, 1, 7⟩,
  ⟨R.BIND_PARAM_K_LOG, .rw, .bindOff, .bindSel, 1, 0, 15, 1, 7⟩,
  ⟨R.BIND_SEED_LO_SEED, .rw, .bindOff, .bindSel, 1, 0, 4294967295, 1, 7⟩,
  ⟨R.BIND_SEED_HI_SEED, .rw, .bindOff, .bindSel, 1, 0, 4294967295, 1, 7⟩,
  ⟨R.BIND_STAT_CONFLICT, .rc, .free, .bindSel, 1, 0, 65535, 1, 7⟩,
  ⟨R.BIND_STAT_MISSED, .rc, .free, .bindSel, 1, 0, 65535, 1, 7⟩,
  ⟨R.BIND_TENSORS_COUNT, .ro, .free, .bindSel, 1, 0, 4294967295, 1, 7⟩,
  ⟨R.GAR_UNBOUND_COUNT, .rc, .free, .none, 1, 0, 4294967295, 1, 7⟩]

def regRowsACC : List Row := [
  ⟨R.ACC_SEL_ACCOUNT, .rw, .free, .none, 1, 0, 1023, 1, 7⟩,
  ⟨R.ACC_STAT_OPEN, .ro, .free, .accSel, 1, 0, 1, 1, 7⟩,
  ⟨R.ACC_STAT_SAT, .ro, .free, .accSel, 1, 0, 1, 1, 7⟩,
  ⟨R.ACC_STAT_INCOMPLETE, .ro, .free, .accSel, 1, 0, 1, 1, 7⟩,
  ⟨R.ACC_STAT_NONFINITE, .ro, .free, .accSel, 1, 0, 1, 1, 7⟩,
  ⟨R.ACC_STAT_SUSPECT, .ro, .free, .accSel, 1, 0, 1, 1, 7⟩,
  ⟨R.ACC_STAT_ORIGIN, .ro, .free, .accSel, 1, 0, 1, 1, 7⟩,
  ⟨R.ACC_STAT_K_LOG, .ro, .free, .accSel, 1, 0, 15, 1, 7⟩,
  ⟨R.ACC_STAT_CTX, .ro, .free, .accSel, 1, 0, 63, 1, 7⟩,
  ⟨R.ACC_PARAM_E_REF, .ro, .free, .accSel, 1, 0, 65535, 1, 7⟩,
  ⟨R.ACC_PARAM_CLOSES, .ro, .free, .accSel, 1, 0, 65535, 1, 7⟩,
  ⟨R.ACC_SEED_LO_SEED, .ro, .free, .accSel, 1, 0, 4294967295, 1, 7⟩,
  ⟨R.ACC_SEED_HI_SEED, .ro, .free, .accSel, 1, 0, 4294967295, 1, 7⟩,
  ⟨R.ACC_ELEMS_LO_ELEMS, .ro, .free, .accSel, 1, 0, 4294967295, 1, 7⟩,
  ⟨R.ACC_ELEMS_HI_ELEMS, .ro, .free, .accSel, 1, 0, 4294967295, 1, 7⟩,
  ⟨R.ACC_TENSORS_COUNT, .ro, .free, .accSel, 1, 0, 4294967295, 1, 7⟩,
  ⟨R.ACC_NONFIN_COUNT, .ro, .free, .accSel, 1, 0, 4294967295, 1, 7⟩,
  ⟨R.ACC_IDX_INDEX, .rw, .free, .none, 1, 0, 1023, 1, 7⟩,
  ⟨R.ACC_VAL0_VAL, .ro, .free, .accSel, 1, 0, 4294967295, 1, 7⟩,
  ⟨R.ACC_VAL1_VAL, .ro, .free, .accSel, 1, 0, 4294967295, 1, 7⟩,
  ⟨R.ACC_VAL2_VAL, .ro, .free, .accSel, 1, 0, 4294967295, 1, 7⟩]

def regRowsWIN : List Row := [
  ⟨R.WIN_STAT_OPEN, .ro, .free, .none, 16, 0, 1, 1, 7⟩,
  ⟨R.WIN_STAT_CLOSING, .ro, .free, .none, 16, 0, 1, 1, 7⟩,
  ⟨R.WIN_STAT_DEFER, .ro, .free, .none, 16, 0, 1, 1, 7⟩,
  ⟨R.WIN_STAT_INSTANCES, .ro, .free, .none, 16, 0, 65535, 1, 7⟩,
  ⟨R.WIN_CMD_OPEN, .wo, .free, .none, 1, 0, 1, 1, 7⟩,
  ⟨R.WIN_CMD_CLOSE, .wo, .free, .none, 1, 0, 1, 1, 7⟩,
  ⟨R.WIN_CMD_WINDOW, .wo, .free, .none, 1, 0, 15, 1, 7⟩,
  ⟨R.OPB_SIZE_KIB, .ro, .free, .none, 1, 0, 4294967295, 1, 7⟩,
  ⟨R.DIG_STAT_CORES, .ro, .free, .none, 1, 0, 255, 1, 7⟩,
  ⟨R.DIG_TENSORS_COUNT, .ro, .free, .none, 1, 0, 4294967295, 1, 7⟩,
  ⟨R.DIG_INC_COUNT, .rc, .free, .none, 1, 0, 4294967295, 1, 7⟩,
  ⟨R.CHK_SEL_ENTRY, .rw, .free, .none, 1, 0, 255, 1, 6⟩,
  ⟨R.CHK_CTL_EN, .rw, .free, .chkSel, 1, 0, 1, 1, 6⟩,
  ⟨R.CHK_CTL_LOADED, .ro, .free, .chkSel, 1, 0, 1, 1, 6⟩,
  ⟨R.CHK_DEF_LO_ADDR, .rw, .chkIdle, .chkSel, 1, 0, 4294967295, 64, 6⟩,
  ⟨R.CHK_DEF_HI_ADDR, .rw, .chkIdle, .chkSel, 1, 0, 4294967295, 1, 6⟩,
  ⟨R.CHK_DEF_LEN_BYTES, .rw, .chkIdle, .chkSel, 1, 64, 1093696, 1, 6⟩,
  ⟨R.CHK_CTX_CTX, .rw, .chkIdle, .chkSel, 1, 0, 63, 1, 6⟩,
  ⟨R.CHK_STAT_OUTCOME, .ro, .free, .chkSel, 1, 0, 15, 1, 6⟩,
  ⟨R.CHK_STAT_OPEN, .ro, .free, .chkSel, 1, 0, 7, 1, 6⟩,
  ⟨R.CHK_ROUNDS_COUNT, .ro, .free, .chkSel, 1, 0, 4294967295, 1, 6⟩,
  ⟨R.CHK_MISMATCH_COUNT, .rc, .free, .chkSel, 1, 0, 4294967295, 1, 6⟩,
  ⟨R.CHK_INCOMPLETE_COUNT, .rc, .free, .chkSel, 1, 0, 4294967295, 1, 6⟩,
  ⟨R.CHK_LATE_COUNT, .rc, .free, .chkSel, 1, 0, 4294967295, 1, 6⟩,
  ⟨R.CHK_BOUND0_BOUND, .ro, .free, .chkSel, 1, 0, 4294967295, 1, 6⟩,
  ⟨R.CHK_BOUND1_BOUND, .ro, .free, .chkSel, 1, 0, 4294967295, 1, 6⟩,
  ⟨R.CHK_BOUND2_BOUND, .ro, .free, .chkSel, 1, 0, 4294967295, 1, 6⟩,
  ⟨R.CHK_ROUND_LO_KEY, .ro, .free, .chkSel, 1, 0, 4294967295, 1, 6⟩,
  ⟨R.CHK_ROUND_HI_KEY, .ro, .free, .chkSel, 1, 0, 4294967295, 1, 6⟩,
  ⟨R.ND_TOTAL_LO_COUNT, .ro, .free, .none, 1, 0, 4294967295, 1, 7⟩,
  ⟨R.ND_TOTAL_HI_COUNT, .ro, .free, .none, 1, 0, 4294967295, 1, 7⟩,
  ⟨R.ND_LAST_CAUSE, .ro, .free, .none, 1, 0, 15, 1, 7⟩,
  ⟨R.ND_LAST_FRC_LO_FRC, .ro, .free, .none, 1, 0, 4294967295, 1, 7⟩,
  ⟨R.ND_LAST_FRC_HI_FRC, .ro, .free, .none, 1, 0, 4294967295, 1, 7⟩,
  ⟨R.ND_CNT_COUNT, .rc, .free, .none, 16, 0, 4294967295, 1, 7⟩]

def regRowsSLU : List Row := [
  ⟨R.SLU_RAW_COUNT, .ro, .free, .none, 1, 0, 4294967295, 1, 7⟩,
  ⟨R.SLU_PACKED_COUNT, .ro, .free, .none, 1, 0, 4294967295, 1, 7⟩,
  ⟨R.SLU_STALL_LO_CYCLES, .rc, .free, .none, 1, 0, 4294967295, 1, 7⟩,
  ⟨R.SLU_STALL_HI_CYCLES, .ro, .free, .none, 1, 0, 4294967295, 1, 7⟩,
  ⟨R.SLU_STALL_BLK_COUNT, .rc, .free, .none, 1, 0, 4294967295, 1, 7⟩,
  ⟨R.SLU_WORST_D, .rc, .free, .none, 1, 0, 127, 1, 7⟩,
  ⟨R.SLU_MALFORMED_COUNT, .rc, .free, .none, 1, 0, 4294967295, 1, 7⟩]

def regRowsAGT : List Row := [
  ⟨R.AGT_STAT_IN_FLIGHT, .ro, .free, .none, 1, 0, 65535, 1, 7⟩,
  ⟨R.AGT_PENDING_COUNT, .ro, .free, .none, 1, 0, 1048575, 1, 7⟩,
  ⟨R.AGT_SAMPLES_COUNT, .ro, .free, .none, 1, 0, 4294967295, 1, 7⟩,
  ⟨R.AGT_VISITS_LO_COUNT, .ro, .free, .none, 1, 0, 4294967295, 1, 7⟩,
  ⟨R.AGT_VISITS_HI_COUNT, .ro, .free, .none, 1, 0, 4294967295, 1, 7⟩,
  ⟨R.AGT_COALESCED_COUNT, .rc, .free, .none, 1, 0, 4294967295, 1, 7⟩,
  ⟨R.AGT_ENT_MISS_COUNT, .rc, .free, .none, 1, 0, 4294967295, 1, 7⟩,
  ⟨R.AGT_TYPE_MISS_COUNT, .rc, .free, .none, 1, 0, 4294967295, 1, 7⟩,
  ⟨R.AGT_TRANSIENT_COUNT, .rc, .free, .none, 1, 0, 4294967295, 1, 7⟩,
  ⟨R.AGT_GATED_COUNT, .rc, .free, .none, 1, 0, 4294967295, 1, 7⟩,
  ⟨R.AGT_SELF_ROW_ROW, .rw, .free, .none, 1, 0, 255, 1, 1⟩,
  ⟨R.AGT_CMD_COL_SWAP, .wo, .free, .none, 1, 0, 1, 1, 7⟩,
  ⟨R.AGT_COL_STAT_COL_PENDING, .ro, .free, .none, 1, 0, 1, 1, 7⟩,
  ⟨R.AGT_COL_STAT_COL_SWAPS, .ro, .free, .none, 1, 0, 65535, 1, 7⟩,
  ⟨R.AGT_MSEL_SLOT, .rw, .free, .none, 1, 0, 15, 1, 7⟩,
  ⟨R.AGT_MS_CTL_EN, .rw, .free, .agtMsel, 1, 0, 1, 1, 7⟩,
  ⟨R.AGT_MS_CTL_TRIGGER, .rw, .slotOff, .agtMsel, 1, 0, 1, 1, 7⟩,
  ⟨R.AGT_MS_CTL_OFFER, .rw, .slotOff, .agtMsel, 1, 0, 1, 1, 7⟩,
  ⟨R.AGT_MS_CTL_CTX, .rw, .slotOff, .agtMsel, 1, 0, 63, 1, 7⟩,
  ⟨R.AGT_MS_CTL_DIV, .rw, .slotOff, .agtMsel, 1, 0, 65535, 1, 7⟩,
  ⟨R.AGT_MS_SRC_KEY, .rw, .slotOff, .agtMsel, 1, 0, 524287, 1, 7⟩,
  ⟨R.AGT_MS_MASK_MASK, .rw, .slotOff, .agtMsel, 1, 0, 524287, 1, 7⟩,
  ⟨R.AGT_MS_R0_BASE_BASE, .rw, .pageOff, .agtMsel, 1, 0, 1048575, 1, 7⟩,
  ⟨R.AGT_MS_R0_SIZE_SIZE, .rw, .pageOff, .agtMsel, 1, 0, 2097151, 1, 7⟩,
  ⟨R.AGT_MS_R1_BASE_BASE, .rw, .pageOff, .agtMsel, 1, 0, 1048575, 1, 7⟩,
  ⟨R.AGT_MS_R1_SIZE_SIZE, .rw, .pageOff, .agtMsel, 1, 0, 2097151, 1, 7⟩,
  ⟨R.AGT_MS_STAT_ACTIVE_REG, .ro, .free, .agtMsel, 1, 0, 1, 1, 7⟩,
  ⟨R.AGT_MS_STAT_ACTIVE_VALID, .ro, .free, .agtMsel, 1, 0, 1, 1, 7⟩,
  ⟨R.AGT_MS_STAT_STANDBY_VALID, .ro, .free, .agtMsel, 1, 0, 1, 1, 7⟩,
  ⟨R.AGT_MS_STAT_STANDBY_BUSY, .ro, .free, .agtMsel, 1, 0, 1, 1, 7⟩,
  ⟨R.AGT_MS_STAT_SWAP_PENDING, .ro, .free, .agtMsel, 1, 0, 1, 1, 7⟩,
  ⟨R.AGT_MS_STAT_LAST_CLASS, .ro, .free, .agtMsel, 1, 0, 15, 1, 7⟩,
  ⟨R.AGT_MS_STAT_SWAPS, .ro, .free, .agtMsel, 1, 0, 65535, 1, 7⟩,
  ⟨R.AGT_MS_CMD_SWAP, .wo, .free, .agtMsel, 1, 0, 1, 1, 7⟩,
  ⟨R.AGT_MS_ID_ID, .ro, .free, .agtMsel, 4, 0, 4294967295, 1, 7⟩,
  ⟨R.AGT_MS_OFFERED_COUNT, .ro, .free, .agtMsel, 1, 0, 4294967295, 1, 7⟩,
  ⟨R.AGT_MAP_SEL_NODE, .rw, .free, .none, 1, 0, 4095, 1, 6⟩,
  ⟨R.AGT_MAP_BASE, .rw, .free, .agtMap, 1, 0, 262143, 1, 6⟩,
  ⟨R.AGT_MAP_COUNT, .rw, .free, .agtMap, 1, 0, 128, 1, 6⟩,
  ⟨R.AGT_ROW_SEL_ROW, .rw, .free, .none, 1, 0, 262143, 1, 7⟩]

def regRowsAGT1 : List Row := [
  ⟨R.AGT_ROW_KEY_KEY, .ro, .free, .agtRow, 1, 0, 524287, 1, 7⟩,
  ⟨R.AGT_ROW_KEY_VALID, .ro, .free, .agtRow, 1, 0, 1, 1, 7⟩,
  ⟨R.AGT_ROW_TYPES_TYPEMASK, .ro, .free, .agtRow, 1, 0, 4294967295, 1, 7⟩,
  ⟨R.AGT_ROW_IDX_FEAT, .rw, .free, .none, 1, 0, 31, 1, 7⟩,
  ⟨R.AGT_ROW_VAL_VAL, .ro, .free, .agtRow, 1, 0, 4294967295, 1, 7⟩,
  ⟨R.AGT_COL_A_A, .rw, .free, .none, 128, 0, 4294967295, 1, 7⟩,
  ⟨R.AGT_COL_B_B, .rw, .free, .none, 128, 0, 4294967295, 1, 7⟩,
  ⟨R.AGT_COL_ACT_A_A, .ro, .free, .none, 128, 0, 4294967295, 1, 7⟩,
  ⟨R.AGT_COL_ACT_B_B, .ro, .free, .none, 128, 0, 4294967295, 1, 7⟩]

def regRowsFAB : List Row := [
  ⟨R.FAB_ID_NODE, .ro, .free, .none, 1, 0, 4095, 1, 7⟩,
  ⟨R.FAB_ID_STATE, .ro, .free, .none, 1, 0, 3, 1, 7⟩,
  ⟨R.FAB_IDENTITY_LO_ID, .ro, .free, .none, 1, 0, 4294967295, 1, 7⟩,
  ⟨R.FAB_IDENTITY_HI_ID, .ro, .free, .none, 1, 0, 4294967295, 1, 7⟩,
  ⟨R.FAB_CFG_CLAIM_HOLD, .rw, .pageOff, .none, 1, 5, 1000, 1, 7⟩,
  ⟨R.FAB_CFG_HOP_COST, .rw, .pageOff, .none, 1, 0, 63, 1, 7⟩,
  ⟨R.FAB_NODES_NODES, .ro, .free, .none, 1, 0, 4095, 1, 7⟩,
  ⟨R.FAB_NODES_NO_BACKUP, .ro, .free, .none, 1, 0, 4095, 1, 7⟩,
  ⟨R.FAB_LSDB_SEQ_SEQ, .ro, .free, .none, 1, 0, 4294967295, 1, 7⟩,
  ⟨R.FAB_FRAME_DISC_COUNT, .rc, .free, .none, 1, 0, 4294967295, 1, 7⟩,
  ⟨R.FAB_DUP_UNFILTERED_COUNT, .rc, .free, .none, 1, 0, 4294967295, 1, 7⟩,
  ⟨R.FAB_PORT_SEL_PORT, .rw, .free, .none, 1, 0, 15, 1, 7⟩,
  ⟨R.FAB_PORT_CFG_EN, .rw, .pageOff, .fabPort, 1, 0, 1, 1, 7⟩,
  ⟨R.FAB_PORT_CFG_LONGHAUL, .rw, .pageOff, .fabPort, 1, 0, 1, 1, 4⟩,
  ⟨R.FAB_PORT_CFG_COST_ADD, .rw, .free, .fabPort, 1, 0, 65535, 1, 7⟩,
  ⟨R.FAB_PORT_STAT_LINK, .ro, .free, .fabPort, 1, 0, 3, 1, 7⟩,
  ⟨R.FAB_PORT_STAT_NEIGHBOUR, .ro, .free, .fabPort, 1, 0, 4095, 1, 7⟩,
  ⟨R.FAB_PORT_STAT_DELAY, .ro, .free, .fabPort, 1, 0, 65535, 1, 7⟩,
  ⟨R.FAB_LH_BASE_LO_ADDR, .rw, .pageOff, .fabPort, 1, 0, 4294967295, 4096, 4⟩,
  ⟨R.FAB_LH_BASE_HI_ADDR, .rw, .pageOff, .fabPort, 1, 0, 4294967295, 1, 4⟩,
  ⟨R.FAB_PORT_RETX_COUNT, .rc, .free, .fabPort, 1, 0, 4294967295, 1, 7⟩,
  ⟨R.FAB_PORT_DOWNS_COUNT, .rc, .free, .fabPort, 1, 0, 4294967295, 1, 7⟩,
  ⟨R.FAB_FLOW_A_LSRC_LO, .rw, .free, .none, 64, 0, 8191, 1, 7⟩,
  ⟨R.FAB_FLOW_A_LSRC_HI, .rw, .free, .none, 64, 0, 8191, 1, 7⟩,
  ⟨R.FAB_FLOW_A_EN, .rw, .free, .none, 64, 0, 1, 1, 7⟩,
  ⟨R.FAB_FLOW_B_TYPE, .rw, .free, .none, 64, 0, 255, 1, 7⟩,
  ⟨R.FAB_FLOW_B_DST, .rw, .free, .none, 64, 0, 4095, 1, 7⟩,
  ⟨R.FAB_LAUNCH_JOB_JOB, .rw, .free, .none, 1, 0, 4294967295, 1, 7⟩,
  ⟨R.FAB_LAUNCH_NT_NT, .rw, .free, .none, 3, 0, 4294967295, 1, 7⟩,
  ⟨R.FAB_LAUNCH_SIZE_SIZE, .rw, .free, .none, 1, 1, 262144, 1, 7⟩,
  ⟨R.FAB_LAUNCH_CMD_ARM, .wo, .free, .none, 1, 0, 1, 1, 7⟩,
  ⟨R.FAB_LAUNCH_CMD_CANCEL, .wo, .free, .none, 1, 0, 1, 1, 7⟩,
  ⟨R.FAB_LAUNCH_STAT_STATE, .ro, .free, .none, 1, 0, 3, 1, 7⟩,
  ⟨R.FAB_LAUNCH_STAT_ROOT, .ro, .free, .none, 1, 0, 1, 1, 7⟩,
  ⟨R.FAB_LAUNCH_STAT_REASON, .ro, .free, .none, 1, 0, 15, 1, 7⟩,
  ⟨R.FAB_LAUNCH_STAT_JOB, .ro, .free, .none, 1, 0, 16777215, 1, 7⟩,
  ⟨R.FAB_LAUNCH_COUNT_COUNT, .ro, .free, .none, 1, 0, 524287, 1, 7⟩,
  ⟨R.FAB_PROXY_ACK_ACK, .wo, .free, .none, 4, 0, 4294967295, 1, 2⟩]

def regRowsCUL : List Row := [
  ⟨R.CUL_CFG_FAILBACK_MS, .rw, .pageOff, .none, 1, 1, 10000, 1, 1⟩,
  ⟨R.CUL_LEAF_ACTIVE, .ro, .free, .none, 1, 0, 3, 1, 1⟩,
  ⟨R.CUL_LEAF_REGISTERED, .ro, .free, .none, 1, 0, 1, 1, 1⟩,
  ⟨R.CUL_LEAF_NODE, .ro, .free, .none, 1, 0, 4095, 1, 1⟩,
  ⟨R.CUL_LEAF_PORT, .ro, .free, .none, 1, 0, 127, 1, 1⟩,
  ⟨R.CUL_REPLAY_KIB, .ro, .free, .none, 1, 0, 4095, 1, 1⟩,
  ⟨R.CUL_REPLAY_AGE, .ro, .free, .none, 1, 0, 65535, 1, 1⟩,
  ⟨R.CUL_REPLAYED_COUNT, .rc, .free, .none, 1, 0, 4294967295, 1, 1⟩,
  ⟨R.CUL_SEL_PORT, .rw, .free, .none, 1, 0, 255, 1, 7⟩,
  ⟨R.CUL_PORT_CTL_INSVC, .rw, .free, .culSel, 1, 0, 1, 1, 7⟩,
  ⟨R.CUL_PORT_STAT_LINK, .ro, .free, .culSel, 1, 0, 7, 1, 7⟩,
  ⟨R.CUL_PORT_STAT_REG, .ro, .free, .culSel, 1, 0, 1, 1, 7⟩,
  ⟨R.CUL_PORT_STAT_PEER_NODE, .ro, .free, .culSel, 1, 0, 4095, 1, 7⟩,
  ⟨R.CUL_PORT_STAT_PEER_PORT, .ro, .free, .culSel, 1, 0, 127, 1, 7⟩,
  ⟨R.CUL_LAT_TX, .rw, .portOut, .culSel, 1, 0, 65535, 1, 7⟩,
  ⟨R.CUL_LAT_RX, .rw, .portOut, .culSel, 1, 0, 65535, 1, 7⟩,
  ⟨R.CUL_DOWNS_COUNT, .rc, .free, .culSel, 1, 0, 4294967295, 1, 7⟩,
  ⟨R.CUL_CRC_COUNT, .rc, .free, .culSel, 1, 0, 4294967295, 1, 7⟩,
  ⟨R.CUL_LAUNCH_JOB_JOB, .ro, .free, .none, 1, 0, 4294967295, 1, 1⟩,
  ⟨R.CUL_LAUNCH_NT_NT, .ro, .free, .none, 3, 0, 4294967295, 1, 1⟩,
  ⟨R.CUL_LAUNCH_CMD_ACK, .wo, .free, .none, 1, 0, 1, 1, 1⟩,
  ⟨R.CUL_LAUNCH_STAT_STATE, .ro, .free, .none, 1, 0, 3, 1, 1⟩,
  ⟨R.CUL_LAUNCH_STAT_ACKED, .ro, .free, .none, 1, 0, 1, 1, 1⟩]

def regRowsRED : List Row := [
  ⟨R.RED_SEL_GROUP, .rw, .free, .none, 1, 0, 1023, 1, 7⟩,
  ⟨R.RED_CTL_EN, .rw, .free, .redSel, 1, 0, 1, 1, 7⟩,
  ⟨R.RED_CTL_LOADED, .ro, .free, .redSel, 1, 0, 1, 1, 7⟩,
  ⟨R.RED_DEF_LO_ADDR, .rw, .redIdle, .redSel, 1, 0, 4294967295, 64, 7⟩,
  ⟨R.RED_DEF_HI_ADDR, .rw, .redIdle, .redSel, 1, 0, 4294967295, 1, 7⟩,
  ⟨R.RED_DEF_LEN_BYTES, .rw, .redIdle, .redSel, 1, 36, 1048608, 1, 7⟩,
  ⟨R.RED_CTX_CTX, .rw, .redIdle, .redSel, 1, 0, 63, 1, 7⟩,
  ⟨R.RED_STAT_OP, .ro, .free, .redSel, 1, 0, 7, 1, 7⟩,
  ⟨R.RED_STAT_ROOT_HERE, .ro, .free, .redSel, 1, 0, 1, 1, 7⟩,
  ⟨R.RED_STAT_ROOT, .ro, .free, .redSel, 1, 0, 4095, 1, 7⟩,
  ⟨R.RED_STAT_OPEN, .ro, .free, .redSel, 1, 0, 7, 1, 7⟩,
  ⟨R.RED_ROUNDS_COUNT, .ro, .free, .redSel, 1, 0, 4294967295, 1, 7⟩,
  ⟨R.RED_INCOMPLETE_COUNT, .rc, .free, .redSel, 1, 0, 4294967295, 1, 7⟩,
  ⟨R.RED_LATE_COUNT, .rc, .free, .redSel, 1, 0, 4294967295, 1, 7⟩,
  ⟨R.RED_TREE_CHG_COUNT, .rc, .free, .redSel, 1, 0, 4294967295, 1, 7⟩]

def regRowsFLW : List Row := [
  ⟨R.FLW_CFG_PERIOD_MS, .rw, .pageOff, .none, 1, 1, 1000, 1, 7⟩,
  ⟨R.FLW_CFG_REHOME_MS, .rw, .pageOff, .none, 1, 1, 255, 1, 7⟩,
  ⟨R.FLW_POOL_KIB, .rw, .pageOff, .none, 1, 0, 131071, 1, 7⟩,
  ⟨R.FLW_LEVEE_HIGH, .rw, .pageOff, .none, 1, 0, 255, 1, 7⟩,
  ⟨R.FLW_LEVEE_LOW, .rw, .pageOff, .none, 1, 0, 255, 1, 7⟩,
  ⟨R.FLW_ROUTE_WAIT_MS, .rw, .pageOff, .none, 1, 1, 60000, 1, 7⟩,
  ⟨R.FLW_STAT_PRESSURE, .ro, .free, .none, 1, 0, 1, 1, 7⟩,
  ⟨R.FLW_STAT_HEADROOM, .ro, .free, .none, 1, 0, 1, 1, 7⟩,
  ⟨R.FLW_STAT_RESV_SHORT, .ro, .free, .none, 1, 0, 1, 1, 7⟩,
  ⟨R.FLW_STAT_REHOMED, .ro, .free, .none, 1, 0, 1, 1, 1⟩,
  ⟨R.FLW_POOL_USE_KIB, .ro, .free, .none, 1, 0, 131071, 1, 7⟩,
  ⟨R.FLW_RESV_NEED, .ro, .free, .none, 1, 0, 65535, 1, 7⟩,
  ⟨R.FLW_RESV_AVAIL, .ro, .free, .none, 1, 0, 65535, 1, 7⟩,
  ⟨R.FLW_PERIOD_PERIOD, .ro, .free, .none, 1, 0, 4294967295, 1, 7⟩,
  ⟨R.FLW_NOROUTE_COUNT, .rc, .free, .none, 1, 0, 4294967295, 1, 7⟩,
  ⟨R.FLW_OVERRUN_COUNT, .rc, .free, .none, 1, 0, 4294967295, 1, 7⟩,
  ⟨R.FLW_LSEL_CLASS, .rw, .free, .none, 1, 0, 7, 1, 7⟩,
  ⟨R.FLW_LED_COUNT, .ro, .free, .flwLsel, 10, 0, 4294967295, 1, 7⟩,
  ⟨R.FLW_DROP_COUNT, .ro, .free, .flwLsel, 13, 0, 4294967295, 1, 7⟩,
  ⟨R.DLV_BASE_LO_BASE, .rw, .pageOff, .none, 8, 0, 4294967295, 64, 7⟩,
  ⟨R.DLV_BASE_HI_BASE, .rw, .pageOff, .none, 8, 0, 4294967295, 1, 7⟩,
  ⟨R.DLV_SIZE_KIB, .rw, .pageOff, .none, 8, 0, 1048575, 1, 7⟩,
  ⟨R.DLV_HEAD_HEAD, .rw, .free, .none, 8, 0, 4294967295, 1, 7⟩,
  ⟨R.DLV_TAIL_TAIL, .ro, .free, .none, 8, 0, 4294967295, 1, 7⟩]

def regRowsSHP : List Row := [
  ⟨R.SHP_PORT_SEL_PORT, .rw, .free, .none, 1, 0, 1023, 1, 7⟩,
  ⟨R.SHP_PCFG_OVERHEAD, .rw, .pageOff, .shpPort, 1, 0, 255, 1, 7⟩,
  ⟨R.SHP_PCFG_GLIST, .rw, .pageOff, .shpPort, 1, 0, 2, 1, 7⟩,
  ⟨R.SHP_RATE_MBPS, .rw, .pageOff, .shpPort, 1, 0, 1048575, 1, 7⟩,
  ⟨R.SHP_BURST_BYTES, .rw, .pageOff, .shpPort, 1, 0, 16777215, 1, 7⟩,
  ⟨R.SHP_QUANTUM_QA, .rw, .pageOff, .shpPort, 3, 64, 65535, 1, 7⟩,
  ⟨R.SHP_QUANTUM_QB, .rw, .pageOff, .shpPort, 3, 64, 65535, 1, 7⟩,
  ⟨R.SHP_OVERRUN_COUNT, .rc, .free, .shpPort, 1, 0, 4294967295, 1, 7⟩,
  ⟨R.SHP_GL_CFG_MODE, .rw, .free, .none, 2, 0, 2, 1, 7⟩,
  ⟨R.SHP_GL_CFG_TRACKER, .rw, .free, .none, 2, 0, 127, 1, 7⟩,
  ⟨R.SHP_GL_CFG_FALLBACK, .rw, .free, .none, 2, 0, 255, 1, 7⟩,
  ⟨R.SHP_GL_CFG_LEN, .rw, .free, .none, 2, 0, 255, 1, 7⟩,
  ⟨R.SHP_GL_BASE_LO_NT, .rw, .free, .none, 2, 0, 4294967295, 1, 7⟩,
  ⟨R.SHP_GL_BASE_HI_NT, .rw, .free, .none, 2, 0, 4294967295, 1, 7⟩,
  ⟨R.SHP_GL_CYCLE_NS, .rw, .free, .none, 2, 0, 4294967295, 1, 7⟩,
  ⟨R.SHP_GL_STAT_ENTRY, .ro, .free, .none, 2, 0, 255, 1, 7⟩,
  ⟨R.SHP_GL_STAT_GATES, .ro, .free, .none, 2, 0, 255, 1, 7⟩,
  ⟨R.SHP_GL_STAT_SWAP_PENDING, .ro, .free, .none, 2, 0, 1, 1, 7⟩,
  ⟨R.SHP_GL_STAT_FALLBACK_ON, .ro, .free, .none, 2, 0, 1, 1, 7⟩,
  ⟨R.SHP_GL_STAT_IGNORED, .rc, .free, .none, 2, 0, 16383, 1, 7⟩,
  ⟨R.SHP_CMD_GSWAP, .wo, .free, .none, 1, 0, 1, 1, 7⟩,
  ⟨R.SHP_CMD_LIST, .wo, .free, .none, 1, 0, 1, 1, 7⟩,
  ⟨R.SHP_GE_GATES, .rw, .free, .none, 512, 0, 255, 1, 7⟩,
  ⟨R.SHP_GE_DUR, .rw, .free, .none, 512, 0, 16777215, 1, 7⟩]

def regRowsPOL : List Row := [
  ⟨R.POL_SEL_PORT, .rw, .free, .none, 1, 0, 15, 1, 7⟩,
  ⟨R.POL_SEL_CLASS, .rw, .free, .none, 1, 3, 7, 1, 7⟩,
  ⟨R.POL_CTL_EN, .rw, .free, .polSel, 1, 0, 1, 1, 7⟩,
  ⟨R.POL_CTL_AWARE, .rw, .free, .polSel, 1, 0, 1, 1, 7⟩,
  ⟨R.POL_CIR_MBPS, .rw, .free, .polSel, 1, 0, 1048575, 1, 7⟩,
  ⟨R.POL_PIR_MBPS, .rw, .free, .polSel, 1, 1, 400000, 1, 7⟩,
  ⟨R.POL_CBS_BYTES, .rw, .free, .polSel, 1, 0, 16777215, 1, 7⟩,
  ⟨R.POL_PBS_BYTES, .rw, .free, .polSel, 1, 0, 16777215, 1, 7⟩,
  ⟨R.POL_GREEN_COUNT, .rc, .free, .polSel, 1, 0, 4294967295, 1, 7⟩,
  ⟨R.POL_YELLOW_COUNT, .rc, .free, .polSel, 1, 0, 4294967295, 1, 7⟩,
  ⟨R.POL_RED_COUNT, .rc, .free, .polSel, 1, 0, 4294967295, 1, 7⟩]

def regRowsTRC : List Row := [
  ⟨R.TRC_CFG_PORT_MODE, .rw, .pageOff, .none, 1, 0, 2, 1, 7⟩,
  ⟨R.TRC_CFG_BUF_MODE, .rw, .pageOff, .none, 1, 0, 2, 1, 7⟩,
  ⟨R.TRC_CFG_PRE, .rw, .pageOff, .none, 1, 0, 15, 1, 7⟩,
  ⟨R.TRC_CFG_LOW_LEVEE, .rw, .pageOff, .none, 1, 0, 255, 1, 7⟩,
  ⟨R.TRC_CFG_LP_SET, .rw, .pageOff, .none, 1, 0, 15, 1, 1⟩,
  ⟨R.TRC_BUF_KIB, .rw, .pageOff, .none, 1, 0, 65535, 1, 7⟩,
  ⟨R.TRC_STAT_FROZEN, .ro, .free, .none, 1, 0, 1, 1, 7⟩,
  ⟨R.TRC_STAT_FILLING, .ro, .free, .none, 1, 0, 1, 1, 7⟩,
  ⟨R.TRC_STAT_FUNNEL, .ro, .free, .none, 1, 0, 1, 1, 7⟩,
  ⟨R.TRC_STAT_LP, .ro, .free, .none, 1, 0, 1, 1, 7⟩,
  ⟨R.TRC_CMD_REARM, .wo, .free, .none, 1, 0, 1, 1, 7⟩,
  ⟨R.TRC_CMD_TRIGGER, .wo, .free, .none, 1, 0, 1, 1, 7⟩,
  ⟨R.TRC_CMD_LINE, .wo, .free, .none, 1, 0, 3, 1, 7⟩,
  ⟨R.TRC_BUF_WR_OFF, .ro, .free, .none, 1, 0, 16777215, 1, 7⟩,
  ⟨R.TRC_BUF_START_OFF, .ro, .free, .none, 1, 0, 16777215, 1, 7⟩,
  ⟨R.TRC_TRIG_POS_OFF, .ro, .free, .none, 1, 0, 16777215, 1, 7⟩,
  ⟨R.TRC_TRIG_EXTRA_COUNT, .rc, .free, .none, 1, 0, 4294967295, 1, 7⟩,
  ⟨R.TRC_RD_OFF_OFF, .rw, .free, .none, 1, 0, 16777215, 4, 7⟩,
  ⟨R.TRC_RD_DATA_DATA, .ro, .free, .none, 1, 0, 4294967295, 1, 7⟩,
  ⟨R.TRC_SYNCS_COUNT, .ro, .free, .none, 1, 0, 4294967295, 1, 7⟩,
  ⟨R.TRC_ID_EN, .rw, .free, .none, 128, 0, 1, 1, 7⟩,
  ⟨R.TRC_ID_PORT, .rw, .free, .none, 128, 0, 1, 1, 7⟩,
  ⟨R.TRC_ID_REC, .rw, .free, .none, 128, 0, 1, 1, 7⟩,
  ⟨R.TRC_ID_BUF, .rw, .free, .none, 128, 0, 1, 1, 7⟩,
  ⟨R.TRC_ID_PRIO, .rw, .free, .none, 128, 0, 1, 1, 7⟩,
  ⟨R.TRC_ID_CTX, .rw, .free, .none, 128, 0, 63, 1, 7⟩,
  ⟨R.TRC_DROP_COUNT, .rc, .free, .none, 128, 0, 4294967295, 1, 7⟩,
  ⟨R.WP_CTL_EN, .rw, .free, .none, 16, 0, 1, 1, 3⟩,
  ⟨R.WP_CTL_CMP, .rw, .free, .none, 16, 0, 2, 1, 3⟩,
  ⟨R.WP_CTL_TRIG, .rw, .free, .none, 16, 0, 1, 1, 3⟩,
  ⟨R.WP_CTL_LINE, .rw, .free, .none, 16, 0, 3, 1, 3⟩,
  ⟨R.WP_CTL_SLOT, .rw, .free, .none, 16, 0, 32767, 1, 3⟩,
  ⟨R.WP_THR_LO_THR, .rw, .free, .none, 16, 0, 4294967295, 1, 3⟩,
  ⟨R.WP_THR_HI_THR, .rw, .free, .none, 16, 0, 4294967295, 1, 3⟩,
  ⟨R.WP_HITS_COUNT, .rc, .free, .none, 16, 0, 4294967295, 1, 3⟩,
  ⟨R.TL_CTL_WP, .rw, .pageOff, .none, 4, 0, 1, 1, 7⟩,
  ⟨R.TL_CTL_IN, .rw, .pageOff, .none, 4, 0, 1, 1, 7⟩,
  ⟨R.TL_CTL_REMOTE, .rw, .pageOff, .none, 4, 0, 1, 1, 7⟩,
  ⟨R.TL_CTL_SOFT, .rw, .pageOff, .none, 4, 0, 1, 1, 7⟩,
  ⟨R.TL_CTL_OUT, .rw, .pageOff, .none, 4, 0, 1, 1, 7⟩]

def regRowsTRC1 : List Row := [
  ⟨R.TL_CTL_FREEZE, .rw, .pageOff, .none, 4, 0, 1, 1, 7⟩,
  ⟨R.TL_CTL_TRAY, .rw, .pageOff, .none, 4, 0, 1, 1, 7⟩,
  ⟨R.TL_CTL_FABRIC, .rw, .pageOff, .none, 4, 0, 1, 1, 6⟩,
  ⟨R.TL_CTL_WIDTH, .rw, .pageOff, .none, 4, 8, 1024, 1, 7⟩,
  ⟨R.TL_COUNT_COUNT, .rc, .free, .none, 4, 0, 4294967295, 1, 7⟩,
  ⟨R.TRC_SWMARK_VALUE, .wo, .free, .none, 16, 0, 18446744073709551615, 1, 7⟩]

def regRowsDBG : List Row := [
  ⟨R.DBG_CFG_STOP_LINES, .rw, .pageOff, .none, 1, 0, 15, 1, 7⟩,
  ⟨R.DBG_CFG_SCAN_HOST, .rw, .pageOff, .none, 1, 0, 1, 1, 7⟩,
  ⟨R.DBG_CFG_FREEZE, .rw, .pageOff, .none, 1, 0, 1, 1, 7⟩,
  ⟨R.DBG_CFG_TRACE, .rw, .pageOff, .none, 1, 0, 1, 1, 7⟩,
  ⟨R.DBG_CMD_STOP, .wo, .free, .none, 1, 0, 1, 1, 7⟩,
  ⟨R.DBG_STAT_STATE, .ro, .free, .none, 1, 0, 7, 1, 7⟩,
  ⟨R.DBG_STAT_HOST_ABSENT, .ro, .free, .none, 1, 0, 1, 1, 7⟩,
  ⟨R.DBG_STAT_TRUNCATED, .ro, .free, .none, 1, 0, 1, 1, 7⟩,
  ⟨R.DBG_DUMP_LO_ADDR, .rw, .pageOff, .none, 1, 0, 4294967295, 64, 7⟩,
  ⟨R.DBG_DUMP_HI_ADDR, .rw, .pageOff, .none, 1, 0, 4294967295, 1, 7⟩,
  ⟨R.DBG_DUMP_KIB_KIB, .rw, .pageOff, .none, 1, 64, 1048575, 1, 7⟩,
  ⟨R.DBG_DUMP_LEN_BYTES, .ro, .free, .none, 1, 0, 4294967295, 1, 7⟩,
  ⟨R.DBG_STOP_EXTRA_COUNT, .rc, .free, .none, 1, 0, 4294967295, 1, 7⟩,
  ⟨R.DBG_WDOG_MS_MS, .rw, .free, .none, 1, 0, 65535, 1, 7⟩,
  ⟨R.DBG_HANG_LO_ADDR, .rw, .free, .none, 64, 0, 4294967295, 64, 7⟩,
  ⟨R.DBG_HANG_HI_ADDR, .rw, .free, .none, 64, 0, 4294967295, 1, 7⟩,
  ⟨R.DBG_HANG_STAT_DONE, .w1c, .free, .none, 64, 0, 1, 1, 7⟩,
  ⟨R.DBG_HANG_STAT_QUEUE, .ro, .free, .none, 64, 0, 65535, 1, 7⟩]

def regRowsHLT : List Row := [
  ⟨R.HLT_WS_CFG_INTERVAL_S, .rw, .pageOff, .none, 1, 60, 86400, 1, 7⟩,
  ⟨R.HLT_WS_CFG_TEMP_CH, .rw, .pageOff, .none, 1, 0, 4095, 1, 7⟩,
  ⟨R.HLT_T_REF_TEMP, .rw, .pageOff, .none, 1, 0, 65535, 1, 7⟩,
  ⟨R.HLT_AGE_H_HOURS, .rw, .pageOff, .none, 1, 0, 4294967295, 1, 7⟩,
  ⟨R.HLT_SENS_RANGE_COUNT, .rc, .free, .none, 1, 0, 4294967295, 1, 7⟩,
  ⟨R.HLT_WS_SEL_WS, .rw, .free, .none, 1, 0, 63, 1, 7⟩,
  ⟨R.HLT_WS_BASE_F0, .rw, .pageOff, .hltWs, 1, 0, 4294967295, 1, 7⟩,
  ⟨R.HLT_WS_CLASS_CLASS, .ro, .free, .hltWs, 1, 0, 3, 1, 7⟩,
  ⟨R.HLT_WS_N_N, .rw, .pageOff, .hltWs, 1, 0, 4294967295, 1, 7⟩,
  ⟨R.HLT_WS_S1_S1, .rw, .pageOff, .hltWs, 2, 0, 4294967295, 1, 7⟩,
  ⟨R.HLT_WS_S2_S2, .rw, .pageOff, .hltWs, 2, 0, 4294967295, 1, 7⟩,
  ⟨R.HLT_WS_LAST_F_F, .ro, .free, .hltWs, 1, 0, 4294967295, 1, 7⟩,
  ⟨R.HLT_WM_NEXP_NEXP, .rw, .pageOff, .none, 4, 0, 4294967295, 1, 7⟩,
  ⟨R.HLT_WM_TC_TC, .rw, .pageOff, .none, 4, 0, 4294967295, 1, 7⟩,
  ⟨R.HLT_WM_LIM_LIM, .rw, .pageOff, .none, 4, 0, 4294967295, 1, 7⟩,
  ⟨R.HLT_WM_Z_Z, .rw, .pageOff, .none, 4, 0, 4294967295, 1, 7⟩,
  ⟨R.HLT_EOL_H_HOURS, .ro, .free, .none, 1, 0, 4294967295, 1, 7⟩,
  ⟨R.HLT_EARLY_H_HOURS, .ro, .free, .none, 1, 0, 4294967295, 1, 7⟩,
  ⟨R.HLT_LATE_H_HOURS, .ro, .free, .none, 1, 0, 4294967295, 1, 7⟩,
  ⟨R.HLT_SENS_EN_EN, .rw, .free, .none, 128, 0, 4294967295, 1, 7⟩]

def regRowsOPT : List Row := [
  ⟨R.OPT_CFG_EVAL_MS, .rw, .pageOff, .none, 1, 100, 60000, 1, 7⟩,
  ⟨R.OPT_CFG_SW_LIST, .rw, .pageOff, .none, 1, 0, 2, 1, 7⟩,
  ⟨R.OPT_CFG_SW_GATE, .rw, .pageOff, .none, 1, 1, 7, 1, 7⟩,
  ⟨R.OPT_CFG_CONV, .rw, .pageOff, .none, 1, 0, 31, 1, 7⟩,
  ⟨R.OPT_FADE_FADE_INT_S, .rw, .pageOff, .none, 1, 60, 65535, 1, 7⟩,
  ⟨R.OPT_FADE_PREARM_H, .rw, .pageOff, .none, 1, 1, 255, 1, 7⟩,
  ⟨R.OPT_FADE_Z, .rw, .pageOff, .none, 1, 0, 255, 1, 7⟩,
  ⟨R.OPT_LOC_EXCESS, .rw, .pageOff, .none, 1, 0, 65535, 1, 7⟩,
  ⟨R.OPT_LOC_DEBOUNCE, .rw, .pageOff, .none, 1, 1, 15, 1, 7⟩,
  ⟨R.OPT_SW_LANE_LANE, .ro, .free, .none, 1, 0, 511, 1, 7⟩,
  ⟨R.OPT_SW_LANE_KIND, .ro, .free, .none, 1, 0, 1, 1, 7⟩,
  ⟨R.OPT_SW_LANE_COUNT, .ro, .free, .none, 1, 0, 65535, 1, 7⟩,
  ⟨R.OPT_LSEL_LANE, .rw, .free, .none, 1, 0, 511, 1, 7⟩,
  ⟨R.LN_CFG_MODE, .rw, .free, .optL, 1, 0, 2, 1, 7⟩,
  ⟨R.LN_CFG_MUXGRP, .rw, .free, .optL, 1, 0, 255, 1, 7⟩,
  ⟨R.LN_CFG_CPLGRP, .rw, .free, .optL, 1, 0, 255, 1, 7⟩,
  ⟨R.LN_CH0_CH_LAS, .rw, .free, .optL, 1, 0, 4095, 1, 7⟩,
  ⟨R.LN_CH0_CH_MOD, .rw, .free, .optL, 1, 0, 4095, 1, 7⟩,
  ⟨R.LN_CH1_CH_MUX, .rw, .free, .optL, 1, 0, 4095, 1, 7⟩,
  ⟨R.LN_CH1_CH_CPL, .rw, .free, .optL, 1, 0, 4095, 1, 7⟩,
  ⟨R.LN_CH2_CH_RX, .rw, .free, .optL, 1, 0, 4095, 1, 7⟩,
  ⟨R.LN_NOM_NOM, .rw, .free, .optL, 1, 0, 4294967295, 1, 7⟩,
  ⟨R.LN_PWR_P_LAS_NOM, .rw, .free, .optL, 1, 0, 65535, 1, 7⟩,
  ⟨R.LN_PWR_P_MIN, .rw, .free, .optL, 1, 0, 65535, 1, 7⟩,
  ⟨R.LN_KEY_KEY, .rw, .free, .optL, 1, 0, 4294967295, 1, 7⟩,
  ⟨R.LN_SPARE_GRP, .rw, .free, .optL, 1, 0, 15, 1, 7⟩,
  ⟨R.LN_SPARE_CH, .rw, .free, .optL, 1, 0, 63, 1, 7⟩,
  ⟨R.LN_SPARE_EN, .rw, .free, .optL, 1, 0, 1, 1, 7⟩,
  ⟨R.LN_STAT_FSTATE, .ro, .free, .optL, 1, 0, 7, 1, 7⟩,
  ⟨R.LN_STAT_LOC, .ro, .free, .optL, 1, 0, 7, 1, 7⟩,
  ⟨R.LN_STAT_SCOPE, .ro, .free, .optL, 1, 0, 3, 1, 7⟩,
  ⟨R.OPT_HSEL_GRP, .rw, .free, .none, 1, 0, 15, 1, 7⟩,
  ⟨R.HG_CFG_EN, .rw, .free, .optH, 1, 0, 1, 1, 7⟩,
  ⟨R.HG_CFG_N, .rw, .loopOff, .optH, 1, 1, 64, 1, 7⟩,
  ⟨R.HG_CFG_MEAS_BASE, .rw, .loopOff, .optH, 1, 0, 4095, 1, 7⟩,
  ⟨R.HG_GAIN_GAIN, .rw, .free, .optH, 1, 0, 255, 1, 7⟩,
  ⟨R.HG_GAIN_GSHIFT, .rw, .free, .optH, 1, 0, 15, 1, 7⟩,
  ⟨R.HG_GAIN_DMAX, .rw, .free, .optH, 1, 0, 4095, 1, 7⟩,
  ⟨R.HG_GAIN_DITHER, .rw, .free, .optH, 1, 0, 15, 1, 7⟩,
  ⟨R.HG_HOLD_HOLD, .rw, .free, .optH, 2, 0, 4294967295, 1, 7⟩]

def regRowsOPT1 : List Row := [
  ⟨R.HG_IDX_IDX, .rw, .free, .optH, 1, 0, 4095, 1, 7⟩,
  ⟨R.HG_SP_SP, .rw, .free, .optHIdx, 1, 0, 65535, 1, 7⟩,
  ⟨R.HG_MX_MINV, .wo, .free, .optHIdx, 1, 0, 65535, 1, 7⟩,
  ⟨R.HG_CODE_CODE, .ro, .free, .optHIdx, 1, 0, 65535, 1, 7⟩,
  ⟨R.HG_CMD_SWAP, .wo, .free, .optH, 1, 0, 1, 1, 7⟩,
  ⟨R.HG_CMD_CAL, .wo, .free, .optH, 1, 0, 1, 1, 7⟩,
  ⟨R.HG_STAT_CAL, .ro, .free, .optH, 1, 0, 3, 1, 7⟩,
  ⟨R.HG_STAT_CAL_RUN, .ro, .free, .optH, 1, 0, 1, 1, 7⟩,
  ⟨R.HG_STAT_MISSED, .rc, .free, .optH, 1, 0, 65535, 1, 7⟩]

def regRowsVRD : List Row := [
  ⟨R.VRD_CFG_QUORUM, .ro, .free, .none, 1, 0, 15, 1, 7⟩,
  ⟨R.VRD_CFG_WARDENS, .ro, .free, .none, 1, 0, 15, 1, 7⟩,
  ⟨R.VRD_CFG_WARDEN, .ro, .free, .none, 1, 0, 1, 1, 7⟩,
  ⟨R.VRD_CFG_BALLOT_MS, .rw, .pageOff, .none, 1, 10, 10000, 1, 7⟩,
  ⟨R.VRD_JOB_SIZE_SIZE, .rw, .free, .none, 1, 0, 524287, 1, 7⟩,
  ⟨R.VRD_JOB_ID_JOB, .rw, .free, .none, 1, 0, 4294967295, 1, 7⟩,
  ⟨R.VRD_ARBITER_NODE, .rw, .free, .none, 1, 0, 4095, 1, 7⟩,
  ⟨R.VRD_ARBITER_HERE, .ro, .free, .none, 1, 0, 1, 1, 7⟩,
  ⟨R.VRD_BUDGET_BUDGET, .rw, .free, .none, 1, 1, 10000, 1, 7⟩,
  ⟨R.VRD_SPARE_POOL, .rw, .free, .none, 1, 0, 65535, 1, 7⟩,
  ⟨R.VRD_SPARE_FLOOR, .rw, .free, .none, 1, 0, 65535, 1, 7⟩,
  ⟨R.VRD_SPARE_STAT_TAKEN, .ro, .free, .none, 1, 0, 65535, 1, 7⟩,
  ⟨R.VRD_SPARE_STAT_HOUR, .ro, .free, .none, 1, 0, 65535, 1, 7⟩,
  ⟨R.VRD_STRAG_LIMIT, .rw, .free, .none, 1, 1, 262144, 1, 7⟩,
  ⟨R.VRD_STRAG_DIV_DIV, .rw, .free, .none, 1, 1, 65535, 1, 7⟩,
  ⟨R.VRD_TIMES_HOLD_S, .rw, .free, .none, 1, 1, 65535, 1, 7⟩,
  ⟨R.VRD_TTL_S, .rw, .free, .none, 1, 60, 4294967295, 1, 7⟩,
  ⟨R.VRD_STAT_QUORUM_UNREACHABLE, .ro, .free, .none, 1, 0, 1, 1, 7⟩,
  ⟨R.VRD_STAT_LOG_FAULT, .ro, .free, .none, 1, 0, 1, 1, 7⟩,
  ⟨R.VRD_STAT_ORDERS, .ro, .free, .none, 1, 0, 255, 1, 7⟩,
  ⟨R.VRD_STAT_WITHHELD, .ro, .free, .none, 1, 0, 65535, 1, 7⟩,
  ⟨R.VRD_VERDICTS_COUNT, .ro, .free, .none, 1, 0, 4294967295, 1, 7⟩,
  ⟨R.VRD_AUTH_FAIL_COUNT, .rc, .free, .none, 1, 0, 4294967295, 1, 7⟩,
  ⟨R.VRD_REPEATS_COUNT, .rc, .free, .none, 1, 0, 4294967295, 1, 7⟩,
  ⟨R.VRD_ENTRY_FULL_COUNT, .rc, .free, .none, 1, 0, 65535, 1, 7⟩,
  ⟨R.VRD_ENTRY_FULL_NOT_ARBITER, .rc, .free, .none, 1, 0, 65535, 1, 7⟩,
  ⟨R.VRD_LOG_BASE_LO_BASE, .rw, .pageOff, .none, 1, 0, 4294967295, 64, 7⟩,
  ⟨R.VRD_LOG_BASE_HI_BASE, .rw, .pageOff, .none, 1, 0, 4294967295, 1, 7⟩,
  ⟨R.VRD_LOG_SIZE_KIB, .rw, .pageOff, .none, 1, 0, 1048575, 1, 7⟩,
  ⟨R.VRD_LOG_TAIL_OFF, .ro, .free, .none, 1, 0, 4294967295, 1, 7⟩,
  ⟨R.VRD_CMD_AUTHORISE, .wo, .free, .none, 1, 0, 1, 1, 7⟩,
  ⟨R.VRD_CMD_HOLD, .wo, .free, .none, 1, 0, 1, 1, 7⟩,
  ⟨R.VRD_CMD_UNHOLD, .wo, .free, .none, 1, 0, 1, 1, 7⟩,
  ⟨R.VRD_CMD_LIFT, .wo, .free, .none, 1, 0, 1, 1, 7⟩,
  ⟨R.VRD_CMD_VOTE_YES, .wo, .free, .none, 1, 0, 1, 1, 7⟩,
  ⟨R.VRD_CMD_VOTE_NO, .wo, .free, .none, 1, 0, 1, 1, 7⟩,
  ⟨R.VRD_CMD_LOG_RESTART, .wo, .free, .none, 1, 0, 1, 1, 7⟩,
  ⟨R.VRD_CMD_ENTRY, .wo, .free, .none, 1, 0, 255, 1, 7⟩,
  ⟨R.VRD_ESEL_ENTRY, .rw, .free, .none, 1, 0, 255, 1, 7⟩,
  ⟨R.VRD_ESTAT_STATE, .ro, .free, .vrdE, 1, 0, 7, 1, 7⟩]

def regRowsVRD1 : List Row := [
  ⟨R.VRD_ESTAT_AKIND, .ro, .free, .vrdE, 1, 0, 3, 1, 7⟩,
  ⟨R.VRD_ESTAT_REASON, .ro, .free, .vrdE, 1, 0, 255, 1, 7⟩,
  ⟨R.VRD_ESTAT_YES, .ro, .free, .vrdE, 1, 0, 15, 1, 7⟩,
  ⟨R.VRD_ESTAT_NO, .ro, .free, .vrdE, 1, 0, 15, 1, 7⟩,
  ⟨R.VRD_ESTAT_AUTH, .ro, .free, .vrdE, 1, 0, 31, 1, 7⟩,
  ⟨R.VRD_ESUBJ_SUBJECT, .ro, .free, .vrdE, 1, 0, 4294967295, 1, 7⟩,
  ⟨R.VRD_ORD_LO_ADDR, .rw, .free, .none, 1, 0, 4294967295, 64, 7⟩,
  ⟨R.VRD_ORD_HI_ADDR, .rw, .free, .none, 1, 0, 4294967295, 1, 7⟩,
  ⟨R.VRD_ORD_LEN_BYTES, .rw, .free, .none, 1, 164, 964, 1, 7⟩,
  ⟨R.VRD_ORD_CTX_CTX, .rw, .free, .none, 1, 0, 63, 1, 7⟩,
  ⟨R.VRD_ORD_CMD_LOAD, .wo, .free, .none, 1, 0, 1, 1, 7⟩,
  ⟨R.VRD_ORD_CMD_REVOKE, .wo, .free, .none, 1, 0, 1, 1, 7⟩,
  ⟨R.VRD_ORD_CMD_SLOT, .wo, .free, .none, 1, 0, 31, 1, 7⟩,
  ⟨R.VRD_ORD_VALID_MASK, .ro, .free, .none, 1, 0, 4294967295, 1, 7⟩,
  ⟨R.VRD_WARDEN_NODE, .ro, .free, .none, 9, 0, 4095, 1, 7⟩,
  ⟨R.VRD_POL_EXPEL_CLASS, .rw, .free, .none, 128, 0, 15, 1, 7⟩]

def regRowsCMP : List Row := [
  ⟨R.CMP_CFG_ABORT_SAVE, .rw, .pageOff, .none, 1, 0, 1, 1, 7⟩,
  ⟨R.CMP_SAVE_LO_ADDR, .rw, .pageOff, .none, 1, 0, 4294967295, 4096, 7⟩,
  ⟨R.CMP_SAVE_HI_ADDR, .rw, .pageOff, .none, 1, 0, 4294967295, 1, 7⟩,
  ⟨R.CMP_RECPACK_TRACE, .rw, .free, .none, 1, 0, 1, 1, 7⟩,
  ⟨R.CMP_RECPACK_MARKER, .rw, .free, .none, 1, 0, 1, 1, 7⟩,
  ⟨R.CMP_RECPACK_DEPTH, .rw, .free, .none, 1, 0, 255, 1, 7⟩,
  ⟨R.CMP_SLOTS_OPEN, .ro, .free, .none, 1, 0, 65535, 1, 7⟩,
  ⟨R.CMP_SLOTS_CHAN, .ro, .free, .none, 1, 0, 65535, 1, 7⟩,
  ⟨R.CMP_IN_KIB_KIB, .ro, .free, .none, 1, 0, 4294967295, 1, 7⟩,
  ⟨R.CMP_OUT_KIB_KIB, .ro, .free, .none, 1, 0, 4294967295, 1, 7⟩,
  ⟨R.CMP_NOGAIN_COUNT, .rc, .free, .none, 1, 0, 4294967295, 1, 7⟩,
  ⟨R.CMP_RECPACK_NG_COUNT, .rc, .free, .none, 1, 0, 4294967295, 1, 7⟩,
  ⟨R.CMP_CMD_ARCHIVE, .wo, .free, .none, 1, 0, 1, 1, 7⟩,
  ⟨R.CH_CFG_EN, .rw, .pageOff, .none, 4, 0, 1, 1, 7⟩,
  ⟨R.CH_CFG_AUTO, .rw, .pageOff, .none, 4, 0, 1, 1, 7⟩,
  ⟨R.CH_CFG_DEPTH, .rw, .pageOff, .none, 4, 0, 255, 1, 7⟩,
  ⟨R.CH_CFG_SLOT, .rw, .pageOff, .none, 4, 0, 15, 1, 7⟩,
  ⟨R.CH_BASE_LO_BASE, .rw, .pageOff, .none, 4, 0, 4294967295, 64, 7⟩,
  ⟨R.CH_BASE_HI_BASE, .rw, .pageOff, .none, 4, 0, 4294967295, 1, 7⟩,
  ⟨R.CH_SIZE_KIB, .rw, .pageOff, .none, 4, 0, 1048575, 1, 7⟩,
  ⟨R.CH_HEAD_HEAD, .rw, .free, .none, 4, 0, 4294967295, 1, 7⟩,
  ⟨R.CH_TAIL_TAIL, .ro, .free, .none, 4, 0, 4294967295, 1, 7⟩,
  ⟨R.CH_LOST_COUNT, .rc, .free, .none, 4, 0, 4294967295, 1, 7⟩,
  ⟨R.CH_STORED_COUNT, .rc, .free, .none, 4, 0, 4294967295, 1, 7⟩]

def regRowsPCK : List Row := [
  ⟨R.PCK_PACKED_COUNT, .ro, .free, .none, 1, 0, 4294967295, 1, 7⟩,
  ⟨R.PCK_RAW_COUNT, .ro, .free, .none, 1, 0, 4294967295, 1, 7⟩,
  ⟨R.PCK_IN_KIB_KIB, .ro, .free, .none, 1, 0, 4294967295, 1, 7⟩,
  ⟨R.PCK_OUT_KIB_KIB, .ro, .free, .none, 1, 0, 4294967295, 1, 7⟩]

def regRowsEVR : List Row := [
  ⟨R.EVR_CFG_REPEAT_MS, .rw, .free, .none, 1, 0, 65535, 1, 7⟩,
  ⟨R.EVR_CFG_PACK, .rw, .pageOff, .none, 1, 0, 1, 1, 7⟩,
  ⟨R.EVR_NV_BASE_UNIT, .rw, .pageOff, .none, 1, 0, 4294967295, 1, 7⟩,
  ⟨R.EVR_NV_UNITS_UNITS, .rw, .pageOff, .none, 1, 0, 4294967295, 1, 7⟩,
  ⟨R.EVR_FLUSH_MS_MS, .rw, .pageOff, .none, 1, 1, 60000, 1, 7⟩,
  ⟨R.EVR_STAT_MIRROR_RUN, .ro, .free, .none, 1, 0, 1, 1, 7⟩,
  ⟨R.EVR_STAT_NV_BLANK, .ro, .free, .none, 1, 0, 1, 1, 7⟩,
  ⟨R.EVR_STAT_NV_STOPPED, .ro, .free, .none, 1, 0, 1, 1, 7⟩,
  ⟨R.EVR_STAT_SB, .ro, .free, .none, 1, 0, 1, 1, 7⟩,
  ⟨R.EVR_OPTIME_S, .rw, .pageOff, .none, 1, 0, 4294967295, 1, 7⟩,
  ⟨R.EVR_PCYCLE_COUNT, .rw, .pageOff, .none, 1, 0, 4294967295, 1, 7⟩,
  ⟨R.EVR_ENTRIES_COUNT, .ro, .free, .none, 1, 0, 4294967295, 1, 7⟩,
  ⟨R.EVR_NEWEST_SEQ_SEQ, .ro, .free, .none, 1, 0, 4294967295, 1, 7⟩,
  ⟨R.EVR_OLDEST_OFF, .ro, .free, .none, 1, 0, 2097151, 1, 7⟩,
  ⟨R.EVR_NEWEST_OFF, .ro, .free, .none, 1, 0, 2097151, 1, 7⟩,
  ⟨R.EVR_OVERWRITTEN_COUNT, .rc, .free, .none, 1, 0, 4294967295, 1, 7⟩,
  ⟨R.EVR_MIRROR_LOST_COUNT, .rc, .free, .none, 1, 0, 4294967295, 1, 7⟩,
  ⟨R.EVR_UNMIRRORED_COUNT, .ro, .free, .none, 1, 0, 4294967295, 1, 7⟩,
  ⟨R.EVR_RD_OFF_OFF, .rw, .free, .none, 1, 0, 2097151, 4, 7⟩,
  ⟨R.EVR_RD_DATA_DATA, .ro, .free, .none, 1, 0, 4294967295, 1, 7⟩,
  ⟨R.EVR_HOST_ADDR_LO_ADDR, .rw, .free, .none, 1, 0, 4294967295, 8, 7⟩,
  ⟨R.EVR_HOST_ADDR_HI_ADDR, .rw, .free, .none, 1, 0, 4294967295, 1, 7⟩,
  ⟨R.EVR_HOST_LEN_BYTES, .rw, .free, .none, 1, 0, 1023, 1, 7⟩,
  ⟨R.EVR_HOST_LEN_CODE, .rw, .free, .none, 1, 0, 65535, 1, 7⟩,
  ⟨R.EVR_CMD_WRITE, .wo, .free, .none, 1, 0, 1, 1, 7⟩,
  ⟨R.EVR_CMD_MIRROR_RESTART, .wo, .free, .none, 1, 0, 1, 1, 7⟩,
  ⟨R.EVR_CMD_FORMAT, .wo, .free, .none, 1, 0, 1, 1, 7⟩]

def regRowsMBX : List Row := [
  ⟨R.MBX_OWNER_CTX, .rw, .pageOff, .none, 16, 0, 63, 1, 7⟩,
  ⟨R.DB_IN_LO_BITS, .w1s, .free, .none, 1, 0, 4294967295, 1, 7⟩,
  ⟨R.DB_IN_HI_BITS, .w1s, .free, .none, 1, 0, 4294967295, 1, 7⟩,
  ⟨R.DB_OUT_LO_BITS, .w1c, .free, .none, 1, 0, 4294967295, 1, 7⟩,
  ⟨R.DB_OUT_HI_BITS, .w1c, .free, .none, 1, 0, 4294967295, 1, 7⟩,
  ⟨R.MBX_DATA_DATA, .rw, .free, .none, 128, 0, 18446744073709551615, 1, 7⟩,
  ⟨R.MBX_CTL_PUSH, .wo, .free, .none, 16, 0, 1, 1, 7⟩,
  ⟨R.MBX_CTL_ABORT, .wo, .free, .none, 16, 0, 1, 1, 7⟩,
  ⟨R.MBX_CTL_LEN, .wo, .free, .none, 16, 0, 127, 1, 7⟩,
  ⟨R.MBX_STAT_FULL, .ro, .free, .none, 16, 0, 1, 1, 7⟩,
  ⟨R.MBX_STAT_TAKEN, .ro, .free, .none, 16, 0, 1, 1, 7⟩,
  ⟨R.MBX_STAT_LEN, .ro, .free, .none, 16, 0, 127, 1, 7⟩,
  ⟨R.MBX_POP_LEN, .rc, .free, .none, 16, 0, 127, 1, 7⟩]

def regRowsCTX : List Row := [
  ⟨R.CTX_OPER_CTX, .ro, .free, .none, 1, 0, 63, 1, 7⟩,
  ⟨R.CTX_CMD_KILL, .wo, .free, .none, 1, 0, 1, 1, 7⟩,
  ⟨R.CTX_CMD_CTX, .wo, .free, .none, 1, 0, 63, 1, 7⟩,
  ⟨R.CTX_SWITCHES_COUNT, .ro, .free, .none, 1, 0, 4294967295, 1, 7⟩,
  ⟨R.CTX_CFG_EN, .rw, .free, .none, 64, 0, 1, 1, 7⟩,
  ⟨R.CTX_CFG_OPER, .ro, .free, .none, 64, 0, 1, 1, 7⟩,
  ⟨R.CTX_CFG_WEIGHT, .rw, .free, .none, 64, 1, 255, 1, 7⟩,
  ⟨R.CTX_OPB_BASE, .rw, .free, .none, 64, 0, 65535, 1, 7⟩,
  ⟨R.CTX_OPB_KIB, .rw, .free, .none, 64, 0, 65535, 1, 7⟩,
  ⟨R.CTX_DENSE_FIRST, .rw, .free, .none, 64, 0, 2047, 1, 7⟩,
  ⟨R.CTX_DENSE_COUNT, .rw, .free, .none, 64, 0, 2047, 1, 7⟩,
  ⟨R.CTX_STAT_CLEARING, .ro, .free, .none, 64, 0, 1, 1, 7⟩,
  ⟨R.CTX_STAT_KEY, .ro, .free, .none, 64, 0, 1, 1, 7⟩,
  ⟨R.CTX_STAT_QUEUES, .ro, .free, .none, 64, 0, 255, 1, 7⟩,
  ⟨R.CTX_BUSY_LO_CYCLES, .ro, .free, .none, 64, 0, 4294967295, 1, 7⟩,
  ⟨R.CTX_BUSY_HI_CYCLES, .ro, .free, .none, 64, 0, 4294967295, 1, 7⟩]

def regRowsSEC : List Row := [
  ⟨R.SEC_CFG_REKEY_S, .rw, .pageOff, .none, 1, 60, 65535, 1, 7⟩,
  ⟨R.SEC_STAT_BLOB, .ro, .free, .none, 1, 0, 3, 1, 7⟩,
  ⟨R.SEC_STAT_ANCHORS, .ro, .free, .none, 1, 0, 7, 1, 7⟩,
  ⟨R.SEC_STAT_DENY, .ro, .free, .none, 1, 0, 127, 1, 7⟩,
  ⟨R.SEC_BLOB_VER_VERSION, .ro, .free, .none, 1, 0, 4294967295, 1, 7⟩,
  ⟨R.SEC_CMD_REKEY, .wo, .free, .none, 1, 0, 1, 1, 7⟩,
  ⟨R.SEC_CMD_RELOAD, .wo, .free, .none, 1, 0, 1, 1, 7⟩,
  ⟨R.SEC_SEL_PORT, .rw, .free, .none, 1, 0, 1023, 1, 7⟩,
  ⟨R.SEC_PSTAT_STATE, .ro, .free, .secSel, 1, 0, 7, 1, 7⟩,
  ⟨R.SEC_PSTAT_GEN, .ro, .free, .secSel, 1, 0, 255, 1, 7⟩,
  ⟨R.SEC_PSTAT_AGE_S, .ro, .free, .secSel, 1, 0, 65535, 1, 7⟩,
  ⟨R.SEC_PEER_LO_ID, .ro, .free, .secSel, 1, 0, 4294967295, 1, 7⟩,
  ⟨R.SEC_PEER_HI_ID, .ro, .free, .secSel, 1, 0, 4294967295, 1, 7⟩,
  ⟨R.SEC_FAILS_COUNT, .rc, .free, .secSel, 1, 0, 4294967295, 1, 7⟩,
  ⟨R.SEC_TAG_FAIL_COUNT, .rc, .free, .secSel, 1, 0, 4294967295, 1, 7⟩,
  ⟨R.SEC_CLEAR_DISC_COUNT, .rc, .free, .secSel, 1, 0, 4294967295, 1, 7⟩,
  ⟨R.SEC_SESSIONS_UP, .ro, .free, .none, 1, 0, 65535, 1, 7⟩,
  ⟨R.SEC_SESSIONS_RESEEDS, .ro, .free, .none, 1, 0, 65535, 1, 7⟩]

def regRowsSAF : List Row := [
  ⟨R.SAF_CFG_SCRUB_DIS, .rw, .free, .none, 1, 0, 1, 1, 7⟩,
  ⟨R.SAF_CFG_GAR_KAT_DIS, .rw, .free, .none, 1, 0, 1, 1, 7⟩,
  ⟨R.SAF_CFG_AGT_KAT_DIS, .rw, .free, .none, 1, 0, 1, 1, 7⟩,
  ⟨R.SAF_CFG_LEDGER_DIS, .rw, .free, .none, 1, 0, 1, 1, 7⟩,
  ⟨R.SAF_CFG_DF_HAZARD, .rw, .free, .none, 1, 0, 1, 1, 7⟩,
  ⟨R.SAF_STAT_DF_LATCHED, .ro, .free, .none, 1, 0, 1, 1, 7⟩,
  ⟨R.SAF_STAT_CTRL_HELD, .ro, .free, .none, 1, 0, 1, 1, 7⟩,
  ⟨R.SAF_STAT_HAZARD, .ro, .free, .none, 1, 0, 1, 1, 7⟩,
  ⟨R.SAF_STAT_SUSPENDED, .ro, .free, .none, 1, 0, 1, 1, 7⟩,
  ⟨R.SAF_STAT_INJ_BUSY, .ro, .free, .none, 1, 0, 1, 1, 7⟩,
  ⟨R.SAF_CMD_CLEAR, .wo, .free, .none, 1, 0, 1, 1, 7⟩,
  ⟨R.SAF_CMD_INJECT, .wo, .free, .none, 1, 0, 1, 1, 7⟩,
  ⟨R.SAF_CMD_INJ_DIAG, .wo, .free, .none, 1, 1, 17, 1, 7⟩,
  ⟨R.SAF_CMD_INJ_INDEX, .wo, .free, .none, 1, 0, 65535, 1, 7⟩,
  ⟨R.SAF_ROUND_US, .ro, .free, .none, 1, 0, 65535, 1, 7⟩,
  ⟨R.SAF_LAYER_SUSPECT_COUNT, .rc, .free, .none, 1, 0, 4294967295, 1, 7⟩,
  ⟨R.SAF_HZ_SRC_SRC, .ro, .free, .none, 1, 0, 3, 1, 7⟩,
  ⟨R.SAF_HZ_SRC_INDEX, .ro, .free, .none, 1, 0, 65535, 1, 7⟩,
  ⟨R.SAF_HZ_COUNT_COUNT, .rc, .free, .none, 1, 0, 4294967295, 1, 7⟩,
  ⟨R.SAF_CFG_CRC_CRC, .ro, .free, .none, 1, 0, 4294967295, 1, 7⟩,
  ⟨R.SAF_DF_COUNT, .rc, .free, .none, 7, 0, 4294967295, 1, 7⟩,
  ⟨R.SAF_HZ_LIM_LO, .ro, .free, .none, 64, 0, 65535, 1, 7⟩,
  ⟨R.SAF_HZ_LIM_HI, .ro, .free, .none, 64, 0, 65535, 1, 7⟩,
  ⟨R.SAF_DSEL_DIAG, .rw, .free, .none, 1, 1, 17, 1, 7⟩,
  ⟨R.SAF_DRUNS_COUNT, .ro, .free, .safD, 1, 0, 4294967295, 1, 7⟩,
  ⟨R.SAF_DFAILS_COUNT, .rc, .free, .safD, 1, 0, 4294967295, 1, 7⟩,
  ⟨R.SAF_DLAST_LO_NT, .ro, .free, .safD, 1, 0, 4294967295, 1, 7⟩,
  ⟨R.SAF_DLAST_HI_NT, .ro, .free, .safD, 1, 0, 4294967295, 1, 7⟩,
  ⟨R.SAF_DCORR_COUNT, .rc, .free, .safD, 1, 0, 4294967295, 1, 7⟩]

def regRowsPWR : List Row := [
  ⟨R.PWR_DOM_CORE_AUTO, .rw, .free, .none, 1, 0, 1, 1, 7⟩,
  ⟨R.PWR_DOM_GAR_AUTO, .rw, .free, .none, 1, 0, 1, 1, 7⟩,
  ⟨R.PWR_DOM_GAR_ON, .rw, .free, .none, 1, 0, 1, 1, 7⟩,
  ⟨R.PWR_DOM_CORE_ON, .rw, .free, .none, 1, 0, 1, 1, 7⟩,
  ⟨R.PWR_DOM_CORE_ST, .ro, .free, .none, 1, 0, 3, 1, 7⟩,
  ⟨R.PWR_DOM_GAR_ST, .ro, .free, .none, 1, 0, 3, 1, 7⟩,
  ⟨R.PWR_DOM_GROUPS, .ro, .free, .none, 1, 0, 15, 1, 7⟩,
  ⟨R.PWR_START_AON, .ro, .free, .none, 1, 0, 1, 1, 7⟩,
  ⟨R.PWR_START_CORE, .ro, .free, .none, 1, 0, 1, 1, 7⟩,
  ⟨R.PWR_START_BOOT, .ro, .free, .none, 1, 0, 1, 1, 7⟩,
  ⟨R.PWR_START_LOG, .ro, .free, .none, 1, 0, 1, 1, 7⟩,
  ⟨R.PWR_START_BLOB, .ro, .free, .none, 1, 0, 1, 1, 7⟩,
  ⟨R.PWR_START_SELFTEST, .ro, .free, .none, 1, 0, 1, 1, 7⟩,
  ⟨R.PWR_START_TIME, .ro, .free, .none, 1, 0, 1, 1, 7⟩,
  ⟨R.PWR_START_FABRIC, .ro, .free, .none, 1, 0, 1, 1, 7⟩,
  ⟨R.PWR_START_DONE, .ro, .free, .none, 1, 0, 1, 1, 7⟩,
  ⟨R.PWR_START_MS_MS, .ro, .free, .none, 1, 0, 4294967295, 1, 7⟩,
  ⟨R.PWR_WAKE_CFG_INTERVAL_US, .rw, .free, .none, 1, 10, 1000, 1, 2⟩,
  ⟨R.PWR_WAKE_CFG_PGOOD_MS, .rw, .free, .none, 1, 1, 1000, 1, 2⟩,
  ⟨R.PWR_QUEUE_DEPTH, .ro, .free, .none, 1, 0, 255, 1, 2⟩,
  ⟨R.PWR_QUEUE_ALERT, .ro, .free, .none, 1, 0, 255, 1, 2⟩,
  ⟨R.PWR_DEFERRED_COUNT, .rc, .free, .none, 1, 0, 4294967295, 1, 2⟩,
  ⟨R.PWR_ALERT_BLOCK_COUNT, .rc, .free, .none, 1, 0, 4294967295, 1, 2⟩,
  ⟨R.PWR_BUDGET_A, .rw, .free, .none, 8, 1, 255, 1, 2⟩,
  ⟨R.PWR_WAKE_REQ_REQ, .w1s, .free, .none, 4, 0, 4294967295, 1, 2⟩,
  ⟨R.PWR_WAKE_OFF_OFF, .wo, .free, .none, 4, 0, 4294967295, 1, 2⟩,
  ⟨R.PWR_WAKE_STAT_WAKE, .ro, .free, .none, 4, 0, 4294967295, 1, 2⟩,
  ⟨R.PWR_QUEUED_QUEUED, .ro, .free, .none, 4, 0, 4294967295, 1, 2⟩,
  ⟨R.PWR_PGOOD_PGOOD, .ro, .free, .none, 4, 0, 4294967295, 1, 2⟩,
  ⟨R.PWR_PGOOD_FAIL_FAIL, .w1c, .free, .none, 4, 0, 4294967295, 1, 2⟩,
  ⟨R.PWR_DIE_STEP_A, .rw, .free, .none, 128, 0, 255, 1, 2⟩,
  ⟨R.PWR_DIE_SEG, .rw, .free, .none, 128, 0, 7, 1, 2⟩]

def regRowsUPD : List Row := [
  ⟨R.UPD_IMG_SIZE_KIB, .ro, .free, .none, 1, 0, 65535, 1, 7⟩,
  ⟨R.UPD_SEG_LO_ADDR, .rw, .free, .none, 1, 0, 4294967295, 64, 7⟩,
  ⟨R.UPD_SEG_HI_ADDR, .rw, .free, .none, 1, 0, 4294967295, 1, 7⟩,
  ⟨R.UPD_SEG_LEN_BYTES, .rw, .free, .none, 1, 64, 65536, 64, 7⟩,
  ⟨R.UPD_SEG_OFF_OFF, .rw, .free, .none, 1, 0, 4194303, 64, 7⟩,
  ⟨R.UPD_CMD_LOAD, .wo, .free, .none, 1, 0, 1, 1, 7⟩,
  ⟨R.UPD_CMD_VERIFY, .wo, .free, .none, 1, 0, 1, 1, 7⟩,
  ⟨R.UPD_CMD_HANDOVER, .wo, .free, .none, 1, 0, 1, 1, 7⟩,
  ⟨R.UPD_CMD_COMMIT, .wo, .free, .none, 1, 0, 1, 1, 7⟩,
  ⟨R.UPD_CMD_DISCARD, .wo, .free, .none, 1, 0, 1, 1, 7⟩,
  ⟨R.UPD_STAT_STATE, .ro, .free, .none, 1, 0, 7, 1, 7⟩,
  ⟨R.UPD_STAT_FROM_ROM, .ro, .free, .none, 1, 0, 1, 1, 7⟩,
  ⟨R.UPD_RUN_VER_VERSION, .ro, .free, .none, 1, 0, 4294967295, 1, 7⟩,
  ⟨R.UPD_STAGE_VER_VERSION, .ro, .free, .none, 1, 0, 4294967295, 1, 7⟩,
  ⟨R.UPD_PAUSE_US_US, .ro, .free, .none, 1, 0, 65535, 1, 7⟩,
  ⟨R.UPD_ROLLBACKS_COUNT, .rc, .free, .none, 1, 0, 4294967295, 1, 7⟩]

def regTable : List Row :=
  regRowsBLK ++
  regRowsQUE ++
  regRowsTIM ++
  regRowsPTP ++
  regRowsSTP ++
  regRowsSTP1 ++
  regRowsCNT ++
  regRowsFRM ++
  regRowsPRX ++
  regRowsGAR ++
  regRowsTAP ++
  regRowsACC ++
  regRowsWIN ++
  regRowsSLU ++
  regRowsAGT ++
  regRowsAGT1 ++
  regRowsFAB ++
  regRowsCUL ++
  regRowsRED ++
  regRowsFLW ++
  regRowsSHP ++
  regRowsPOL ++
  regRowsTRC ++
  regRowsTRC1 ++
  regRowsDBG ++
  regRowsHLT ++
  regRowsOPT ++
  regRowsOPT1 ++
  regRowsVRD ++
  regRowsVRD1 ++
  regRowsCMP ++
  regRowsPCK ++
  regRowsEVR ++
  regRowsMBX ++
  regRowsCTX ++
  regRowsSEC ++
  regRowsSAF ++
  regRowsPWR ++
  regRowsUPD

end Sys2Proof.Machine
end

