-- ==== Sys2Proof/Machine/Operands.lean ====
section
/-!
DEFINITION. Machine/Operands.lean: bit fields (R8), byte order (R7), signed values, the words of a descriptor (R106) and the
frames' and records' bytes. Byte strings are lists of numbers below 256.
-/
namespace Sys2Proof.Machine

/-- Bits [lo + w - 1 : lo] of a value. -/
def bits (v lo w : Nat) : Nat := v / 2 ^ lo % 2 ^ w

/-- One bit of a value. -/
def bit (v i : Nat) : Bool := v / 2 ^ i % 2 == 1

/-- A value with bits [lo + w - 1 : lo] replaced. -/
def withBits (v lo w x : Nat) : Nat :=
  v - bits v lo w * 2 ^ lo + x % 2 ^ w * 2 ^ lo

/-- A Bool as a bit. -/
def b2n (b : Bool) : Nat := if b then 1 else 0

/-- A two's-complement value of `w` bits read as an integer. -/
def signed (w v : Nat) : Int :=
  if v % 2 ^ w < 2 ^ (w - 1) then ((v % 2 ^ w : Nat) : Int) else ((v % 2 ^ w : Nat) : Int) - ((2 ^ w : Nat) : Int)

/-- An integer in two's complement, cut to `w` bits. -/
def unsigned (w : Nat) (i : Int) : Nat := (i % ((2 ^ w : Nat) : Int)).toNat

/-- Quotient rounded up. -/
def ceilDiv (a b : Nat) : Nat := (a + b - 1) / b

/-- A multiple of `m` at or above `n`. -/
def roundUp (n m : Nat) : Nat := ceilDiv n m * m

/-- `n` bytes of a value, least significant first (R7). -/
def le : Nat → Nat → List Nat
  | 0, _ => []
  | n + 1, v => v % 256 :: le n (v / 256)

/-- The value of little-endian bytes. -/
def ofLe : List Nat → Nat
  | [] => 0
  | b :: t => b % 256 + 256 * ofLe t

/-- `n` bytes of a value, most significant first (the order of the external standards of R7). -/
def be (n v : Nat) : List Nat := (le n v).reverse

/-- The value of big-endian bytes. -/
def ofBe (bs : List Nat) : Nat := ofLe bs.reverse

/-- `n` bytes at offset `off`. -/
def slice (bs : List Nat) (off n : Nat) : List Nat := (bs.drop off).take n

/-- The little-endian field of `n` bytes at offset `off`. -/
def fld (bs : List Nat) (off n : Nat) : Nat := ofLe (slice bs off n)

/-- The big-endian field of `n` bytes at offset `off`. -/
def fldBe (bs : List Nat) (off n : Nat) : Nat := ofBe (slice bs off n)

/-- Bytes padded with zero bytes up to `n`. -/
def padTo (n : Nat) (bs : List Nat) : List Nat := bs ++ List.replicate (n - bs.length) 0

/-- Bytes cut or padded to exactly `n`. -/
def fit (n : Nat) (bs : List Nat) : List Nat := (padTo n bs).take n

/-- Bytes padded with zero bytes to a multiple of `m`. -/
def padMul (m : Nat) (bs : List Nat) : List Nat := padTo (roundUp bs.length m) bs

/-- Every byte of a range is zero. -/
def zeros (bs : List Nat) (off n : Nat) : Bool := (slice bs off n).all (· == 0)

/-- Element `i` of a list replaced. -/
def setAt {α : Type} : List α → Nat → α → List α
  | [], _, _ => []
  | _ :: t, 0, a => a :: t
  | h :: t, i + 1, a => h :: setAt t i a

/-- Element `i` of a list of numbers, 0 beyond its end. -/
def nth (l : List Nat) (i : Nat) : Nat := l.getD i 0

/-- Element `i` of a list of numbers increased. -/
def bump (l : List Nat) (i n : Nat) : List Nat := setAt l i (nth l i + n)

/-- The sum of a list of numbers. -/
def total (l : List Nat) : Nat := l.foldl (· + ·) 0

/-- Field [lo + w - 1 : lo] of word `i` of a descriptor (R106). -/
def dw (d : List Nat) (i lo w : Nat) : Nat := bits (nth d i) lo w

/-- The eight words of 64 bytes. -/
def wordsOf (bs : List Nat) : List Nat := (List.range 8).map fun i => fld bs (8 * i) 8

/-- The 64 bytes of eight words. -/
def bytesOfWords (ws : List Nat) : List Nat := (List.range 8).flatMap fun i => le 8 (nth ws i)

/-- Successor modulo 2^32. -/
def succ32 (n : Nat) : Nat := (n + 1) % 2 ^ 32

/-- `a` is ahead of or equal to `b` modulo 2^32 (R183). -/
def ahead32 (a b : Nat) : Bool := (a + 2 ^ 32 - b % 2 ^ 32) % 2 ^ 32 < 2 ^ 31

/-- Distance from `b` up to `a` modulo 2^32. -/
def dist32 (a b : Nat) : Nat := (a % 2 ^ 32 + 2 ^ 32 - b % 2 ^ 32) % 2 ^ 32

/-- Place `len` bytes in a byte ring whose head and tail are offsets, equal when it is empty (R378, R476): the filler up to the ring's
end, the offset and the next tail; none while the ring lacks room. -/
def ringPlace (size head tail len : Nat) : Option (Nat × Nat × Nat) :=
  let used := (tail + size - head) % size
  let fill := if size < tail + len then size - tail else 0
  if size = 0 ∨ size ≤ used + fill + len then none
  else some (fill, (tail + fill) % size, (tail + fill + len) % size)

/-- Bytes of a string of bits, least significant first, the last byte filled with zero bits. -/
def bytesOfBits (bs : List Nat) : List Nat :=
  (List.range (ceilDiv bs.length 8)).map fun i => total ((List.range 8).map fun j => nth bs (8 * i + j) % 2 * 2 ^ j)

end Sys2Proof.Machine
end

