-- ==== Sys2Proof/Machine/Arith.lean ====
section
/-!
DEFINITION. Machine/Arith.lean: the arithmetic that the spec defines to the bit: rounding (R227), IEEE 754 binary formats
(R217, R277), the mixer (R223), cSHAKE256 and ParallelHash256 of NIST SP 800-185 (R268, R271, R275).
-/
namespace Sys2Proof.Machine

/-! ### Rounding -/

/-- num / den rounded to nearest, ties to even. -/
def rne (num den : Nat) : Nat :=
  let q := num / den
  let r := num % den
  if r * 2 > den ∨ (r * 2 = den ∧ q % 2 = 1) then q + 1 else q

/-- shift_rne of R227. -/
def shiftRne (b d : Int) : Int :=
  if 0 ≤ d then b * ((2 ^ d.toNat : Nat) : Int) else
  let m : Int := ((2 ^ (-d).toNat : Nat) : Int)
  let q := b / m
  let r := b - q * m
  if r * 2 > m ∨ (r * 2 = m ∧ q % 2 = 1) then q + 1 else q

/-- Clamp into a range; true if the value was outside. -/
def clampTo (lo hi v : Int) : Int × Bool := if v < lo then (lo, true) else if hi < v then (hi, true) else (v, false)

/-- sat96 of R228, with whether it clamped. -/
def sat96 (v : Int) : Int × Bool := clampTo (-(2 ^ 95)) (2 ^ 95 - 1) v

/-- The smallest r with r * r ≥ n (R261). -/
def sqrtUp (n : Nat) : Nat := let r := Nat.sqrt n; if r * r = n then r else r + 1

/-! ### Binary floating point -/

/-- An exact binary number: sign, magnitude and exponent: ±m × 2^e. -/
structure Bin where
  neg : Bool
  m : Nat
  e : Int
deriving DecidableEq, Repr

/-- Exponent and fraction widths of a format. -/
structure FpFmt where
  eb : Nat
  mb : Nat
deriving DecidableEq, Repr

def fp64F : FpFmt := ⟨11, 52⟩
def fp32F : FpFmt := ⟨8, 23⟩
def bf16F : FpFmt := ⟨8, 7⟩
def fp16F : FpFmt := ⟨5, 10⟩

/-- The exponent of the least significand unit of subnormal numbers. -/
def FpFmt.emin (f : FpFmt) : Int := 2 - ((2 ^ (f.eb - 1) : Nat) : Int) - (f.mb : Int)

/-- The pattern of infinity without its sign. -/
def FpFmt.inf (f : FpFmt) : Nat := (2 ^ f.eb - 1) * 2 ^ f.mb

/-- The sign bit's weight. -/
def FpFmt.sign (f : FpFmt) : Nat := 2 ^ (f.eb + f.mb)

/-- A pattern without its sign. -/
def FpFmt.mag (f : FpFmt) (v : Nat) : Nat := v % f.sign

def FpFmt.isNan (f : FpFmt) (v : Nat) : Bool := f.inf < f.mag v
def FpFmt.isInf (f : FpFmt) (v : Nat) : Bool := f.mag v == f.inf
def FpFmt.isNeg (f : FpFmt) (v : Nat) : Bool := v / f.sign % 2 == 1

/-- The exact value of a finite pattern. -/
def FpFmt.val (f : FpFmt) (v : Nat) : Bin :=
  let ex := f.mag v / 2 ^ f.mb
  let fr := f.mag v % 2 ^ f.mb
  if ex = 0 then ⟨f.isNeg v, fr, f.emin⟩ else ⟨f.isNeg v, 2 ^ f.mb + fr, f.emin + (ex : Int) - 1⟩

/-- num × 2^e / den rounded to nearest even in the format, an overflow giving infinity. -/
def FpFmt.enc (f : FpFmt) (neg : Bool) (num den : Nat) (e : Int) : Nat :=
  let s := if neg then f.sign else 0
  if num = 0 then s else
  let lg : Int := (Nat.log2 num : Int) - (Nat.log2 den : Int) + e
  -- the value lies in [2^(lg-1), 2^(lg+1))
  let below := if 0 ≤ lg - e then decide (num < den * 2 ^ (lg - e).toNat) else decide (num * 2 ^ (e - lg).toNat < den)
  let top := if below then lg - 1 else lg
  let u : Int := max (top - (f.mb : Int)) f.emin
  let n := if 0 ≤ e - u then rne (num * 2 ^ (e - u).toNat) den else rne num (den * 2 ^ (u - e).toNat)
  let r := (u - f.emin).toNat * 2 ^ f.mb + n
  s + min r f.inf

/-- The exact sum of two exact numbers. -/
def Bin.add (a b : Bin) : Bin :=
  let e := min a.e b.e
  let x : Int := ((a.m * 2 ^ (a.e - e).toNat : Nat) : Int)
  let y : Int := ((b.m * 2 ^ (b.e - e).toNat : Nat) : Int)
  let z := (if a.neg then -x else x) + (if b.neg then -y else y)
  ⟨if z = 0 then a.neg && b.neg else decide (z < 0), z.natAbs, e⟩

/-- A NaN of a format; which one is open (log entry 11). -/
def FpFmt.nan (f : FpFmt) (x : Nat) : Nat := f.inf + 1 + x % (2 ^ f.mb - 1) + x / 2 ^ f.mb % 2 * f.sign

/-- Addition in a format, round to nearest even. -/
def FpFmt.add (f : FpFmt) (a b : Nat) : Nat :=
  if f.isNan a || f.isNan b || (f.isInf a && f.isInf b && f.isNeg a != f.isNeg b) then f.nan (Config.nan64 a b)
  else if f.isInf a then a else if f.isInf b then b
  else let s := (f.val a).add (f.val b); f.enc s.neg s.m 1 s.e

/-- Negation in a format. -/
def FpFmt.neg (f : FpFmt) (a : Nat) : Nat := if f.isNeg a then a - f.sign else a + f.sign

/-- FP64 addition, round to nearest even. -/
def fadd (a b : Nat) : Nat := fp64F.add a b

/-- FP64 negation. -/
def fneg (a : Nat) : Nat := fp64F.neg a

/-- FP64 subtraction. -/
def fsub (a b : Nat) : Nat := fadd a (fneg b)

/-- FP64 multiplication, round to nearest even. -/
def fmul (a b : Nat) : Nat :=
  let f := fp64F
  let neg := f.isNeg a != f.isNeg b
  if f.isNan a || f.isNan b || (f.isInf a && f.mag b == 0) || (f.isInf b && f.mag a == 0) then f.nan (Config.nan64 a b)
  else if f.isInf a || f.isInf b then f.inf + (if neg then f.sign else 0)
  else let x := f.val a; let y := f.val b; f.enc neg (x.m * y.m) 1 (x.e + y.e)

/-- FP64 division, round to nearest even. -/
def fdiv (a b : Nat) : Nat :=
  let f := fp64F
  let neg := f.isNeg a != f.isNeg b
  let sg := if neg then f.sign else 0
  if f.isNan a || f.isNan b || (f.isInf a && f.isInf b) || (f.mag a == 0 && f.mag b == 0) then f.nan (Config.nan64 a b)
  else if f.isInf a || f.mag b == 0 then f.inf + sg
  else if f.isInf b then sg
  else let x := f.val a; let y := f.val b; f.enc neg x.m y.m (x.e - y.e)

/-- An unsigned integer as FP64. -/
def fofNat (n : Nat) : Nat := fp64F.enc false n 1 0

/-- An integer quotient as FP64, rounded once. -/
def fofQuot (num den : Nat) : Nat := fp64F.enc false num den 0

/-- A value of one format in another, rounded once to nearest even; a NaN becomes some NaN (log entry 11). -/
def FpFmt.conv (f g : FpFmt) (v : Nat) : Nat :=
  if f.isNan v then g.nan (Config.nan64 v 0)
  else if f.isInf v then g.inf + (if f.isNeg v then g.sign else 0)
  else let x := f.val v; g.enc x.neg x.m 1 x.e

/-- An integer in a format, rounded to nearest even. -/
def FpFmt.ofInt (f : FpFmt) (i : Int) (sc : Int) : Nat := f.enc (decide (i < 0)) i.natAbs 1 sc

/-- The total order that `fp_le` compares by: finite and infinite patterns as integers, both zeros equal. -/
def FpFmt.key (f : FpFmt) (v : Nat) : Int := if f.isNeg v then -((f.mag v : Nat) : Int) else ((f.mag v : Nat) : Int)

/-- A moment triple (R277). -/
structure Triple where
  n : Nat
  mean : Nat
  m2 : Nat
deriving DecidableEq, Repr

/-- combine of R277. -/
def Triple.combine (a b : Triple) : Triple :=
  if a.n = 0 then b else if b.n = 0 then a else
  let n := a.n + b.n
  let f := fdiv (fofNat b.n) (fofNat n)
  let g := fmul (fofNat a.n) f
  let delta := fsub b.mean a.mean
  ⟨n % 2 ^ 64, fadd a.mean (fmul delta f), fadd (fadd a.m2 b.m2) (fmul (fmul delta delta) g)⟩

/-! ### Tensor formats (R217, R218) -/

/-- W of a format code. -/
def fmtW (f : Nat) : Nat := match f with | 0 => 4 | 1 => 8 | 2 => 4 | 3 => 3 | 4 => 8 | 5 => 24 | _ => 0

/-- S of a format code. -/
def fmtS (f : Nat) : Nat := match f with | 0 => 4 | 5 => 24 | _ => 8

/-- Passes of a format code. -/
def fmtPasses (f : Nat) : Nat := fmtS f / 4

/-- The format is an integer format. -/
def fmtInt (f : Nat) : Bool := f == 0 || f == 1

/-- Half bytes per value. -/
def fmtHalf (f : Nat) : Nat := match f with | 0 => 1 | 4 => 4 | 5 => 8 | _ => 2

/-- Bytes that hold `n` values. -/
def fmtBytes (f n : Nat) : Nat := ceilDiv (n * fmtHalf f) 2

/-- One floating value: exponent field of `eb` bits, `mb` fraction bits, e = E − `bias`; none if nonfinite. -/
def floatVal (eb mb bias : Nat) (allOnes : Bool) (v : Nat) : Option Bin :=
  let ex := bits v mb eb
  let fr := bits v 0 mb
  let neg := bit v (eb + mb)
  if ex = 2 ^ eb - 1 ∧ (allOnes ∨ fr = 2 ^ mb - 1) then none
  else if ex = 0 then some ⟨neg, fr, 1 - (bias : Int)⟩
  else some ⟨neg, 2 ^ mb + fr, (ex : Int) - (bias : Int)⟩

/-- One value of a format from its bits (R217, R218): ±m × 2^e, none if nonfinite. -/
def fmtVal (f v : Nat) : Option Bin :=
  match f with
  | 0 => let i := signed 4 v; some ⟨decide (i < 0), i.natAbs, 0⟩
  | 1 => let i := signed 8 v; some ⟨decide (i < 0), i.natAbs, 0⟩
  | 2 => floatVal 4 3 10 false v
  | 3 => floatVal 5 2 17 true v
  | 4 => floatVal 8 7 134 true v
  | _ => floatVal 8 23 150 true v

/-- The values of a byte string, in order; INT4 takes the lower nibble first. -/
def fmtVals (f : Nat) (bs : List Nat) : List (Option Bin) :=
  if f = 0 then bs.flatMap fun b => [fmtVal 0 (b % 16), fmtVal 0 (b / 16 % 16)]
  else let w := fmtHalf f / 2; (List.range (bs.length / w)).map fun i => fmtVal f (fld bs (w * i) w)

/-- E_b of a block (R220): none where it has no finite nonzero value. -/
def blockExp (vs : List (Option Bin)) : Option Int :=
  vs.foldl (fun e v => match v with
    | none => e
    | some x => if x.m = 0 then e else match e with | none => some x.e | some y => some (max x.e y)) none

/-- λ_b of a block (R220). -/
def blockScale (f : Nat) (eb : Int) : Int := if fmtInt f then 0 else eb - ((fmtS f : Int) - (fmtW f : Int))

/-- The signed aligned value of one element (R220): sign(x) × rne(m × 2^(e − λ_b)). -/
def alignVal (f : Nat) (lam : Int) (v : Option Bin) : Int :=
  match v with
  | none => 0
  | some x =>
    let a : Int := if fmtInt f then (x.m : Int) else shiftRne (x.m : Int) (x.e - lam)
    if x.neg then -a else a

/-! ### The mixer (R223) -/

def mix (key ctr : Nat) : Nat :=
  let m := 2 ^ 64
  let x := (key % m) ^^^ (ctr * 0x9E3779B97F4A7C15 % m)
  let x := (x ^^^ (x / 2 ^ 31)) * 0xD6E8FEB86659FD93 % m
  let x := (x ^^^ (x / 2 ^ 29)) * 0xA0761D6478BD642F % m
  x ^^^ (x / 2 ^ 32)

/-- σ_s[j] of R224. -/
def signFlip (seed s j : Nat) : Int :=
  if bit (mix seed ((s * 4 + j / 64) % 2 ^ 64)) (j % 64) then -1 else 1

/-- Pfull[i][j] of R225. -/
def pfull (i j : Nat) : Int :=
  match bits (mix 0 (i * 8 + j / 32)) (2 * (j % 32)) 2 with
  | 0 => 1
  | 1 => -1
  | _ => 0

/-- P_s[i][j] of R225 for width k. -/
def proj (k s i j : Nat) : Int := if 256 ≤ k then pfull i j else pfull ((s % (256 / k)) * k + i) j

/-- The block partial sum of output `i` over a block of aligned values that begins at element `g` (R221, R222): Σ_q 16^q × Σ w' ×
slice_q(a) is Σ w' × a. -/
def blockSum (k seed g : Nat) (as : List Int) (i : Nat) : Int :=
  ((List.range as.length).map fun n =>
    let j := (g + n) % 256
    proj k (g / 256) i j * signFlip seed (g / 256) j * as.getD n 0).foldl (· + ·) 0

/-! ### Keccak (NIST SP 800-185) -/

def rotl64 (v n : Nat) : Nat := (v * 2 ^ (n % 64)) % 2 ^ 64 + v / 2 ^ (64 - n % 64)

/-- The walk over the lanes other than (0, 0) that numbers their rotations: step `t` stands at lane (x, y), whose bits turn by the
triangular number of t + 1, and goes on to lane (y, 2x + 3y). -/
def laneWalk : Nat → Nat → Nat → Nat → List (Nat × Nat)
  | 0, _, _, _ => []
  | n + 1, t, x, y => (x + 5 * y, (t + 1) * (t + 2) / 2 % 64) :: laneWalk n (t + 1) y ((2 * x + 3 * y) % 5)

/-- How far lane `i` turns. -/
def laneTurn (i : Nat) : Nat := ((laneWalk 24 0 1 0).find? fun s => s.1 == i).elim 0 fun s => s.2

/-- The bits of the shift register x^8 + x^6 + x^5 + x^4 + 1 from state `r`. -/
def lfsrBits : Nat → Nat → List Nat
  | 0, _ => []
  | n + 1, r => r % 2 :: lfsrBits n (if r < 128 then 2 * r else 2 * r ^^^ 0x171)

/-- The constants of the rounds: seven register bits each, the j-th at place 2^j - 1. -/
def roundConsts : Nat → List Nat → List Nat
  | 0, _ => []
  | n + 1, l => total ((l.take 7).zipIdx.map fun b => b.1 * 2 ^ (2 ^ b.2 - 1)) :: roundConsts n (l.drop 7)

/-- One round over 25 lanes, lane x + 5y. -/
def keccakRound (a : List Nat) (rc : Nat) : List Nat :=
  let c := (List.range 5).map fun x => nth a x ^^^ nth a (x + 5) ^^^ nth a (x + 10) ^^^ nth a (x + 15) ^^^ nth a (x + 20)
  let d := (List.range 5).map fun x => nth c ((x + 4) % 5) ^^^ rotl64 (nth c ((x + 1) % 5)) 1
  let t := (List.range 25).map fun i => nth a i ^^^ nth d (i % 5)
  -- lane (X, Y) after rho and pi comes from lane (x, y) with X = y and Y = 2x + 3y, so x = X + 3Y and y = X (mod 5)
  let b := (List.range 25).map fun i =>
    let j := (i % 5 + 3 * (i / 5)) % 5 + 5 * (i % 5)
    rotl64 (nth t j) (laneTurn j)
  let e := (List.range 25).map fun i =>
    let y := i / 5 * 5
    nth b i ^^^ ((2 ^ 64 - 1 - nth b (y + (i + 1) % 5)) &&& nth b (y + (i + 2) % 5))
  match e with
  | [] => []
  | h :: r => (h ^^^ rc) :: r

/-- The permutation: 24 rounds. -/
def keccakF (a : List Nat) : List Nat := (roundConsts 24 (lfsrBits 168 1)).foldl keccakRound a

/-- Absorb whole blocks of 136 bytes. -/
def keccakAbsorb : Nat → List Nat → List Nat → List Nat
  | 0, a, _ => a
  | n + 1, a, m =>
    let blk := m.take 136
    let x := (List.range 25).map fun i => nth a i ^^^ (if i < 17 then fld blk (8 * i) 8 else 0)
    keccakAbsorb n (keccakF x) (m.drop 136)

/-- The sponge with rate 136 and a domain byte, 64 output bytes. -/
def keccakOut (dom : Nat) (m : List Nat) : List Nat :=
  let n := m.length / 136 + 1
  let p := padTo (n * 136) (m ++ [dom])
  let p := setAt p (n * 136 - 1) (nth p (n * 136 - 1) + 128)
  let a := keccakAbsorb n (List.replicate 25 0) p
  (List.range 8).flatMap fun i => le 8 (nth a i)

/-- The least number of bytes, at least one, that hold a value (below 2^64). -/
def byteLen (v : Nat) : Nat := Nat.log2 v / 8 + 1

def leftEncode (v : Nat) : List Nat := byteLen v :: be (byteLen v) v
def rightEncode (v : Nat) : List Nat := be (byteLen v) v ++ [byteLen v]
def encodeString (s : List Nat) : List Nat := leftEncode (8 * s.length) ++ s
def bytepad (x : List Nat) : List Nat := padMul 136 (leftEncode 136 ++ x)

/-- The bytes of an ASCII string. -/
def ascii (s : String) : List Nat := s.toList.map Char.toNat

/-- cSHAKE256 with a customisation string, `len` ≤ 64 output bytes. -/
def cshake256 (name cust : List Nat) (m : List Nat) (len : Nat) : List Nat :=
  (keccakOut 4 (bytepad (encodeString name ++ encodeString cust) ++ m)).take len

/-- Digests of the 8,192-byte blocks of a message. -/
def parBlocks : Nat → List Nat → List Nat
  | 0, _ => []
  | n + 1, m => if m.isEmpty then [] else keccakOut 0x1F (m.take 8192) ++ parBlocks n (m.drop 8192)

/-- ParallelHash256 with B = 8,192 and L = 256 (R271). -/
def layerDigest (m : List Nat) : List Nat :=
  let n := ceilDiv m.length 8192
  cshake256 (ascii "ParallelHash") (ascii "BOLDAL-LAYER")
    (leftEncode 8192 ++ parBlocks n m ++ rightEncode n ++ rightEncode 256) 32

/-- The 32-byte digest of R268 and R275. -/
def auditDigest (s : String) (m : List Nat) : List Nat := cshake256 [] (ascii s) m 32

end Sys2Proof.Machine
end

