-- ==== Sys2Proof/Machine/Elementary.lean ====
section
/-!
DEFINITION. Machine/Elementary.lean: FP64 functions beyond the four operations (R424, R430): square root, natural logarithm and exponential, each
rounded to nearest even from a value exact to some 240 bits, and exact quotients.
-/
namespace Sys2Proof.Machine

/-- Fixed point of the intermediate values: units of 2^-256. -/
def fixOne : Int := 2 ^ 256

/-- Σ z^(2k+1) / (2k+1), `z` in fixed point, from the term `p` = z^(2k+1) on. -/
def atanhSum (z2 : Int) : Nat → Int → Nat → Int
  | 0, _, _ => 0
  | n + 1, p, k => p / ((2 * k + 1 : Nat) : Int) + atanhSum z2 n (p * z2 / fixOne) (k + 1)

/-- atanh of a fraction whose magnitude is at most 1/3. -/
def fixAtanh (num den : Int) : Int := let z := num * fixOne / den; atanhSum (z * z / fixOne) 90 z 0

/-- ln 2 = 2 atanh(1/3). -/
def fixLn2 : Int := 2 * fixAtanh 1 3

/-- ln of m × 2^e, m > 0. -/
def fixLn (m : Nat) (e : Int) : Int :=
  let k := Nat.log2 m
  let one : Int := ((2 ^ k : Nat) : Int)
  2 * fixAtanh ((m : Int) - one) ((m : Int) + one) + ((k : Int) + e) * fixLn2

/-- Σ r^k / k! from the term `p` = r^k / k! on. -/
def expSum (r : Int) : Nat → Int → Nat → Int
  | 0, _, _ => 0
  | n + 1, p, k => p + expSum r n (p * r / fixOne / ((k + 1 : Nat) : Int)) (k + 1)

/-- Natural logarithm of FP64. -/
def fln (a : Nat) : Nat :=
  let f := fp64F
  if f.isNan a then f.nan (Config.nan64 a 0)
  else if f.mag a = 0 then f.inf + f.sign
  else if f.isNeg a then f.nan (Config.nan64 a 1)
  else if f.isInf a then a
  else let x := f.val a; let l := fixLn x.m x.e; f.enc (decide (l < 0)) l.natAbs 1 (-256)

/-- Exponential of FP64. -/
def fexp (a : Nat) : Nat :=
  let f := fp64F
  if f.isNan a then f.nan (Config.nan64 a 0)
  else
    let x := f.val a
    let big := f.isInf a || (x.m != 0 && decide (11 ≤ (Nat.log2 x.m : Int) + x.e))
    if big then (if x.neg then 0 else f.inf) else
    let y : Int := if 0 ≤ x.e + 256 then ((x.m * 2 ^ (x.e + 256).toNat : Nat) : Int) else ((x.m / 2 ^ (-(x.e + 256)).toNat : Nat) : Int)
    let y := if x.neg then -y else y
    let k := (2 * y + fixLn2) / (2 * fixLn2)
    f.enc false (expSum (y - k * fixLn2) 70 fixOne 0).toNat 1 (k - 256)

/-- Square root of FP64. -/
def fsqrt (a : Nat) : Nat :=
  let f := fp64F
  if f.isNan a then f.nan (Config.nan64 a 0)
  else if f.mag a = 0 then a
  else if f.isNeg a then f.nan (Config.nan64 a 1)
  else if f.isInf a then a
  else
    let x := f.val a
    let odd : Nat := if x.e % 2 = 0 then 0 else 1
    let m := x.m * 2 ^ (120 + odd)
    let r := Nat.sqrt m
    f.enc false (2 * r + (if r * r = m then 0 else 1)) 1 ((x.e - 120 - (odd : Int)) / 2 - 1)

/-- a < b for FP64; false where one is a NaN. -/
def flt (a b : Nat) : Bool := !fp64F.isNan a && !fp64F.isNan b && decide (fp64F.key a < fp64F.key b)

/-- An integer as FP64. -/
def fofInt (i : Int) : Nat := fp64F.ofInt i 0

/-- A nonnegative FP64 value in whole units, rounded down, at most `top`; a NaN gives an open number (log entry 11). -/
def ffloor (top a : Nat) : Nat :=
  let f := fp64F
  if f.isNan a then Config.nan64 a 2 % (top + 1)
  else if f.isNeg a then 0
  else if f.isInf a then top
  else let x := f.val a; min top (if 0 ≤ x.e then x.m * 2 ^ x.e.toNat else x.m / 2 ^ (-x.e).toNat)

/-- An FP64 value rounded to the nearest integer, ties to even, in [lo, hi]; a NaN gives an open number of the range (log entry 11). -/
def fround (lo hi : Int) (a : Nat) : Int :=
  let f := fp64F
  if f.isNan a then lo + ((Config.nan64 a 3 : Nat) : Int) % (hi - lo + 1)
  else if f.isInf a then (if f.isNeg a then lo else hi)
  else
    let x := f.val a
    let v : Int := if 0 ≤ x.e then ((x.m * 2 ^ x.e.toNat : Nat) : Int) else ((rne x.m (2 ^ (-x.e).toNat) : Nat) : Int)
    max lo (min hi (if x.neg then -v else v))

/-! ### Exact fractions -/

/-- n / d with d > 0. -/
structure Frac where
  n : Int
  d : Nat
deriving DecidableEq, Repr

def Frac.add (a b : Frac) : Frac := ⟨a.n * (b.d : Int) + b.n * (a.d : Int), a.d * b.d⟩
def Frac.mul (a b : Frac) : Frac := ⟨a.n * b.n, a.d * b.d⟩
def Frac.neg (a : Frac) : Frac := ⟨-a.n, a.d⟩
def Frac.div (a b : Frac) : Frac := if b.n < 0 then ⟨-(a.n * (b.d : Int)), a.d * b.n.natAbs⟩ else ⟨a.n * (b.d : Int), a.d * b.n.natAbs⟩

/-- Lowest terms. -/
def Frac.low (a : Frac) : Frac := let g := Nat.gcd a.n.natAbs a.d; if g = 0 then a else ⟨a.n / (g : Int), a.d / g⟩

/-- The sum of fractions. -/
def Frac.sum (l : List Frac) : Frac := l.foldl (fun a b => (a.add b).low) ⟨0, 1⟩

/-- A fraction in a format, rounded once to nearest even. -/
def Frac.enc (f : FpFmt) (a : Frac) : Nat := f.enc (decide (a.n < 0)) a.n.natAbs (max 1 a.d) 0

/-- A signed quotient rounded to nearest, ties to even. -/
def rneInt (a : Int) (n : Nat) : Int := let q : Int := ((rne a.natAbs (max 1 n) : Nat) : Int); if a < 0 then -q else q

end Sys2Proof.Machine
end

