-- ==== Sys2Proof/Machine/State.lean ====
section
/-!
DEFINITION. Machine/State.lean: everything the spec gives the block, as plain data. The register-visible state, the read-only
status registers and the page headers included, lives in `Hw.regs` under the fields of Machine/Regs.lean; what the spec gives the
block beside its registers (rings, stores, sessions, trackers, accounts) stands in one structure per function.
-/
namespace Sys2Proof.Machine

/-- The three profiles (R1), fixed at synthesis. -/
inductive Profile where
  | l | t | g
deriving DecidableEq, Repr

/-- What the block latches with each event time it stamps (R189): the FRC, the servo byte TSTAT without its sync bits, and
the step position with its PSTAT byte and tracker. -/
structure Stamp where
  nt : Nat
  frc : Nat
  tstat : Nat
  pstat : Nat
  tracker : Nat
  sp : Nat
deriving DecidableEq, Repr

/-- One telemetry record (R179) with what a hop keeps beside its bytes: the class it travels in (R326), its stamp (R189),
its colour (R388) and whether it came in a replayed frame (R342). `payload` holds bytes. Until its emission a record formed here may
also hold the node it is meant for, the ticket of a verdict, the place in its payload where the SEQ of an earlier verdict goes with that
verdict's ticket, and the full audit digests of a verdict (R446). `reduced` says that a reduction has taken its copy; `known` that its
stamp is known here, where it came with its stream's sync record (R12, R193). -/
structure Rec where
  typ : Nat
  flags : Nat
  source : Nat
  seq : Nat
  tdelta : Nat
  payload : List Nat
  cls : Nat
  stamp : Stamp
  yellow : Bool
  replay : Bool
  dest : Option Nat := none
  ticket : Nat := 0
  refAt : Option (Nat × Nat) := none
  audit : List Nat := []
  reduced : Bool := false
  known : Bool := true
deriving DecidableEq, Repr

/-- What left the block's ports during the last command (an output pin edge, a frame, a message). -/
inductive Out where
  | frame (port ether : Nat) (bytes : List Nat)
  | ptpFrame (port ether : Nat) (bytes : List Nat)
  | lanes (port word0 word1 : Nat)
  | probe (port : Nat) (header fields : List Nat)
  | trigOut (line : Nat)
  | convStart (n : Nat)
  | heater (grp ch code : Nat)
  | nvWrite (unit : Nat) (bytes : List Nat)
  | nvRead (unit : Nat)
  | rotRequest (svc id : Nat) (bytes : List Nat)
  | busPoll (bus proxy addr mode : Nat) (pec : Bool) (latch : Option (Nat × Nat)) (reads : List (Nat × Nat × Nat))
  | busAssign (bus : Nat) (addrs : List Nat)
  | traceData (data : Nat)
  | traceLanes (lane0 lane1 : Nat)
  | traceIdle
  | sentinelGate
  | dmaRead (id ctx addr len : Nat)
  | dmaWrite (id ctx addr len : Nat)
deriving DecidableEq, Repr

/-- Why the DMA initiator port carries a request: where the data of a read goes, and what the write response of a write
completes (R45, R46). `idx` is the index of the queue entry concerned. -/
inductive DmaFor where
  | entry (q idx : Nat)
  | list (q idx : Nat)
  | completion (q : Nat)
  | ring (cls : Nat) (r : Rec)
  | payload (q idx : Nat)
  | result (q idx : Nat)
  | evrHost
  | check (e : Nat)
  | group (g : Nat)
  | order (slot len : Nat)
  | segment (off : Nat)
  | chunk (ch : Nat)
  | verdictLog (r : Rec)
  | checkLog
  | longhaul (port : Nat)
  | dump
  | filler (page : Nat)
  | hang (ctx : Nat)
  | slotSave (slot : Nat)
deriving DecidableEq, Repr

/-- One transfer of the DMA initiator port that has not had all its responses: how many of its bursts are out or have been, and how many of those
have been answered (R45). -/
structure DmaReq where
  id : Nat
  write : Bool
  ctx : Nat
  addr : Nat
  bytes : List Nat
  len : Nat
  purpose : DmaFor
  sent : Nat
  back : Nat
deriving DecidableEq, Repr

/-- A descriptor or command as eight words (R106, R107). -/
abbrev DescWords := List Nat

/-- One submission entry that a queue has fetched (R104, R106): its words, every byte of its descriptors as fetched (R108), the
descriptors that run, the segment a chain descriptor names, whether the list is whole, the index of the next descriptor (the
number that have taken effect), whether that one holds its engine, how the entry ended, when it was fetched, and the progress that results
add to DONE (R320). -/
structure EntryRun where
  index : Nat
  words : DescWords
  have_ : Bool
  raw : List Nat
  descs : List DescWords
  chain : Option (Nat × Nat)
  listed : Bool
  next : Nat
  started : Bool
  ended : Bool
  code : Nat
  bornFrc : Nat
  extra : Nat
deriving DecidableEq, Repr

/-- What a queue holds beside its registers: its fetched entries in order, whether a doorbell came while OFF (R579), the
IRQ-flagged completions since its last interrupt and the instant of the first (R110), the tail of its own drain, and its tail when the drain of its
engine's page began (R87). -/
structure QueueRun where
  q : Nat
  runs : List EntryRun
  bellOff : Bool
  irqCount : Nat
  irqFirst : Nat
  drainTo : Nat
  pageTo : Nat
deriving DecidableEq, Repr

/-- A stride-scheduling pass (R516) of one context on one engine, with the queue of that context served last there. -/
structure Pass where
  ctx : Nat
  engine : Nat
  pass : Nat
  ready : Bool
  lastQ : Nat
deriving DecidableEq, Repr

/-- The key of a context (R518): an identifier of the random 256-bit key, and its save counter. -/
structure CtxKey where
  ctx : Nat
  key : Nat
  saves : Nat
deriving DecidableEq, Repr

/-- A latched register of a requesting context (R511); `who` is the context, or 64 for the operator. -/
structure Latch where
  who : Nat
  key : Nat
  val : Nat
deriving DecidableEq, Repr

/-- The response of the host target port to the last access (R41). -/
structure Rsp where
  data : Nat
  err : Bool
deriving DecidableEq, Repr

/-- Power controller, resets, domain controls and the wake sequencer (R35, R36, R558, R565–R569). `aon`, `core` and `gar` say that a domain is out
of reset; the enables, isolations and the number of switch groups that are on, with their instants; `coreSince` the start that PWR_START_MS counts
from; `autoDone` that CORE_AUTO has acted; the queued outputs in order, the amperes started on each segment in this interval and as WAKE_MON counts
them, the budgets and the length of the interval in force; whether a burst runs, whether the monitor blocks, whether the interval has counted an alert;
the outputs whose power-good is awaited, with the instants of their rise; `tied` the ports that the integrator ties off, by resource identifier
(R76, R96), which nothing changes. -/
structure Pwr where
  porst : Bool
  aon : Bool
  coreEn : Bool
  core : Bool
  coreRst : Bool
  isoCore : Bool
  garEn : Bool
  gar : Bool
  garRst : Bool
  isoGar : Bool
  groups : Nat
  coreEnFrc : Nat
  garEnFrc : Nat
  groupFrc : Nat
  releaseFrc : Nat
  coreSince : Nat
  autoDone : Bool
  wakeQueue : List Nat
  used : List Nat
  monUsed : List Nat
  budget : List Nat
  intervalUs : Nat
  intFrc : Nat
  burst : Bool
  monBlock : Bool
  alertCounted : Bool
  pgoodWait : List (Nat × Nat)
  tied : List Nat
deriving DecidableEq, Repr

/-- One entry of the event log (R488): its place in the ring, its fields, whether it is closed to repeats (R490) and since when, and whether
the mirror has it. -/
structure EvrEntry where
  off : Nat
  code : Nat
  sev : Nat
  eflags : Nat
  rep : Nat
  pcycle : Nat
  opS : Nat
  time : Nat
  seq : Nat
  dtLast : Nat
  payload : List Nat
  closed : Bool
  mirrored : Bool
  bornFrc : Nat
  closedFrc : Nat
deriving DecidableEq, Repr

/-- A write of the NV store port (R71). `kind`: 0 a unit of an item, 1 a superblock, 2 a unit of zeros. -/
structure NvWrite where
  unit : Nat
  bytes : List Nat
  kind : Nat
  retried : Bool
deriving DecidableEq, Repr

/-- The event recorder (R487–R499): the log with the place and SEQ of the next entry; whether an entry was lost to
the mirror (R489), and whether the item under way says so; whether
the restore of R498 is done, the superblocks it has read, and the reads that wait (unit; 0 superblock, 1 the item at the head); the mirror's ring with
the items known to lie in it (unit, units); the writes that wait, the front one since `nvFrc`; `cut` and `itemAt` the entries (SEQ) and the place of the
item under way; `flush` the SEQ of the last entry of a closed cut and the NT of its close (R495); the payload read of EVR_CMD WRITE; when the last superblock was written;
and the start and the last superblock of a drain (R499). -/
structure Evr where
  ring : List EvrEntry
  nextOff : Nat
  nextSeq : Nat
  gapBefore : Bool
  gapOut : Bool
  restored : Bool
  sbRead : List (List Nat)
  reads : List (Nat × Nat)
  head : Nat
  tail : Nat
  gen : Nat
  lastSeq : Nat
  items : List (Nat × Nat)
  nv : List NvWrite
  nvFrc : Nat
  cut : List Nat
  itemAt : Nat × Nat
  flush : Option Nat
  flushNs : Nat
  hostWait : Bool
  hostCode : Nat
  sbFrc : Nat
  drainFrc : Nat
  lastSb : Bool
deriving DecidableEq, Repr

/-- One hazard channel of the blob (R547) with its running state. -/
structure HzChan where
  ch : Nat
  lo : Int
  hi : Int
  p : Nat
  maxGap : Nat
  outside : Nat
  side : Nat
  last : Int
  lastFrc : Nat
  active : Bool
  silent : Bool
deriving DecidableEq, Repr

/-- Functional safety (R534–R556): the hazard channels with HZ_EN, the HZ_IN inputs whose condition holds; the failed diagnostics of the hazard
path, as (diagnostic, item, passes still needed, or for HZ_DUAL the ACLK instant of its last mismatch); when the last hazard condition cleared, and until
when DF_HAZARD drives HAZARD; HB_OUT; the lockstep mismatches of the last second; the injection under way; CLOCK_XCHK's failed and passed windows in a
row and the start of the window; the last passes of the diagnostics; those enabled again with the end of the interval they owe (R551). -/
structure Saf where
  hz : List HzChan
  hzEn : Nat
  hzIn : Nat
  hzDiag : List (Nat × Nat × Nat)
  crcNeedsBlob : Bool
  hzLastClear : Nat
  dfUntil : Nat
  hbLevel : Bool
  hbStopped : Bool
  hbResume : Nat
  hbFrc : Nat
  mismatches : List Nat
  ctrlPaused : Bool
  inj : Option (Nat × Nat)
  xFails : Nat
  xPasses : Nat
  xWinFrc : Nat
  clockFault : Bool
  lastPass : List (Nat × Nat × Nat)
  owed : List (Nat × Nat)
  testMode : Bool
  selftest : Bool
deriving DecidableEq, Repr

/-- A breach of a guarantee (R28, R200): `live` until its paired record is formed; `seq` is the SEQ of the breach record. -/
structure OpenCond where
  guarantee : Nat
  cond : Nat
  live : Bool
  seq : Nat
deriving DecidableEq, Repr

/-- The state of one stream (R182–R184, R189, R580). `lastSync` is NT[79:16] of its last sync record. -/
structure Stream where
  source : Nat
  nextSeq : Nat
  synced : Bool
  lastSync : Nat
  since : Nat
  first : Bool
  gapNext : Bool
  held : List Rec
deriving DecidableEq, Repr

/-- Where a held record came from: the link, class and HSEQ of its frame (R328). -/
structure Origin where
  port : Nat
  cls : Nat
  hseq : Nat
deriving DecidableEq, Repr

/-- A record that this hop holds (R360): in the reserved buffer (classes 0–2) or the shared pool (3–7). `src` is none for one
produced here; `dst` is the destination that its frame named, none where the flow entries decide (R337); `route` is the rest of a
route prefix (R335); `grp` keeps the records of a transit frame together and `builder` its SRC (R326); `firstSent` is the instant of
the first transmission of a record taken back (R340, R370); `covers` are the frames whose dropped records a gap record accounts
for (R368); `keptBy` is the failed link whose retention store keeps a record taken back until it goes out again (R340, R344). -/
structure HeldRec where
  r : Rec
  src : Option Origin
  waitFrom : Nat
  dst : Option Nat
  route : List Nat
  grp : Nat
  builder : Nat
  firstSent : Option Nat
  covers : List Origin
  keptBy : Option Nat := none
deriving DecidableEq, Repr

/-- A loss that no gap record covers yet (R191, R368). -/
structure Loss where
  source : Nat
  seq : Nat
  count : Nat
  reason : Nat
  error : Nat
  syncLost : Bool
  period : Nat
  at_ : Nat
  origins : List Origin
deriving DecidableEq, Repr

/-- One ledger row in the order of R374. -/
structure LedRow where
  heldStart : Nat
  produced : Nat
  received : Nat
  reclaimed : Nat
  forwarded : Nat
  delivered : Nat
  duplicates : Nat
  dropped : Nat
  heldEnd : Nat
  heldReplay : Nat
deriving DecidableEq, Repr

/-- Flow, ledgers and delivery (R360–R380). `syncs` holds the last sync record received of each stream: SOURCE, SEQ, stamp (R12, R193);
`pressFrc` the instant of the last change of PRESSURE here;
`rstSynced` the streams with a sync record since the last reset of the core domain (R189);
`expected` the next SEQ of each stream received, and `unread` the received records whose headers could not be read, each with the frames
that its gap record has to account for (R192, R368); `waiting` holds the records that come while the page drains (R87). From the end of a period to
its close `ledNext` and `dropsNext` count for the next one, and `replayEnd` is HELD_REPLAY at the end (R370),
`endStamp` the stamp of that tick (R189). -/
structure Flw where
  streams : List Stream
  held : List HeldRec
  losses : List Loss
  conds : List OpenCond
  led : List LedRow
  occ : List Nat
  drops : List Nat
  lastLed : List LedRow
  lastDrops : List Nat
  periodStart : Nat
  lflags : Nat
  gapNext : List Nat
  seen : List (Nat × Nat × List Nat)
  pressSince : List (Option Nat)
  headSince : List (Option Nat)
  noPressSince : List (Option Nat)
  syncs : List (Nat × Nat × Stamp)
  expected : List (Nat × Nat)
  unread : List (List Origin)
  waiting : List HeldRec
  ledNext : List LedRow
  dropsNext : List Nat
  replayEnd : Option (List Nat)
  endStamp : Option Stamp
  pressFrc : Nat
  rstSynced : List Nat
deriving DecidableEq, Repr

/-- A frame that a port has sent and keeps until custody (R328, R360); `slot` is its place in the region of a long-haul hop (R344). -/
structure TxFrame where
  cls : Nat
  hseq : Nat
  kind : Nat
  bytes : List Nat
  recs : List HeldRec
  sentFrc : Nat
  racked : Bool
  replay : Bool
  slot : Nat := 0
deriving DecidableEq, Repr

/-- A received frame that this hop has RACKed and whose records it still answers for (R328), with its bytes of credit (R361, R363). -/
structure Custody where
  cls : Nat
  hseq : Nat
  left : Nat
  size : Nat
deriving DecidableEq, Repr

/-- One culvert or fabric link, numbered as in resource class 0x8 (R96): the next HSEQ to send and to receive in each class, the
frames retained, the frames it answers for, the records received that no ACK has covered yet; what the peer has shown; the egress
shaper's round (R382) and token bucket (R383); the stamps of the last probe (R124); the delay and offset of the last exchange on a long-haul hop
(R135), in 2^-16 ns. `unackRep` are those of `unack` that came with REPLAY (R370); `txEnd` and `txQueue` say until when the DATA frame in
transmission lasts, and of which queue it is (R384); `sources` when a record of each stream last went out first (R336). `txWords` are the words of
frames that wait for the lanes of a culvert, `lanes` the scramblers' registers, `laneCount` the words since the last alignment words (R327). -/
structure Link where
  port : Nat
  up : Bool
  phy : Bool
  txNext : List Nat
  rxNext : List Nat
  retained : List TxFrame
  custody : List Custody
  unack : List Nat
  lastRx : Nat
  lastTx : Nat
  lastHello : Nat
  upSince : Nat
  downSince : Nat
  peerNode : Nat
  peerState : Nat
  peerIdent : Nat
  peerServo : Nat
  peerLost : Bool
  ackDue : Bool
  hunting : Bool
  delayNs : Nat
  probeT : Option Nat
  probeRx : Option Nat
  rr : Nat
  deficit : List Nat
  fresh : List Nat
  bucket : Int
  bucketFrc : Nat
  lastAck : Nat
  lastProbe : Nat
  exch : Option (Int × Int)
  unackRep : List Nat
  txEnd : Nat
  txQueue : Nat
  sources : List (Nat × Nat)
  txWords : List Nat
  lanes : Nat × Nat
  laneCount : Nat
deriving DecidableEq, Repr

/-- One link-state advertisement (R325): the header fields, the port entries (neighbour, port, flags, cost) and the leaf
entries (port, home). -/
structure Lsa where
  node : Nat
  ident : Nat
  seq : Nat
  state : Nat
  profile : Nat
  ports : List (Nat × Nat × Nat × Nat)
  leaves : List (Nat × Nat)
  heardFrc : Nat
deriving DecidableEq, Repr

/-- A route of this node toward a destination (R334, R335): the primary next hop, the backup path. -/
structure Route where
  dst : Nat
  next : Nat
  backup : List Nat
  port : Nat := 0x200
  hops : Nat := 1
deriving DecidableEq, Repr

/-- The launch in progress as this part knows it (R351–R356): `decision` is 0 none, 1 COMMIT, 2 ABORT; `acks` are the bits of the
SET union, one mask per node ID. -/
structure Launch where
  job : Nat
  instant : Nat
  size : Nat
  root : Nat
  decision : Nat
  reason : Nat
  acks : List (Nat × Nat)
  h : Nat
deriving DecidableEq, Repr

/-- Node fabric: links, database, routes, launch and triggers (R329–R345, R351–R356, R411). `standby` holds (culvert port, node, leaf
port); `leafIds` (culvert port, IDENTITY) of registered leaves; `seenMsgs` the launch messages taken (MSG, JOB with the launch
instant); `trigSeen` the
triggers applied (origin, sequence). -/
structure Fab where
  links : List Link
  lsdb : List Lsa
  lsaSeq : Nat
  lsaFrc : Nat
  ident : Nat
  routes : List Route
  joinFrc : Nat
  claimFrc : Nat
  idFullNoted : Bool
  launch : Option Launch
  seenMsgs : List (Nat × Nat)
  standby : List (Nat × Nat × Nat)
  leafIds : List (Nat × Nat)
  regFrc : Nat
  trigSeen : List (Nat × Nat)
  trigSeq : Nat
  silent : List (Nat × Nat)
  nextGrp : Nat
  replayMix : Bool
  standbyOk : Bool
  outdone : Bool
  lostId : Nat
  ackTo : Option Nat
  lsaDirty : Bool
  dbDirty : Bool
deriving DecidableEq, Repr

/-- One reduction group of the group table (R349). -/
structure Group where
  num : Nat
  op : Nat
  mode : Nat
  keyMode : Nat
  kLog : Nat
  root : Nat
  eRef : Int
  members : List Nat
  timeoutUs : Nat
  seed : Nat
  rtype : Nat
  offset : Nat
deriving DecidableEq, Repr

/-- A definition that has not arrived whole (R325). -/
structure GroupFrag where
  num : Nat
  defLen : Nat
  parts : List (Nat × List Nat)
deriving DecidableEq, Repr

/-- A round of a group at this node (R346). `phase` is 0, or 1 for the histograms of a LAG group (R347), whose phase 0 finds the lead of
`samples` (entity key, step position, tracker state, grade). `inputs` holds the inputs taken: member streams, or 2^32 + node for a child;
`triples` (canonical index, SEQ, n, mean, m2) in ascending index and SEQ, with 2^32 for the SEQ of a partial; `clamped` that this node clamped its sum (R228);
`marked` that the round has been counted under R348; `fell` the neighbours whose links fell while it was open. -/
structure Round where
  group : Nat
  key : Nat
  phase : Nat
  firstFrc : Nat
  sent : Bool
  contrib : Nat
  minIdx : Nat
  elems : List Int
  triples : List (Nat × Nat × Nat × Nat × Nat)
  elemCount : Nat
  nonfin : Nat
  rflags : Nat
  grade : Nat
  evt : Nat
  inputs : List Nat
  suspended : Bool
  clamped : Bool
  samples : List (Nat × Nat × Nat × Nat)
  marked : Bool
  fell : List Nat
deriving DecidableEq, Repr

/-- A sketch or a partial that has not arrived whole (R248, R350): its stream, its first payload, the elements so far. -/
structure RedPart where
  source : Nat
  head : List Nat
  acc : List Int
  stamp : Stamp
  grade : Nat
  known : Bool
  suspended : Bool
deriving DecidableEq, Repr

/-- Fabric reduction (R346–R350). -/
structure Red where
  groups : List Group
  frags : List GroupFrag
  rounds : List Round
  parts : List RedPart
deriving DecidableEq, Repr

def Stamp.zero : Stamp := ⟨0, 0, 0, 0, 0, 0⟩

def Pwr.reset : Pwr :=
  { porst := true, aon := false, coreEn := false, core := false, coreRst := true, isoCore := true, garEn := false,
    gar := false, garRst := true, isoGar := true, groups := 0, coreEnFrc := 0, garEnFrc := 0, groupFrc := 0, releaseFrc := 0, coreSince := 0,
    autoDone := false, wakeQueue := [], used := [0, 0, 0, 0, 0, 0, 0, 0], monUsed := [0, 0, 0, 0, 0, 0, 0, 0],
    budget := [40, 40, 40, 40, 40, 40, 40, 40], intervalUs := 100, intFrc := 0, burst := false, monBlock := false, alertCounted := false,
    pgoodWait := [], tied := [] }

def Evr.reset : Evr :=
  { ring := [], nextOff := 0, nextSeq := 0, gapBefore := false, gapOut := false, restored := false, sbRead := [], reads := [], head := 2, tail := 2, gen := 0,
    lastSeq := 0, items := [], nv := [], nvFrc := 0, cut := [], itemAt := (2, 0), flush := none, flushNs := 0, hostWait := false, hostCode := 0, sbFrc := 0,
    drainFrc := 0, lastSb := false }

def Saf.reset : Saf :=
  { hz := [], hzEn := 0xFF, hzIn := 0, hzDiag := [], crcNeedsBlob := false, hzLastClear := 0, dfUntil := 0,
    hbLevel := false, hbStopped := false, hbResume := 0, hbFrc := 0, mismatches := [], ctrlPaused := false, inj := none,
    xFails := 0, xPasses := 0, xWinFrc := 0, clockFault := false, lastPass := [], owed := [], testMode := false, selftest := false }

def LedRow.zero : LedRow := ⟨0, 0, 0, 0, 0, 0, 0, 0, 0, 0⟩

def Flw.reset : Flw :=
  { streams := [], held := [], losses := [], conds := [], led := List.replicate 8 LedRow.zero,
    occ := List.replicate 8 0, drops := List.replicate 16 0, lastLed := List.replicate 8 LedRow.zero,
    lastDrops := List.replicate 16 0, periodStart := 0, lflags := 0, gapNext := [], seen := [],
    pressSince := [none, none], headSince := [none, none], noPressSince := [none, none], syncs := [], expected := [], unread := [], waiting := [],
    ledNext := List.replicate 8 LedRow.zero, dropsNext := List.replicate 16 0, replayEnd := none, endStamp := none, pressFrc := 0,
    rstSynced := [] }

def Fab.reset : Fab :=
  { links := [], lsdb := [], lsaSeq := 0, lsaFrc := 0, ident := 0, routes := [], joinFrc := 0, claimFrc := 0,
    idFullNoted := false, launch := none, seenMsgs := [], standby := [], leafIds := [], regFrc := 0, trigSeen := [],
    trigSeq := 0, silent := [], nextGrp := 1, replayMix := false, standbyOk := false, outdone := false,
    lostId := 0, ackTo := none, lsaDirty := false, dbDirty := false }

def Red.reset : Red := { groups := [], frags := [], rounds := [], parts := [] }


/-- One entry of the schedule table (R159–R162, R170). -/
structure SchEntry where
  num : Nat
  kind : Nat
  action : Nat
  arg : Nat
  tracker : Nat
  phase : Nat
  angle : Nat
  div : Nat
  t0 : Nat
deriving DecidableEq, Repr

/-- One step tracker (R145–R158). Angles grow from (phase0, phaseFrc) at `w` per tick; `pub` is the least published angle
(R153); `refs` are the REF and TOL in force for the step (R170). -/
structure Tracker where
  num : Nat
  seen : Bool
  index : Nat
  loadIndex : Option Nat
  fLast : Nat
  pPred : Int
  d : Int
  outRun : Nat
  outSign : Int
  phase0 : Nat
  phaseFrc : Nat
  w : Nat
  pub : Nat
  stallFrc : Nat
  stallAcq : Bool
  stallReason : Nat
  fired : List Nat
  marks : List (Nat × Nat)
  refs : List (Nat × Nat)
  armed : Bool
deriving DecidableEq, Repr

/-- A schedule point reached in the present tick: the next entry of a tracker, at its angle or for want of its mark (R159, R160), or the entry of a
timer in its period `n` (R140). -/
inductive TickPoint where
  | entry (t : Nat) (missing : Bool)
  | timed (num n : Nat)
deriving DecidableEq, Repr

/-- The lowest-numbered enabled tracker of a Boldal T and its PSTAT, as they stood from tick `frc` on (R189, R190). -/
structure StepView where
  frc : Nat
  tracker : Option Tracker
  pstat : Nat
deriving DecidableEq, Repr

/-- The schedule table in force, the shadow table that waits, and what the present tick has taken and not handled yet (R150): the phase marks that
have arrived and the schedule points reached; `views` newest first. -/
structure Stp where
  trackers : List Tracker
  table : List SchEntry
  pending : Option (List SchEntry × Nat)
  marks : List Nat
  points : List TickPoint
  views : List StepView
deriving DecidableEq, Repr

def Stp.reset : Stp := { trackers := [], table := [], pending := none, marks := [], points := [], views := [] }

/-- What a hardware timer acts for (R140). -/
inductive TimerUse where
  | entry (num : Nat)
  | gateList (g : Nat)
  | heaters
deriving DecidableEq, Repr

/-- A claimed hardware timer (R140, R141): target and period in whole nanoseconds of NT; `base` is the first
target; `late` that a step of NT went over the target. -/
structure Timer where
  num : Nat
  page : Nat
  use : TimerUse
  base : Nat
  next : Nat
  period : Nat
  late : Bool
deriving DecidableEq, Repr

/-- A counter slot as the page's configuration sets it (R171). -/
structure Slot where
  num : Nat
  cls : Nat
  index : Nat
  mode : Nat
deriving DecidableEq, Repr

/-- One capture that a frame stream holds (R197): the values in set order, whether it is flagged STOPPED (R175), its STALE_MASK (R209), whether
its values were read over a span of ns (R207), and its stamp. -/
structure Cap where
  vals : List Nat
  stopped : Bool
  stale : Nat
  skew : Bool
  span : Nat
  stamp : Stamp
deriving DecidableEq, Repr

/-- A frame stream (R194–R198): the proxy leaf it belongs to (none for the leaf's own), its local source, the next FRAME_NO, the encoding of its
last frame, the frames since its last key frame, whether one of its frames was lost here, the values of its previous capture; for summaries
the captures held and the baseline. -/
structure FrameStream where
  proxy : Option Nat
  loc : Nat
  frameNo : Nat
  enc : Option Nat
  since : Nat
  lost : Bool
  ref : Option (List Nat)
  caps : List Cap
  base : List Nat
  baseNs : Nat
deriving DecidableEq, Repr

/-- Counter set and frame scheduler (R171–R199). `vals` holds the slots that have been set (the others hold 0); `halted` the slots
whose source lies in a part of the host die that is powered down (R175); `touched` the MODE 3 and 4 slots that have
had a result since the latch; `busy` the begins less the ends of command tap engines with the instant up to which their busy ticks are
counted; `soft` the CNT_SOFT additions of the present tick (R174); `lat` the latch of this tick (R176): FRC, values, STOPPED; `mapped` the
streams whose slot map has gone out (R199); `tokenFrc` the last refill; `lastFull` the last full capture; `stepDown` and `stepFrc` the steps
of R376. -/
structure Cnt where
  vals : List (Nat × Nat)
  touched : List Nat
  busy : List (Nat × Int × Nat)
  soft : List (Nat × Nat × Nat)
  lat : Option (Nat × List (Nat × Nat) × Bool)
  stopped : Bool
  halted : List Nat
  mapped : List (Option Nat × Nat)
  streams : List FrameStream
  tokens : Nat
  tokenFrc : Nat
  lastFull : Option Nat
  stepDown : Nat
  stepFrc : Nat
deriving DecidableEq, Repr

def Cnt.reset : Cnt :=
  { vals := [], touched := [], busy := [], soft := [], lat := none, stopped := false, halted := [], mapped := [], streams := [],
    tokens := 8, tokenFrc := 0, lastFull := none, stepDown := 0, stepFrc := 0 }

/-- One proxy leaf (R205–R209): the raw values last read, the widened values, when the poll that waits fell due, when the last accepted one
did, whether a poll runs on its bus, and that poll's stamp. -/
structure Proxy where
  num : Nat
  raws : List Nat
  vals : List Nat
  due : Option Nat
  lastPoll : Option Nat
  busy : Bool
  stamp : Stamp
deriving DecidableEq, Repr

/-- Proxy leaves (R205–R210), and those whose poll was cut off while its bus still ends the transaction (R95). -/
structure Prx where
  proxies : List Proxy
  ending : List Nat
deriving DecidableEq, Repr

def Prx.reset : Prx := { proxies := [], ending := [] }

/-- Network time (R115–R117): t48 = base48 + (frc − baseFrc) × rate, and the servo's collected measurements. `rateLog` holds the rate
changes, newest first; `stepSynced` the streams with a sync record since the last step (R189); `lastSrc` the source used last;
`setDue` the times that accepted SETs give at the next tick (R123). -/
structure Tim where
  base48 : Nat
  baseFrc : Nat
  rate : Nat
  oldBase : Nat
  oldFrc : Nat
  oldRate : Nat
  offsets : List Int
  inLock : Nat
  outLock : Nat
  stepPending : Bool
  holdFrc : Nat
  holdBound : Nat
  rateLog : List (Nat × Nat)
  limitDone : Bool
  srcUntil : Nat
  thermalFrom : Option Nat
  belowSince : Option Nat
  tempFrc : Nat
  haveTemp : Bool
  widenUntil : Nat
  timers : List Timer
  stepSynced : List Nat
  wasLocked : Bool
  lastSrc : Nat
  setDue : List Nat
  stats : List (Nat × Nat)
deriving DecidableEq, Repr

def Tim.reset : Tim :=
  { base48 := 0, baseFrc := 0, rate := 2 ^ 48, oldBase := 0, oldFrc := 0, oldRate := 2 ^ 48, offsets := [], inLock := 0, outLock := 0, stepPending := false,
    holdFrc := 0, holdBound := 0, rateLog := [], limitDone := false, srcUntil := 0, thermalFrom := none,
    belowSince := none, tempFrc := 0, haveTemp := false, widenUntil := 0, timers := [], stepSynced := [],
    wasLocked := false, lastSrc := 0, setDue := [], stats := [] }


/-- What a sketch account holds beside its registers (R226): the accumulators, and what its SKETCH records carry. -/
structure Account where
  num : Nat
  acc : List Int
  window : Nat
  tag : Nat
  openFrc : Nat
  stall : Bool
  swap : Bool
  fedFrc : Nat
deriving DecidableEq, Repr

/-- A tensor that a tap is delivering (R230–R235): `bind` is the binding that took it, `acct` none where only the digest takes it
or nothing does; `mode` is that binding's MODE when it took it; `tapFmt` is TAPn_FMT of its SOT beat; `left` is what ELEM_COUNT still allows; `bytes` are those the digest covers. -/
structure Tensor where
  tap : Nat
  fmt : Nat
  tapFmt : Nat
  offset : Nat
  left : Option Nat
  taken : Nat
  tag : Nat
  bind : Option Nat
  mode : Nat
  acct : Option Nat
  win : Nat
  dig : Bool
  digInc : Bool
  bytes : List Nat
  lastFrc : Nat
deriving DecidableEq, Repr

/-- A window (R232, R233) beside its WIN_STAT register: the tracker of the schedule entry that opened it, the one of a deferred
open, the bindings it feeds, each with the account it opened, and the stamp of a close under way. -/
structure Win where
  num : Nat
  tracker : Option Nat
  deferTracker : Option Nat
  binds : List (Nat × Nat)
  stamp : Stamp
  stall : Bool
  swap : Bool
deriving DecidableEq, Repr

/-- A command-tap event that waits in the buffer (R59). -/
structure CmtEv where
  ch : Nat
  engine : Nat
  kind : Nat
  tag : Nat
  frc : Nat
deriving DecidableEq, Repr

/-- The Garnet array (R214–R248). `pools` gives each physical macro its role: 0 tap, 1 dense, 2 command, 3 test, 4 retired.
`dense` holds the page images that are not zero, numbered in the pool's own order (R242); `opb` is the operand buffer; `katPass` notes (macro, NT, FRC) of each
macro's last passed test; `closes` counts the closes of each account since RUNNING (R248); `layerUse` notes (macro, NT, queue, TAG) of the LAYER
entries that used a dense macro since its last passed test (R541). -/
structure Gar where
  accounts : List Account
  tensors : List Tensor
  wins : List Win
  pools : List Nat
  denseOrder : List Nat
  dense : List (Nat × List Nat)
  opb : List Host.Cell
  katPass : List (Nat × Nat × Nat)
  closes : List (Nat × Nat)
  layerUse : List (Nat × Nat × Nat × Nat)
  joined : List (Nat × Nat)
  fed : List (Nat × Nat)
deriving DecidableEq, Repr

def Gar.reset : Gar :=
  { accounts := [], tensors := [], wins := [], pools := [], denseOrder := [], dense := [], opb := [], katPass := [], closes := [],
    layerUse := [], joined := [], fed := [] }


/-- A hop entry of a check definition (R266). -/
structure Hop where
  out : Nat
  htype : Nat
  pfmt : Nat
  nIn : Nat
  firstIn : Nat
deriving DecidableEq, Repr

/-- A check definition as loaded (R255): its fields, its lists and its bytes. -/
structure CheckDef where
  kind : Nat
  keymode : Nat
  mode : Nat
  shift : Nat
  n : Nat
  cfmt : Nat
  rfmt : Nat
  pa : Nat
  x : Int
  xc : Int
  kLog : Nat
  eRef : Int
  seed : Nat
  nElems : Nat
  timeoutUs : Nat
  keyPeriodUs : Nat
  contrib : List Nat
  recv : List Nat
  hops : List Hop
  hopIns : List Nat
  raw : List Nat
deriving DecidableEq, Repr

/-- What one stream has delivered to a round: a sketch (of one account, or the sum of `count` of them) or a digest. -/
structure CheckIn where
  source : Nat
  count : Nat
  k : Nat
  eRef : Int
  seed : Nat
  elems : Nat
  nonfin : Nat
  aflags : Nat
  acc : List Int
  digest : List Nat
  where_ : Nat
  grade : Nat
  suspended : Bool
deriving DecidableEq, Repr

/-- An open round (R257): the sum of a collective's contributors has `source` 2^32. -/
structure CheckRound where
  key : Nat
  firstFrc : Nat
  ins : List CheckIn
deriving DecidableEq, Repr

/-- A check entry with a loaded definition; `done` holds the keys of the rounds evaluated last. -/
structure CheckEntry where
  num : Nat
  defn : CheckDef
  rounds : List CheckRound
  done : List Nat
deriving DecidableEq, Repr

/-- A sketch that has not arrived whole (R248): its stream, the first payload, its accumulators so far, stamp and grade. -/
structure CheckPart where
  source : Nat
  head : List Nat
  acc : List Int
  stamp : Stamp
  grade : Nat
  known : Bool
  suspended : Bool
deriving DecidableEq, Repr

/-- The latest drift round that names a stream as its subject (R270, R300): ρ, its bin, and the grade and SUSPENDED of the round. -/
structure Drift where
  source : Nat
  rho : Nat
  bin : Nat
  grade : Nat
  suspended : Bool
deriving DecidableEq, Repr

/-- The check entries (R254–R270), the definitions read and not yet validated, the sketches that arrive in parts, and the latest drift of
each subject stream that the tree engine reads (R270, R300). -/
structure Chk where
  entries : List CheckEntry
  raw : List (Nat × List Nat)
  parts : List CheckPart
  drift : List Drift
deriving DecidableEq, Repr

def Chk.reset : Chk := { entries := [], raw := [], parts := [], drift := [] }



/-- A 16-byte trace packet that waits in a TRACE record (R397): its trace ID, its bytes, its event time in ns. -/
structure TrcOpen where
  id : Nat
  packets : List (Nat × List Nat)
  firstFrc : Nat
  stamp : Stamp
deriving DecidableEq, Repr

/-- A trace event that waits for the end of its tick (R394, R400): `sink` 0 for the sinks of its ID, 1 for a trigger with FREEZE, 2 for a FREEZE
that no trigger comes with. ID 0x7F stands for a sync packet. -/
structure TraceEv where
  id : Nat
  kind : Nat
  sub : Nat
  data : Nat
  sink : Nat
deriving DecidableEq, Repr

/-- Trace and debug (R394–R419): the packets that lie in the buffer as (offset, bytes) oldest first, the port FIFO, the record under way of each
ID, the losses of the present sync interval, the trigger pins and the global stop. `line` is what the port has still to send of its packet; `blk`
holds events and `cmt` command-tap events until the end of the tick; `wpAt` what each watchpoint compared last (watchpoint, slot, value); `polled`
the proxy leaves polled in this tick; `postLeft` counts the bytes of the post-trigger
part still to write; `lpStore` is the low-power store of the always-on domain
(R412): the payload of the POWER_DOWN marker; `lpSent` that it has been sent; `lpFall` the FRC and NT of a fall of HOST_LP_REQ whose markers wait for the page;
`lpMissing`, `coreLost` and `bufLost` what the POWER_UP marker says of the core domain (R413). -/
structure Trc where
  buf : List (Nat × List Nat)
  fifo : List (List Nat)
  line : List Nat
  portCredit : Nat
  open_ : List TrcOpen
  lastSync : Int
  lastSyncFrc : Nat
  syncNo : Nat
  portLost : Nat
  lost : List (Nat × Nat)
  postLeft : Nat
  cmt : List CmtEv
  blk : List TraceEv
  wpAt : List (Nat × Nat × Nat)
  polled : List Nat
  wpFrc : List (Nat × Nat)
  trigOut : List (Nat × Nat)
  stopReq : Bool
  stopFrc : Nat
  scnReq : Bool
  scnFrc : Nat
  hostScan : List Nat
  stopCause : Nat
  stopNt : Nat
  stopSecs : List (Nat × Nat × List Nat)
  lpReq : Bool
  lpAck : Bool
  lpRise : Nat
  lpRiseNt : Nat
  lpStore : Option (List Nat)
  lpSent : Bool
  lpMissing : Bool
  lpFall : Option (Nat × Nat)
  lpStopped : Bool
  coreLost : Bool
  bufLost : Bool
deriving DecidableEq, Repr

def Trc.reset : Trc :=
  { buf := [], fifo := [], line := [], portCredit := 0, open_ := [], lastSync := 0, lastSyncFrc := 0, syncNo := 0, portLost := 0, lost := [],
    postLeft := 0, cmt := [], blk := [], wpAt := [], polled := [], wpFrc := [], trigOut := [], stopReq := false, stopFrc := 0,
    scnReq := false, scnFrc := 0, hostScan := [], stopCause := 0, stopNt := 0, stopSecs := [], lpReq := false, lpAck := false,
    lpRise := 0, lpRiseNt := 0, lpStore := none, lpSent := false, lpMissing := false,
    lpFall := none, lpStopped := false, coreLost := false, bufLost := false }


/-- What a request of the root-of-trust service port is for (R72). -/
inductive RotFor where
  | blob
  | certificate
  | entropy
  | blobSig (bytes : List Nat)
  | peerCert (port anchor : Nat)
  | sign (port : Nat)
  | finish (port : Nat)
  | voteSign (r : Rec)
  | voteVerify (r : Rec)
  | orderVerify (slot : Nat) (bytes : List Nat)
  | segmentVerify
deriving DecidableEq, Repr

/-- A request that has no answer yet. -/
structure RotReq where
  id : Nat
  since : Nat
  what : RotFor
deriving DecidableEq, Repr

/-- The session of one link and the agreement under way on it (R520–R527). `scalar`, `nonce` and `pub` are this end's draw;
`key` names the keys in force and `oldKey` those they replaced, from the first frame under the new ones at `oldFrom`; `step` is 0 idle,
1 offer sent, 2 the peer's certificate is being verified, 3 FINISH is being signed, 4 FINISH sent, 5 the peer's FINISH is being
verified. `sent` counts the frames sent under the keys in force. -/
structure Session where
  port : Nat
  up : Bool
  gen : Nat
  upFrc : Nat
  key : Nat
  sent : Nat
  oldKey : Option Nat
  oldFrom : Option Nat
  step : Nat
  newGen : Nat
  scalar : Nat
  nonce : List Nat
  pub : List Nat
  peerOffer : List Nat
  sig : List Nat
  peerSig : List Nat
  offerNext : Bool
  backoffMs : Nat
  retryFrc : Option Nat
  tagFails : Nat
deriving DecidableEq, Repr

/-- Keys and contexts (R508–R531): the sessions, the root-of-trust requests, the generator's requests since its last seeding, the
device certificate, and the sections of the blob in force; `reseedLost` says that a reseed failed and none has succeeded since. `clearing` notes when the
clearing of a context began. -/
structure Sec where
  sessions : List Session
  rot : List RotReq
  rotNext : Nat
  cert : List Nat
  seeded : Bool
  reseedLost : Bool
  drbgReqs : Nat
  drbgFrc : Nat
  anchors : List (List Nat)
  deny : List Nat
  sensorMap : List (Nat × Nat)
  sentinels : List Nat
  ptpId : List Nat
  wardens : List (Nat × List Nat)
  macBase : List Nat
  blobFrc : Nat
  blobs : Nat
  clearing : List (Nat × Nat)
deriving DecidableEq, Repr

def Sec.reset : Sec :=
  { sessions := [], rot := [], rotNext := 0, cert := [], seeded := false, reseedLost := false, drbgReqs := 0, drbgFrc := 0, anchors := [], deny := [],
    sensorMap := [], sentinels := [], ptpId := [], wardens := [], macBase := [], blobFrc := 0, blobs := 0, clearing := [] }


/-- A stream slot of the compressor (R471, R473): `chan` is the privileged channel that holds it, 0 for an ordinary stream; `hist` the
last 32 KiB of its input. -/
structure CmpSlot where
  num : Nat
  ctx : Nat
  chan : Nat
  depth : Nat
  hist : List Nat
  cuts : Nat
  bytesIn : Nat
deriving DecidableEq, Repr

/-- A privileged channel (R475–R477): the inputs that wait with their instants, how many of them form a cut that has closed and when,
the cuts since the last restart, the next chunk number, and a loss that the next chunk shows. -/
structure CmpChan where
  num : Nat
  buf : List (Nat × List Nat)
  closed : Nat
  closedNs : Nat
  n : Nat
  seq : Nat
  loss : Bool
deriving DecidableEq, Repr

/-- The compressor (R467–R477): the slots, the channels, the rest of an archive under way, the bytes taken and written, and whether the
slots of a drain or an abort have been saved. -/
structure Cmp where
  slots : List CmpSlot
  chans : List CmpChan
  archive : Option (List Nat)
  inBytes : Nat
  outBytes : Nat
  packIn : Nat
  packOut : Nat
deriving DecidableEq, Repr

def Cmp.reset : Cmp :=
  { slots := [], chans := [], archive := none, inBytes := 0, outBytes := 0, packIn := 0, packOut := 0 }



/-- The verdict in force of one subject, kind and origin (R442): its payload and digests, its ticket, its instant and that of the latest
report. -/
structure Force where
  subject : Nat
  kind : Nat
  origin : Nat
  cls : Nat
  payload : List Nat
  audit : List Nat
  ticket : Nat
  issued : Nat
  reported : Nat
deriving DecidableEq, Repr

/-- One vote counted for an entry (R454): warden, vote, the 160 bytes of its payload. -/
structure Vote where
  node : Nat
  vote : Nat
  bytes : List Nat
deriving DecidableEq, Repr

/-- An action entry (R447): the verdict it stands on (its ticket where this node issued it, else its SEQ, and its node) with what a
standing order matches; `authNs` and `execNs` are instants of NT, `due` whether the execution instant has passed,
`shut` that a SWITCH entry's gate has been closed since it may execute (R432); `question` is 1 for a
LIFT ballot; `prior` is the FSTATE before an offer. -/
structure VEntry where
  num : Nat
  serial : Nat
  kind : Nat
  subject : Nat
  state : Nat
  reason : Nat
  held : Bool
  auth : Nat
  order : Nat
  ticket : Nat
  seq : Nat
  node : Nat
  vkind : Nat
  cls : Nat
  vflags : Nat
  grade : Nat
  origin : Nat
  dmodel : List Nat
  model : List Nat
  frame : List Nat
  payload : List Nat
  audit : List Nat
  openFrc : Nat
  ballotFrc : Nat
  authFrc : Nat
  shut : Bool
  execNs : Nat
  due : Bool
  question : Nat
  votes : List Vote
  prior : Nat
deriving DecidableEq, Repr

/-- A standing order that is valid (R457, R458): its slot, its header and all its bytes. -/
structure Order where
  slot : Nat
  header : List Nat
  bytes : List Nat
deriving DecidableEq, Repr

/-- An order under verification: its bytes, the next signature, the wardens whose signatures are valid; `again` says that an order in
force is checked against a replaced warden set (R574). -/
structure OrderLoad where
  slot : Nat
  bytes : List Nat
  next : Nat
  good : List Nat
  again : Bool
deriving DecidableEq, Repr

/-- A LIFT request that this warden's operator has not answered (R462): the common 16 bytes of the request and its deadline. -/
structure LiftAsk where
  entry : Nat
  head : List Nat
  deadline : Nat
deriving DecidableEq, Repr

/-- Fleet verdicts (R441–R466). `seqs` gives the SEQ of each verdict emitted here by its ticket; `serials` counts the openings of each
entry; `hour` holds the NT of the EXPEL releases of the last 3,600 s; `logCount` and `logWrap` count the log's entries and overwrites; `lags`
holds (entity key, lag, step index) of the latest lag records. -/
structure Vrd where
  force : List Force
  entries : List VEntry
  serials : List (Nat × Nat)
  orders : List Order
  loads : List OrderLoad
  lifts : List LiftAsk
  seqs : List (Nat × Nat)
  nextTicket : Nat
  hour : List Nat
  logCount : Nat
  logWrap : Nat
  lags : List (Nat × Nat × Nat)
deriving DecidableEq, Repr

def Vrd.reset : Vrd :=
  { force := [], entries := [], serials := [], orders := [], loads := [], lifts := [], seqs := [], nextTicket := 1, hour := [],
    logCount := 0, logWrap := 0, lags := [] }



/-- One optical lane (R430–R432): the sum and number of laser results of this fade interval, the latest 64 interval means newest first
(interval, sum, number), the evaluations below P_MIN in a row. -/
structure Lane where
  num : Nat
  fadeSum : Int
  fadeN : Nat
  means : List (Nat × Int × Nat)
  below : Nat
deriving DecidableEq, Repr

/-- A calibration under way in a heater group (R436): the heater, the period within its sixteen, its code before it, the sums of the two
means, the columns found. -/
structure HeatCal where
  j : Nat
  period : Nat
  code : Nat
  low : List Int
  high : List Int
  cols : List (List Int)
deriving DecidableEq, Repr

/-- A heater group (R434–R436): active and shadow matrices, setpoints and codes by channel, the measurements of this period, whether a swap
waits, the calibration, and the calibrations done. -/
structure HeatGroup where
  num : Nat
  active : List (Nat × Int)
  shadow : List (Nat × Int)
  codes : List Nat
  meas : List (Nat × Int)
  swap : Bool
  cal : Option HeatCal
  result : Option (List (List Int))
  done : Nat
deriving DecidableEq, Repr

/-- Optics (R426–R437): `sums` holds sum and number of the results of each channel in this evaluation period, `remote` those of the
receiver powers that HEALTH records of kind 3 brought, by LANE_KEY; `fadeNo` the number of the fade interval. -/
structure Opt where
  sums : List (Nat × Int × Nat)
  remote : List (Nat × Int × Nat)
  lanes : List Lane
  groups : List HeatGroup
  evalFrc : Nat
  fadeFrc : Nat
  loopFrc : Nat
  latched : Bool
deriving DecidableEq, Repr

def Opt.reset : Opt := { sums := [], remote := [], lanes := [], groups := [], evalFrc := 0, fadeFrc := 0, loopFrc := 0, latched := true }

/-- A sentinel (R422–R424): the edges of the gate under way, the first powered samples while it learns its baseline. -/
structure Sentinel where
  num : Nat
  edges : Nat
  learn : List Nat
deriving DecidableEq, Repr

/-- Wear (R420–R425): the latest result of each channel, the open SENSOR record, the gate under way, when the last interval
began. `conv` holds the stamp of the latest pulse of each CONV_START output. -/
structure Hlt where
  latest : List (Nat × Int)
  open_ : List (Nat × Int × Nat)
  openFrc : Nat
  openStamp : Stamp
  gate : Option Nat
  lastFrc : Nat
  sentinels : List Sentinel
  conv : List (Nat × Stamp)
deriving DecidableEq, Repr

def Hlt.reset : Hlt :=
  { latest := [], open_ := [], openFrc := 0, openStamp := Stamp.zero, gate := none, lastFrc := 0, sentinels := [], conv := [] }



/-- A model as loaded (R285, R292): its image and the 32-byte D_MODEL. -/
structure AgtModel where
  image : List Nat
  digest : List Nat
deriving DecidableEq, Repr

/-- A model slot (R291–R294): the active and the standby model, and the former one while samples use it. -/
structure AgtSlot where
  num : Nat
  active : Option AgtModel
  standby : Option AgtModel
  former : Option AgtModel
deriving DecidableEq, Repr

/-- An input word that is present (R297–R299): its value, its type, the stream that wrote it, and whether that record carried SUSPENDED. -/
structure EntWord where
  word : Nat
  isInt : Bool
  value : Nat
  source : Nat
  suspended : Bool
  grade : Nat
deriving DecidableEq, Repr

/-- The raw value that a rule read last (R298): rule, stream, value, frame time in ns, SUSPENDED and grade of its record. -/
structure RuleLast where
  rule : Nat
  source : Nat
  raw : Nat
  ns : Nat
  sus : Bool
  grade : Nat
deriving DecidableEq, Repr

/-- What the node holds of an entity (R297–R300): its words, the rules' last values, the slot map under way, the counts since the previous
sample with the highest grade of the CHECK records among them and whether one was SUSPENDED, and the last lag sample: the lag where the tracker was TRACKING, its grade, whether its
record was SUSPENDED. -/
structure Entity where
  key : Nat
  words : List EntWord
  last : List RuleLast
  slots : List Nat
  grade : Nat
  gaps : Nat
  failed : Nat
  failGrade : Nat
  failSus : Bool
  lag : Option (Option Nat × Nat × Bool)
deriving DecidableEq, Repr

/-- A stream that rules read (R193, R197–R199, R307): whether its FIRST sync has come, the reference frame and whether it holds, the
CNT_SRC words of its slot map, TRANSIENT, tracker state and SUSPENDED of its last sync, the highest SEQ taken. -/
structure RxStream where
  source : Nat
  first : Bool
  ref : List Nat
  good : Bool
  srcs : List Nat
  transient : Bool
  trk : Option Nat
  syncSus : Bool
  seq : Option Nat
deriving DecidableEq, Repr

/-- A frame boundary whose samples are not assembled yet (R296), with what the node held at its tick. -/
structure Boundary where
  ent : Entity
  frameNo : Nat
  ns : Nat
  sp : Nat
  trk : Option Nat
  syncSus : Bool
  unreachable : Bool
  drift : Option Drift
deriving DecidableEq, Repr

/-- A sample (R295, R305–R309): `ser` is its place in the order of assembly, `ent` its entity
as the table named it then, `gen` the SWAPS of its slot at assembly; FLAGS and frame as in
R306; for a queue-mode sample `job` is (queue, entry index, sample number); `scores` stands once its walks are done. -/
structure Sample where
  ser : Nat
  slot : Nat
  gen : Nat
  key : Nat
  ent : Nat
  row : Option Nat
  feats : List Nat
  missing : List Bool
  flags : Nat
  grade : Nat
  ns : Nat
  sp : Nat
  frameNo : Nat
  dcmd : List Nat
  job : Option (Nat × Nat × Nat)
  write : Option Nat
  offer : Bool
  lane : Option Nat
  done : Bool
deriving DecidableEq, Repr

/-- The Agate engine (R284–R321). `ents` and `rx` hold what the rules have collected; `transientAt` the nodes with an open condition 0x0A;
`unreachable` the entities so marked (R22, R209); `rows` the entity table; `byLane` the tickets of the verdicts issued on candidates of a
lane since its last passed test, `retired` the lanes that failed theirs (R540). -/
structure Agt where
  rx : List RxStream
  ents : List Entity
  transientAt : List Nat
  unreachable : List Nat
  bounds : List Boundary
  rows : List (Nat × List Nat)
  slots : List AgtSlot
  samples : List Sample
  nextSer : Nat
  byLane : List (Nat × Nat)
  retired : List Nat
deriving DecidableEq, Repr

def Agt.reset : Agt :=
  { rx := [], ents := [], transientAt := [], unreachable := [], bounds := [], rows := [], slots := [], samples := [], nextSer := 0,
    byLane := [], retired := [] }



/-- The token counts of a marker (R388), in 1/8,000 byte, with the instant of the last refill. -/
structure Marker where
  port : Nat
  cls : Nat
  tc : Nat
  tp : Nat
  frc : Nat
deriving DecidableEq, Repr

/-- Policers (R388, R389); a marker that has not metered yet is full. -/
structure Pol where
  markers : List Marker
deriving DecidableEq, Repr

def Pol.reset : Pol := { markers := [] }


/-- A gate list as swapped in (R384–R387): mode 0 off, 1 NT, 2 angle; `base` in ns; entries (GATES, DUR). -/
structure GateCfg where
  mode : Nat
  tracker : Nat
  fallback : Nat
  base : Nat
  cycle : Nat
  entries : List (Nat × Nat)
deriving DecidableEq, Repr

/-- A gate list (R384–R387): what is in force, the swap that waits with its instant in ns, the published angle at the last firing, the entry
that a step mark holds. -/
structure GateList where
  cfg : GateCfg
  pending : Option GateCfg
  at_ : Nat
  a0 : Option Nat
  hold : Option Nat
deriving DecidableEq, Repr

/-- The egress shaper (R381–R387): lists 0 and 1; whether an abort holds the queues closed (R94). -/
structure Shp where
  lists : List GateList
  closed : Bool
deriving DecidableEq, Repr

def GateList.off : GateList := { cfg := ⟨0, 0, 0xFF, 0, 1000000, [(0xFF, 0)]⟩, pending := none, at_ := 0, a0 := none, hold := none }

def Shp.reset : Shp := { lists := [GateList.off, GateList.off], closed := false }


/-- Firmware update (R571–R573): the bytes of the staging half; whether a verification is under way; the VERSION and FROM_ROM of the previous image;
whether the new image has not reported itself alive, and since when it runs; the ledger period in which the handover was asked for; whether a pause
is a handover's. -/
structure Upd where
  stage : List Host.Cell
  verifying : Bool
  prevVer : Nat
  prevRom : Nat
  awaiting : Bool
  handFrc : Nat
  askedIn : Nat
  pausing : Bool
deriving DecidableEq, Repr

def Upd.reset : Upd :=
  { stage := [], verifying := false, prevVer := 0, prevRom := 1, awaiting := false, handFrc := 0, askedIn := 0, pausing := false }

/-- A frame that the transparent clock forwards and that waits in queue 2 of a port (R127, R128): message type, sequenceId, the correction field but
for the egress instant, the frame. -/
structure PtpWait where
  typ : Nat
  seq : Nat
  base : Int
  bytes : List Nat
deriving DecidableEq, Repr

/-- A fabric port of the PTP page: the receive pulses not assigned yet, oldest first (R54), whether the queue has overflowed or run empty,
the last frame received; the PTP frames sent whose transmit pulse has not come (R55): what they are (0 forwarded event, 1 own Sync, 2 own
Delay_Req, 3 any other), predicted egress, sequenceId; the last Sync and Announce sent and their sequenceIds; the frames that wait in queue 2. -/
structure PtpPort where
  port : Nat
  stamps : List Nat
  beyond : Bool
  astray : Bool
  lastRx : Nat
  sent : List (Nat × Nat × Nat)
  syncFrc : Option Nat
  syncSeq : Nat
  annFrc : Option Nat
  annSeq : Nat
  hopFrc : Option Nat
  queue : List PtpWait
deriving DecidableEq, Repr

/-- A Sync that waits for its Follow_Up, or the last one complete: the master's port, sequenceId, t1, t2, the sum of its correction fields
(2^-16 ns). -/
structure PtpSync where
  from_ : List Nat
  seq : Nat
  t1 : Nat
  t2 : Nat
  corr : Int
deriving DecidableEq, Repr

/-- The IEEE 1588-2019 subset (R126–R131). `backup` says which slave port is active and `alive` that it delivers Syncs; `run` is the
last Sync of the primary port with the number of consecutive ones; `dreq` the Delay_Req under way: sequenceId and t3. -/
structure Ptp where
  ports : List PtpPort
  backup : Bool
  alive : Bool
  lastSync : Nat
  syncLog : Int
  waiting : Option PtpSync
  latest : Option PtpSync
  dreq : Option (Nat × Option Nat)
  dreqFrc : Option Nat
  dreqSeq : Nat
  mpd : Option Int
  lastOffset : Option (Int × Nat)
  outliers : List Int
  run : Option (Nat × Nat)
deriving DecidableEq, Repr

def Ptp.reset : Ptp :=
  { ports := [], backup := false, alive := false, lastSync := 0, syncLog := -4, waiting := none, latest := none, dreq := none,
    dreqFrc := none, dreqSeq := 0, mpd := none, lastOffset := none, outliers := [], run := none }


/-- The block without its command queue and the memory behind its DMA port. `sets` are the bits set in the present cycle, which no clear of that cycle
clears (R11): the key of the field, the bits, the FRC. -/
structure Hw where
  prof : Profile
  regs : RegFile
  frc : Nat
  freeCtr : Nat
  rsp : Rsp
  latches : List Latch
  sets : List (Nat × Nat × Nat)
  out : List Out
  claims : List (Nat × Nat)
  dma : List DmaReq
  dmaNext : Nat
  queues : List QueueRun
  passes : List Pass
  keys : List CtxKey
  aborts : List (Nat × Nat)
  overruns : List Nat
  pwr : Pwr
  evr : Evr
  saf : Saf
  tim : Tim
  ptp : Ptp
  stp : Stp
  cnt : Cnt
  prx : Prx
  flw : Flw
  fab : Fab
  red : Red
  gar : Gar
  chk : Chk
  lastCtx : List (Nat × Nat)
  trc : Trc
  sec : Sec
  cmp : Cmp
  vrd : Vrd
  opt : Opt
  hlt : Hlt
  agt : Agt
  pol : Pol
  shp : Shp
  upd : Upd
deriving DecidableEq, Repr

/-- Fields whose reset value depends on the profile or the part ("–" in the tables), with their elements, in rising order of key. -/
def profileResets (p : Profile) : List (Field × Nat) :=
  let sel (l t g : Nat) : Nat := match p with | .l => l | .t => t | .g => g
  let pages : List Nat := match p with
    | .l => [0x00, 0x01, 0x02, 0x04, 0x06, 0x08, 0x09, 0x10, 0x11, 0x12, 0x13, 0x14, 0x20, 0x2C, 0x30, 0x34, 0x38, 0x3A, 0x40,
             0x48, 0x49, 0x4C, 0x4D, 0x50, 0x54, 0x58, 0x5C]
    | .t => [0x00, 0x01, 0x02, 0x03, 0x04, 0x05, 0x06, 0x08, 0x09, 0x0A, 0x10, 0x11, 0x12, 0x13, 0x14, 0x20, 0x24, 0x28, 0x2C,
             0x30, 0x34, 0x35, 0x38, 0x3A, 0x40, 0x42, 0x44, 0x48, 0x49, 0x4C, 0x4D, 0x50, 0x54, 0x58, 0x5C]
    | .g => [0x00, 0x01, 0x02, 0x03, 0x04, 0x05, 0x10, 0x11, 0x12, 0x13, 0x14, 0x20, 0x24, 0x28, 0x2C,
             0x30, 0x34, 0x35, 0x38, 0x3A, 0x40, 0x42, 0x44, 0x48, 0x49, 0x4C, 0x4D, 0x50, 0x54, 0x58, 0x5C]
  let func (pg : Nat) : Nat × Nat :=
    if pg = 0x03 then (0x02, 1) else if 0x11 ≤ pg ∧ pg ≤ 0x13 then (0x10, pg - 0x10)
    else if pg = 0 then (0, sel 0 1 2) else (pg, 0)
  let bound (pg : Nat) : Nat :=
    match pg with
    | 0x01 => 80 | 0x02 => 80 | 0x03 => 80 | 0x04 => 2 | 0x05 => 5 | 0x06 => 2 | 0x08 => 2 | 0x09 => 10 | 0x0A => 20
    | 0x10 => 40 | 0x14 => 10 | 0x20 => 10 | 0x24 => 20 | 0x28 => 50 | 0x2C => 20
    | 0x30 => 10 | 0x34 => 5 | 0x35 => 2 | 0x38 => 30 | 0x3A => 60 | 0x40 => 10 | 0x42 => 20 | 0x44 => 10 | 0x48 => 20
    | 0x49 => 30 | 0x4C => 40 | 0x4D => 5 | 0x50 => 30 | 0x58 => 50 | 0x5C => 50 | _ => 0
  let cap (pg : Nat) : Nat :=
    match pg with
    | 0x01 => sel 8 64 64 | 0x02 => sel 16 32 32 | 0x03 => 32
    | 0x04 => sel 1 6 6 + 32 * 256
    | 0x06 => sel 1 0x80 0 + 0x40 * 256
    | 0x08 => sel 0x4000 0x8000 0
    | 0x10 => sel 4 32 320 + sel 1 2 8 * 512
    | 0x11 => sel 8 10 40 + sel 64 256 256 * 128
    | 0x12 => sel 64 256 1024 + sel 6 8 10 * 2048
    | 0x14 => sel 2 8 32
    | 0x20 => sel 2 16 64 + sel 4 8 16 * 128
    | 0x24 => sel 0 256 1024
    | 0x28 => sel 0 3 15
    | 0x2C => sel 1 255 63
    | 0x38 => sel 4096 16384 16384
    | 0x42 => sel 0 64 256 + sel 0 4 16 * 512
    | 0x44 => sel 0 63 255
    | 0x48 => 16 + sel 1 2 4 * 32
    | _ => 0
  let present (i : Nat) : Nat :=
    total ((pages.filter fun q => q / 32 == i).map fun q => 2 ^ (q % 32))
  let more (pg : Nat) : List (Field × Nat) :=
    match pg with
    | 0x00 => ((List.range 8).map fun i => (R.BLK_PRESENT_PRESENT.at i, present i)) ++
        [(R.BLK_PORTS_CULVERT, sel 2 256 64), (R.BLK_PORTS_FABRIC, sel 0 4 16), (R.BLK_PORTS_TAPS, sel 8 10 40),
         (R.BLK_SILICON_REV, Config.siliconRev.toNat)]
    | 0x01 => [(R.CTX_CFG_EN.at 0, 1), (R.CTX_CFG_OPER.at 0, 1)]
    | 0x04 => [(R.TIM_CFG_SOURCE, sel 1 2 2)]
    | 0x06 => [(R.STP_TRK_EN_EN.at 0, sel 1 0 0)]
    | 0x10 => [(R.GAR_POOL_TAP, sel 4 32 320), (R.GAR_STAT_ACTIVE, sel 4 32 320), (R.GAR_STAT_TEST, sel 1 2 8),
         (R.GAR_WIDTH_K, sel 64 256 1024), (R.GAR_WIDTH_LOAD, sel 977 521 833), (R.GAR_ROT_SLOT_US, sel 1000 294 121),
         (R.GAR_DENSE_TAP, sel 4 32 320)]
    | 0x13 => [(R.OPB_SIZE_KIB, sel 1024 8192 32768), (R.DIG_STAT_CORES, sel 16 32 128)]
    | 0x30 => [(R.FLW_POOL_KIB, sel 512 16384 65536), (R.FLW_RESV_AVAIL, sel 32 4096 16384)]
    | 0x34 => ((List.range (sel 2 256 64)).map fun i => (R.SHP_RATE_MBPS.at i, sel 8000 64000 64000)) ++
        (List.range (sel 0 4 16)).map fun i => (R.SHP_RATE_MBPS.at (0x200 + i), 400000)
    | 0x38 => [(R.TRC_BUF_KIB, sel 4096 16384 16384)]
    | 0x48 => (List.range 4).map fun c => (R.CH_CFG_SLOT.at c, 15 - c)
    | 0x54 => [(R.SAF_ROUND_US, sel 5000 4998 4961)]
    | 0x58 => [(R.PWR_DOM_GROUPS, 8)]
    | 0x5C => [(R.UPD_IMG_SIZE_KIB, sel 512 2048 2048), (R.UPD_RUN_VER_VERSION, Config.romVersion.toNat)]
    | _ => []
  pages.flatMap fun q =>
    [(R.PAGE_ID_MAJOR q, 1), (R.PAGE_ID_INST q, (func q).2), (R.PAGE_ID_FUNC q, (func q).1),
     (R.PAGE_CAP_ABORTABLE q, if bound q = 0 then 0 else 1), (R.PAGE_CTL_ENABLE q, if q = 0x00 ∨ q = 0x54 then 1 else 0), (R.PAGE_CAP_SAVE q, if q = 0x48 then 1 else 0),
     (R.PAGE_CAP_TENANT q, if 0x10 ≤ q ∧ q ≤ 0x13 then 1 else 0), (R.PAGE_CAP_FUNC_CAP q, cap q),
     (R.PAGE_STATE_STATE q, if q = 0x00 then 2 else if q = 0x54 then 1 else 0),
     (R.PAGE_ABORT_BOUND_BOUND q, bound q)] ++ more q

/-- A register file with the profile's reset values put in where `gone` holds of the key. -/
def profileRegs (p : Profile) (gone : Nat → Bool) (r : RegFile) : RegFile :=
  (profileResets p).foldr (fun e acc => if gone e.1.key then acc.write e.1 e.2 else acc) r


/-- The block right after reset in profile `p`: PORST_N asserted, every register at its reset value (R10). -/
def Hw.resetFor (p : Profile) : Hw :=
  {
    prof := p,
    regs := profileRegs p (fun _ => true) [],
    frc := 0,
    freeCtr := 0,
    rsp := ⟨0, false⟩,
    latches := [],
    sets := [],
    out := [],
    claims := [],
    dma := [],
    dmaNext := 0,
    queues := [],
    passes := [],
    keys := [],
    aborts := [],
    overruns := [],
    pwr := Pwr.reset,
    evr := Evr.reset,
    saf := Saf.reset,
    tim := Tim.reset,
    ptp := Ptp.reset,
    stp := Stp.reset,
    cnt := Cnt.reset,
    prx := Prx.reset,
    flw := Flw.reset,
    fab := Fab.reset,
    red := Red.reset,
    gar := Gar.reset,
    chk := Chk.reset,
    lastCtx := [],
    trc := Trc.reset,
    sec := Sec.reset,
    cmp := Cmp.reset,
    vrd := Vrd.reset,
    opt := Opt.reset,
    hlt := Hlt.reset,
    agt := Agt.reset,
    pol := Pol.reset,
    shp := Shp.reset,
    upd := Upd.reset
  }

/-- Why a command can end in a fault: none does in this block. A host access that the spec refuses is answered with a bus
error and leaves a next state (R42, R43), so this type has no reason that any meaning gives. -/
inductive Fault where
  /-- Raised by no command; kept so that the type is not empty. Safe. -/
  | noSuchState
deriving DecidableEq, Repr

/-- Why a command has no meaning here. -/
inductive Refusal where
  /-- The command's arm has no meaning yet. Safe: no claim can be proved about it. -/
  | notModelled (mnemonic : String)
deriving DecidableEq, Repr

/-- The machine: the block, the memory behind its DMA initiator port (R45) and the commands that wait. -/
structure State where
  hw : Hw
  mem : List Host.Cell
  pending : List Instr
deriving DecidableEq, Repr

/-- The machine right after reset in profile `p`. -/
def State.resetFor (p : Profile) : State := { hw := Hw.resetFor p, mem := [], pending := [] }

/-- The machine right after reset: a Boldal T (DESIGN CHOICE, log entry 1), PORST_N asserted, no command waiting. -/
def State.reset : State := State.resetFor .t

end Sys2Proof.Machine
end

