-- ==== Sys2Proof/Machine/Ops.lean ====
section
/-!
DEFINITION. Machine/Ops.lean: the named operations over the register file, the memory behind the DMA port, the two counters of
time (R113–R115), the pages' resources and the DMA initiator port (R45).
-/
namespace Sys2Proof.Machine

/-- Read a register field. -/
def Hw.g (h : Hw) (f : Field) : Nat := h.regs.read f

/-- Write a register field, cut to its width. -/
def Hw.s (h : Hw) (f : Field) (v : Nat) : Hw := { h with regs := h.regs.write f v }

/-- A one-bit field is set. -/
def Hw.on (h : Hw) (f : Field) : Bool := h.g f != 0

/-- Add to a counter field, modulo its width (log entry 5). -/
def Hw.add (h : Hw) (f : Field) (n : Nat) : Hw := h.s f (h.g f + n)

/-- Count one. -/
def Hw.inc (h : Hw) (f : Field) : Hw := h.add f 1

/-- Count one, stopping at the field's largest value. -/
def Hw.incSat (h : Hw) (f : Field) : Hw := if h.g f + 1 < 2 ^ f.width then h.s f (h.g f + 1) else h

/-- The sets of the present cycle, each (key of the field, bits): those noted at another FRC count no longer. -/
def Hw.setsNow (h : Hw) : List (Nat × Nat × Nat) := h.sets.filter fun e => e.2.2 == h.frc

/-- The bits of a field that have been set in the present cycle (R11). -/
def Hw.setNow (h : Hw) (f : Field) : Nat := (h.setsNow.filter fun e => e.1 == f.key).foldl (fun acc e => acc ||| e.2.1) 0

/-- Set the bits of `m` in a field whose bits are set and cleared by a write or by the block: the set stands against a clear of the same cycle
(R11). -/
def Hw.setBits (h : Hw) (f : Field) (m : Nat) : Hw := { h.s f (h.g f ||| m) with sets := (f.key, m, h.frc) :: h.setsNow }

/-- Clear the bits of `m` in a field. -/
def Hw.dropBits (h : Hw) (f : Field) (m : Nat) : Hw := h.s f (h.g f - (h.g f &&& m))

/-- Clear the bits of `m` in a field, but those that have been set in the same cycle (R11). -/
def Hw.clrBits (h : Hw) (f : Field) (m : Nat) : Hw := h.dropBits f (m - (m &&& h.setNow f))

/-- A 64-bit value held in two 32-bit fields. -/
def Hw.g64 (h : Hw) (lo hi : Field) : Nat := h.g lo + 2 ^ 32 * h.g hi

/-- Write a 64-bit value held in two 32-bit fields. -/
def Hw.s64 (h : Hw) (lo hi : Field) (v : Nat) : Hw := (h.s lo (v % 2 ^ 32)).s hi (v / 2 ^ 32)

/-- Add to a 64-bit counter held in two fields. -/
def Hw.add64 (h : Hw) (lo hi : Field) (n : Nat) : Hw := h.s64 lo hi ((h.g64 lo hi + n) % 2 ^ 64)

/-- The elements of an arrayed field that have been written, in rising order; where its reset value is 0 every other element holds 0. -/
def Hw.written (h : Hw) (f : Field) : List Nat :=
  h.regs.filterMap fun e => if e.1 / 1048576 = f.key / 1048576 then some (e.1 % 1048576) else none

/-- The counter slots of a leaf whose source has been written (R171). -/
def Hw.slots (h : Hw) : List Slot :=
  if h.prof ≠ .l then [] else (h.written R.CNT_SRC_CLASS).map fun n =>
    ⟨n, h.g (R.CNT_SRC_CLASS.at n), h.g (R.CNT_SRC_INDEX.at n), h.g (R.CNT_SRC_MODE.at n)⟩

/-- The slots of partial set `k`, in set order (R178). -/
def Hw.members (h : Hw) (k : Nat) : List Nat :=
  (h.written R.CNT_SETS_MASK).filter fun n => bit (h.g (R.CNT_SETS_MASK.at n)) k

/-- Put something out at a port. -/
def Hw.emit (h : Hw) (o : Out) : Hw := { h with out := h.out ++ [o] }

/-- The next free value of the model (log entry 3). -/
def Hw.fresh (h : Hw) : Nat × Hw := ((Config.free h.freeCtr).toNat, { h with freeCtr := h.freeCtr + 1 })

/-- Choose by profile. -/
def Profile.sel (p : Profile) (l t g : Nat) : Nat := match p with | .l => l | .t => t | .g => g

/-- Apply `f` for each element. -/
def Hw.each {α : Type} (h : Hw) (l : List α) (f : Hw → α → Hw) : Hw := l.foldl f h

/-! ### Memory behind the DMA initiator port -/

/-- What an unlisted byte of memory reads as (log entry 2). -/
def Memory.blank : BitVec 8 := 0

/-- The byte at an address. -/
def Memory.read : List Host.Cell → Nat → BitVec 8
  | [], _ => Memory.blank
  | (k, b) :: t, a => if k = a then b else if a < k then Memory.blank else Memory.read t a

/-- Set the byte at an address, keeping the canonical form. -/
def Memory.write : List Host.Cell → Nat → BitVec 8 → List Host.Cell
  | [], a, b => if b = Memory.blank then [] else [(a, b)]
  | (k, c) :: t, a, b =>
    if k = a then (if b = Memory.blank then t else (a, b) :: t)
    else if a < k then (if b = Memory.blank then (k, c) :: t else (a, b) :: (k, c) :: t)
    else (k, c) :: Memory.write t a b

/-- Every address of the list is above `a`. -/
def Memory.above (a : Nat) : List Host.Cell → Bool
  | [] => true
  | (k, _) :: _ => decide (a < k)

/-- The canonical form: addresses strictly rising, and no entry equal to what an unlisted address reads as. -/
def Memory.wf : List Host.Cell → Bool
  | [] => true
  | (k, b) :: t => (b != Memory.blank) && Memory.above k t && Memory.wf t

/-- `n` bytes from an address, which wraps at 2^64. -/
def Memory.readBytes (m : List Host.Cell) (a : Nat) : Nat → List Nat
  | 0 => []
  | n + 1 => (Memory.read m (a % 2 ^ 64)).toNat :: Memory.readBytes m (a + 1) n

/-- Store bytes from an address, which wraps at 2^64. -/
def Memory.writeBytes : List Host.Cell → Nat → List Nat → List Host.Cell
  | m, _, [] => m
  | m, a, b :: t => Memory.writeBytes (Memory.write m (a % 2 ^ 64) (BitVec.ofNat 8 b)) (a + 1) t

/-! ### Time (R113–R115) -/

/-- t48 at an FRC value (R115): 2^-48 ns, 112 bits. Before the tick at which the line in force begins, the line before it holds. -/
def Hw.t48 (h : Hw) (frc : Nat) : Nat :=
  if frc < h.tim.baseFrc then h.tim.oldBase + (frc - h.tim.oldFrc) * h.tim.oldRate
  else h.tim.base48 + (frc - h.tim.baseFrc) * h.tim.rate

/-- A line of NT begins: t48 is `new` at the tick `frc`, and the line that it replaces stays known for the ticks before. -/
def Tim.rebase (t : Tim) (new frc : Nat) : Tim :=
  if t.baseFrc < frc then { t with oldBase := t.base48, oldFrc := t.baseFrc, oldRate := t.rate, base48 := new, baseFrc := frc }
  else { t with base48 := new, baseFrc := frc }

/-- NT at an FRC value: 80 bits, 2^-16 ns (R114, R115). -/
def Hw.ntAt (h : Hw) (frc : Nat) : Nat := h.t48 frc / 2 ^ 32 % 2 ^ 80

/-- NT now. -/
def Hw.nt (h : Hw) : Nat := h.ntAt h.frc

/-- NT[79:16] now: whole nanoseconds (R114). -/
def Hw.ns (h : Hw) : Nat := h.nt / 2 ^ 16

/-- Time has been stepped once (R117, R120). -/
def Hw.timed (h : Hw) : Bool := h.on R.TIM_STATUS_FIRST_STEP_DONE

/-- The time that an event-log entry carries: NT[79:16], or the FRC before the first step (R488). -/
def Hw.logTime (h : Hw) : Nat := if h.timed then h.ns else h.frc % 2 ^ 64

/-- A rate change at the present tick (R115); where a SET waits for the next tick (R123), the rate holds from there. -/
def Hw.setRate (h : Hw) (rate : Nat) : Hw :=
  let t := if h.frc < h.tim.baseFrc then h.tim else h.tim.rebase (h.t48 h.frc) h.frc
  Hw.s64 { h with tim := { t with rate := rate } } R.TIM_RATE_LO_RATE R.TIM_RATE_HI_RATE rate

/-! ### Pages -/

/-- The page's state code (R85). -/
def Hw.state (h : Hw) (p : Nat) : Nat := h.g (R.PAGE_STATE_STATE p)

/-- The page is RUNNING. -/
def Hw.running (h : Hw) (p : Nat) : Bool := h.state p == 2

/-- The page is OFF. -/
def Hw.off (h : Hw) (p : Nat) : Bool := h.state p == 0

/-- The page exists in this profile (R77, R78): every implemented page has MAJOR version 1. -/
def Hw.present (h : Hw) (p : Nat) : Bool := p < 256 && h.g (R.BLK_PRESENT_PRESENT.at (p / 32)) / 2 ^ (p % 32) % 2 == 1

/-- The number of contexts (R508). -/
def Hw.contexts (h : Hw) : Nat := h.prof.sel 8 64 64

/-- The number of queues (R101). -/
def Hw.queueCount (h : Hw) : Nat := h.prof.sel 16 64 64

/-- The operator context (R508). -/
def Hw.operCtx (h : Hw) : Nat := h.g R.CTX_OPER_CTX

/-- The culvert ports (R30). -/
def Hw.culverts (h : Hw) : Nat := h.prof.sel 2 256 64

/-- The fabric ports (R30). -/
def Hw.fabrics (h : Hw) : Nat := h.prof.sel 0 4 16

/-- The taps (R30). -/
def Hw.taps (h : Hw) : Nat := h.prof.sel 8 10 40

/-! ### The DMA initiator port (R45) -/

/-- The bursts of `len` bytes from address `a`, by fuel: at most 4 KiB each, none across a 4 KiB boundary. -/
def burstsOf : Nat → Nat → Nat → List (Nat × Nat)
  | 0, _, _ => []
  | n + 1, a, len =>
    let k := min len (4096 - a % 4096)
    if len ≤ k then [(a, len)] else (a, k) :: burstsOf n ((a + k) % 2 ^ 64) (len - k)

/-- The bursts of a transfer. -/
def DmaReq.bursts (r : DmaReq) : List (Nat × Nat) := burstsOf (r.len / 4096 + 2) (r.addr % 2 ^ 64) r.len

/-- Bursts of a transfer that are out at the port without a response. -/
def DmaReq.outstanding (r : DmaReq) : Nat := r.sent - r.back

/-- Every burst of a transfer has gone out. -/
def DmaReq.whole (r : DmaReq) : Bool := r.bursts.length ≤ r.sent

/-- Bursts of a direction for which the port has room: it keeps 64 outstanding. -/
def Hw.portRoom (h : Hw) (w : Bool) : Nat := 64 - total ((h.dma.filter fun x => x.write == w).map DmaReq.outstanding)

/-- Put the next `n` bursts of a transfer out at the port. -/
def Hw.putBursts (h : Hw) (r : DmaReq) (n : Nat) : Hw :=
  h.each ((r.bursts.drop r.sent).take n) fun h b => h.emit (if r.write then .dmaWrite r.id r.ctx b.1 b.2 else .dmaRead r.id r.ctx b.1 b.2)

/-- The next bursts of the first transfer of a direction that waits go out, as many as the port has room for; the other transfers wait behind it, in
program order. -/
def Hw.dmaIssue (h : Hw) (w : Bool) : Hw :=
  match h.dma.find? fun r => r.write == w && !r.whole with
  | none => h
  | some r =>
    let n := min (h.portRoom w) (r.bursts.length - r.sent)
    Hw.putBursts { h with dma := h.dma.map fun x => if x.id = r.id then { x with sent := x.sent + n } else x } r n

/-- Ask for a read of `len` bytes. -/
def Hw.dmaRead (h : Hw) (ctx addr len : Nat) (w : DmaFor) : Hw :=
  Hw.dmaIssue { h with dma := h.dma ++ [⟨h.dmaNext, false, ctx, addr, [], len, w, 0, 0⟩], dmaNext := h.dmaNext + 1 } false

/-- Ask for a write of bytes. Memory changes when the response comes (R46). -/
def Hw.dmaWrite (h : Hw) (ctx addr : Nat) (bytes : List Nat) (w : DmaFor) : Hw :=
  Hw.dmaIssue { h with dma := h.dma ++ [⟨h.dmaNext, true, ctx, addr, bytes, bytes.length, w, 0, 0⟩], dmaNext := h.dmaNext + 1 } true

/-! ### Checks over byte strings -/

/-- One bit step of CRC-32C (Castagnoli), reflected. -/
def crcBit (c : Nat) : Nat := if c % 2 = 1 then (c / 2) ^^^ 0x82F63B78 else c / 2

/-- One byte step of CRC-32C. -/
def crcByte (c b : Nat) : Nat := crcBit (crcBit (crcBit (crcBit (crcBit (crcBit (crcBit (crcBit (c ^^^ b))))))))

/-- CRC-32C of a byte string. -/
def crc32c (bs : List Nat) : Nat := (bs.foldl crcByte 0xFFFFFFFF) ^^^ 0xFFFFFFFF

end Sys2Proof.Machine
end

