-- ==== Sys2Proof/Machine/Packing.lean ====
section
/-!
DEFINITION. Machine/Packing.lean: the tensor packing format (R478–R481, R581), the cycles of the sluice (R238) and the decoding of a raw
DEFLATE stream (RFC 1951, R482).
-/
namespace Sys2Proof.Machine

/-! ### Tensor packing format -/

/-- The header of a block (R478). -/
structure PackHead where
  kind : Nat
  wc : Nat
  ntab : Nat
  plen : Nat
  rlen : Nat
  nnz : Nat
  crc : Nat
deriving DecidableEq, Repr

/-- Element width in bytes of a W code. -/
def packW (wc : Nat) : Nat := if wc = 0 then 1 else if wc = 1 then 2 else 4

/-- Read a header; none where a reserved field is not zero or a field breaks R478. `last` is true for the block that may be
short. -/
def packHead (b : List Nat) (last : Bool) : Option PackHead :=
  let k := nth b 0
  let h : PackHead := ⟨k % 4, k / 4 % 4, nth b 1, fld b 2 2, fld b 4 2, fld b 6 2, fld b 8 4⟩
  let w := packW h.wc
  let ok := b.length ≥ 16 ∧ h.kind ≤ 1 ∧ h.wc ≤ 2 ∧ k / 16 = 0 ∧ h.ntab ≤ 15 ∧ fld b 12 4 = 0 ∧ 1 ≤ h.rlen ∧ h.rlen ≤ 4096 ∧
    h.rlen % w = 0 ∧ (last ∨ h.rlen = 4096)
  if ok then
    if h.kind = 0 then (if h.ntab = 0 ∧ h.nnz = 0 ∧ h.plen = 16 + h.rlen then some h else none)
    else if 16 ≤ h.plen ∧ h.plen ≤ 4096 ∧ h.plen % 4 = 0 then some h else none
  else none

/-- Expand the elements of a packed block (R479): `codes` and `lits` are the sections that follow. -/
def packExpand (w ntab : Nat) (bitmap table codes : List Nat) : Nat → Nat → Nat → List Nat → Option (List Nat × List Nat)
  | 0, _, _, lits => some ([], lits)
  | n + 1, i, j, lits =>
    if !bit (nth bitmap (i / 8)) (i % 8) then
      (packExpand w ntab bitmap table codes n (i + 1) j lits).map fun r => (List.replicate w 0 ++ r.1, r.2)
    else
      let c := if ntab = 0 then 15 else nth codes (j / 2) / 16 ^ (j % 2) % 16
      if c < ntab then
        (packExpand w ntab bitmap table codes n (i + 1) (j + 1) lits).map fun r => (slice table (w * c) w ++ r.1, r.2)
      else if c = 15 then
        (packExpand w ntab bitmap table codes n (i + 1) (j + 1) (lits.drop w)).map fun r => (fit w lits ++ r.1, r.2)
      else none

/-- Count the bits set in a bitmap of `n` bits. -/
def bitCount (bitmap : List Nat) (n : Nat) : Nat :=
  ((List.range n).filter fun i => bit (nth bitmap (i / 8)) (i % 8)).length

/-- Decode a block whose bytes are `b` (PLEN of them): none where it is malformed (R480). -/
def packDecode (b : List Nat) (last : Bool) : Option (PackHead × List Nat) :=
  match packHead b last with
  | none => none
  | some h =>
    let body := slice b 16 (h.plen - 16)
    if b.length < h.plen then none else
    if h.kind = 0 then (if crc32c body = h.crc then some (h, body) else none) else
    let w := packW h.wc
    let n := h.rlen / w
    let nb := ceilDiv n 8
    let bm := body.take nb
    let tb := slice body nb (h.ntab * w)
    let ncb := if h.ntab = 0 then 0 else ceilDiv h.nnz 2
    let cs := slice body (nb + h.ntab * w) ncb
    let lits := body.drop (nb + h.ntab * w + ncb)
    let tidy := (List.range (8 * nb - n)).all (fun i => !bit (nth bm ((n + i) / 8)) ((n + i) % 8))
      && (h.ntab == 0 || h.nnz % 2 == 0 || nth cs (h.nnz / 2) / 16 == 0)
      && (List.range h.ntab).all (fun i => !zeros tb (w * i) w)
    if bitCount bm n ≠ h.nnz ∨ !tidy then none else
    match packExpand w h.ntab bm tb cs n 0 0 lits with
    | none => none
    | some (out, rest) =>
      let used := nb + h.ntab * w + ncb + (lits.length - rest.length)
      if h.plen = 16 + roundUp used 4 ∧ rest.all (· == 0) ∧ crc32c out = h.crc then some (h, out) else none

/-- What reading a packed operand gives (R581): the raw bytes, the blocks with their headers, and whether it is well formed. -/
structure Unpacked where
  raw : List Nat
  heads : List PackHead
  ok : Bool
deriving DecidableEq, Repr

/-- Read blocks from `b` until `need` raw bytes are covered; `fuel` bounds the blocks. -/
def unpack : Nat → List Nat → Nat → Unpacked
  | 0, _, need => ⟨[], [], need == 0⟩
  | fuel + 1, b, need =>
    if need = 0 then ⟨[], [], true⟩ else
    match packDecode b true with
    | none => ⟨[], [], false⟩
    | some (h, out) =>
      if out.length < need ∧ h.rlen < 4096 then ⟨[], [h], false⟩ else
      let r := unpack fuel (b.drop (roundUp h.plen 64)) (need - out.length)
      ⟨out ++ r.raw, h :: r.heads, r.ok⟩

/-- The blocks that cover `need` raw bytes run past the end of the bytes there are (R237): `b` ends within a block, by its header. -/
def runsPast : Nat → List Nat → Nat → Bool
  | 0, _, _ => false
  | fuel + 1, b, need =>
    if need = 0 then false else if b.length < 16 then true else
    match packHead b true with
    | none => false
    | some h => b.length < h.plen || runsPast fuel (b.drop (roundUp h.plen 64)) (need - h.rlen)

/-- D of R238: cycles in which a lane decodes a packed block of P bytes. -/
def sluiceD (p : Nat) : Nat := max 13 (ceilDiv p 64)

/-- What one packed block costs beyond its 52 cycles (R239). -/
def stallOf (b : PackHead) : Nat := if b.kind = 0 then 0 else sluiceD b.plen - 52

/-- Insert a value in a list of (value, count). -/
def tally (v : Nat) : List (Nat × Nat) → List (Nat × Nat)
  | [] => [(v, 1)]
  | (x, n) :: t => if x = v then (x, n + 1) :: t else (x, n) :: tally v t

/-- Insert in descending count, ties to the smaller value. -/
def rankInsert (e : Nat × Nat) : List (Nat × Nat) → List (Nat × Nat)
  | [] => [e]
  | x :: t => if x.2 < e.2 ∨ (x.2 = e.2 ∧ e.1 < x.1) then e :: x :: t else x :: rankInsert e t

/-- The elements of raw bytes. -/
def elems (w : Nat) (raw : List Nat) : List Nat := (List.range (raw.length / w)).map fun i => fld raw (w * i) w

/-- The candidate table of R481. -/
def packTable (es : List Nat) : List Nat :=
  let t := (es.filter (· != 0)).foldl (fun l v => tally v l) []
  (((t.filter fun e => 2 ≤ e.2).foldl (fun l e => rankInsert e l) []).take 15).map (·.1)

/-- Nibbles packed two to a byte, the lower first. -/
def nibbles : List Nat → List Nat
  | [] => []
  | [a] => [a]
  | a :: b :: t => (a + 16 * b) :: nibbles t

/-- The bitmap of a block's elements. -/
def packBitmap : Nat → List Nat → List Nat
  | 0, _ => []
  | n + 1, es =>
    let g := es.take 8
    total ((List.range g.length).map fun i => if nth g i = 0 then 0 else 2 ^ i) :: packBitmap n (es.drop 8)

/-- The sections of a packed block with a table. -/
def packBody (w : Nat) (es table : List Nat) : List Nat :=
  let nz := es.filter (· != 0)
  let code (v : Nat) : Nat := match table.findIdx? (· == v) with | some i => i | none => 15
  let lits := nz.filter fun v => table.isEmpty || code v == 15
  packBitmap (ceilDiv es.length 8) es ++ table.flatMap (le w) ++ (if table.isEmpty then [] else nibbles (nz.map code))
    ++ lits.flatMap (le w)

/-- One block as the packer writes it (R481): true if it is packed. -/
def packBlock (wc : Nat) (raw : List Nat) : List Nat × Bool :=
  let w := packW wc
  let es := elems w raw
  let tb := packTable es
  let a := packBody w es tb
  let b := packBody w es []
  let useTab := !tb.isEmpty && decide (roundUp a.length 4 < roundUp b.length 4)
  let body := if useTab then a else b
  let plen := 16 + roundUp body.length 4
  let nnz := (es.filter (· != 0)).length
  if plen ≤ raw.length * 4 / 5 then
    (padTo plen ([1 + 4 * wc, if useTab then tb.length else 0] ++ le 2 plen ++ le 2 raw.length ++ le 2 nnz ++ le 4 (crc32c raw)
      ++ [0, 0, 0, 0] ++ body), true)
  else ([4 * wc, 0] ++ le 2 (16 + raw.length) ++ le 2 raw.length ++ [0, 0] ++ le 4 (crc32c raw) ++ [0, 0, 0, 0] ++ raw, false)

/-- A packed operand: the bytes, the blocks packed, the blocks raw. -/
def packAll (wc : Nat) : Nat → List Nat → List Nat × Nat × Nat
  | 0, _ => ([], 0, 0)
  | fuel + 1, raw =>
    if raw.isEmpty then ([], 0, 0) else
    let b := packBlock wc (raw.take 4096)
    let r := packAll wc fuel (raw.drop 4096)
    ((if r.1.isEmpty then b.1 else padMul 64 b.1) ++ r.1, r.2.1 + b2n b.2, r.2.2 + b2n (!b.2))

/-! ### INFLATE (RFC 1951) -/

/-- The bits of a byte string, least significant first. -/
def bitsOf (bs : List Nat) : List Nat := bs.flatMap fun b => (List.range 8).map fun i => b / 2 ^ i % 2

/-- An integer of `n` bits, first bit least significant. -/
def takeInt : Nat → List Nat → Option (Nat × List Nat)
  | 0, s => some (0, s)
  | _ + 1, [] => none
  | n + 1, b :: t => (takeInt n t).map fun r => (b + 2 * r.1, r.2)

/-- A canonical Huffman code: for each symbol its length (RFC 1951, 3.2.2); the code of the first symbol of each length. -/
structure Huff where
  lens : List Nat
  first : List Nat
deriving DecidableEq, Repr

/-- Build a code from the lengths. -/
def Huff.of (lens : List Nat) : Huff :=
  let cnt (l : Nat) : Nat := if l = 0 then 0 else (lens.filter (· == l)).length
  ⟨lens, ((List.range 15).foldl (fun acc l => acc ++ [2 * (nth acc l + cnt l)]) [0])⟩

/-- The code is over-subscribed. -/
def Huff.beyond (h : Huff) : Bool :=
  decide (2 ^ 15 < total (h.lens.map fun l => if l = 0 then 0 else 2 ^ (15 - l)))

/-- The symbol of `len` bits with value `code`. -/
def Huff.sym (h : Huff) (len code : Nat) : Option Nat :=
  let ss := (List.range h.lens.length).filter fun i => nth h.lens i == len
  if code < nth h.first len then none else ss[code - nth h.first len]?

/-- Decode one symbol: at most 15 bits. -/
def Huff.read (h : Huff) : Nat → Nat → Nat → List Nat → Option (Nat × List Nat)
  | 0, _, _, _ => none
  | _ + 1, _, _, [] => none
  | f + 1, len, code, b :: t =>
    match h.sym (len + 1) (2 * code + b) with
    | some s => some (s, t)
    | none => h.read f (len + 1) (2 * code + b) t

def lenBase : List Nat :=
  [3, 4, 5, 6, 7, 8, 9, 10, 11, 13, 15, 17, 19, 23, 27, 31, 35, 43, 51, 59, 67, 83, 99, 115, 131, 163, 195, 227, 258]
def lenExtra : List Nat := [0, 0, 0, 0, 0, 0, 0, 0, 1, 1, 1, 1, 2, 2, 2, 2, 3, 3, 3, 3, 4, 4, 4, 4, 5, 5, 5, 5, 0]
def distBase : List Nat :=
  [1, 2, 3, 4, 5, 7, 9, 13, 17, 25, 33, 49, 65, 97, 129, 193, 257, 385, 513, 769, 1025, 1537, 2049, 3073, 4097, 6145, 8193,
   12289, 16385, 24577]
def distExtra : List Nat :=
  [0, 0, 0, 0, 1, 1, 2, 2, 3, 3, 4, 4, 5, 5, 6, 6, 7, 7, 8, 8, 9, 9, 10, 10, 11, 11, 12, 12, 13, 13]

/-- Copy `n` bytes from distance `d`; the output is held newest first. -/
def lzCopy : Nat → Nat → List Nat → List Nat
  | 0, _, o => o
  | n + 1, d, o => lzCopy n d (nth o (d - 1) :: o)

/-- The symbols of one block; `fuel` bounds the symbols. -/
def inflateSyms (lit dist : Huff) : Nat → List Nat → List Nat → Option (List Nat × List Nat)
  | 0, _, _ => none
  | fuel + 1, s, o =>
    match lit.read 15 0 0 s with
    | none => none
    | some (sym, s) =>
      if sym < 256 then inflateSyms lit dist fuel s (sym :: o)
      else if sym = 256 then some (s, o)
      else if 285 < sym then none
      else match takeInt (nth lenExtra (sym - 257)) s with
        | none => none
        | some (x, s) => match dist.read 15 0 0 s with
          | none => none
          | some (ds, s) =>
            if 29 < ds then none else
            match takeInt (nth distExtra ds) s with
            | none => none
            | some (y, s) =>
              let d := nth distBase ds + y
              if o.length < d then none
              else inflateSyms lit dist fuel s (lzCopy (nth lenBase (sym - 257) + x) d o)

/-- The code lengths of a dynamic block; `fuel` bounds the symbols. -/
def readLens (cl : Huff) : Nat → Nat → List Nat → List Nat → Option (List Nat × List Nat)
  | 0, _, _, _ => none
  | fuel + 1, n, acc, s =>
    if n < acc.length then none else if acc.length = n then some (acc, s) else
    match cl.read 7 0 0 s with
    | none => none
    | some (sym, s) =>
      if sym < 16 then readLens cl fuel n (acc ++ [sym]) s
      else if sym = 16 then
        match acc.getLast?, takeInt 2 s with
        | some p, some (x, s) => readLens cl fuel n (acc ++ List.replicate (3 + x) p) s
        | _, _ => none
      else
        match takeInt (if sym = 17 then 3 else 7) s with
        | some (x, s) => readLens cl fuel n (acc ++ List.replicate ((if sym = 17 then 3 else 11) + x) 0) s
        | none => none

/-- `n` integers of 3 bits. -/
def take3s : Nat → List Nat → Option (List Nat × List Nat)
  | 0, s => some ([], s)
  | n + 1, s => match takeInt 3 s with
    | none => none
    | some (x, s) => (take3s n s).map fun r => (x :: r.1, r.2)

def clOrder : List Nat := [16, 17, 18, 0, 8, 7, 9, 6, 10, 5, 11, 4, 12, 3, 13, 2, 14, 1, 15]

def fixedLit : Huff :=
  Huff.of (List.replicate 144 8 ++ List.replicate 112 9 ++ List.replicate 24 7 ++ List.replicate 8 8)
def fixedDist : Huff := Huff.of (List.replicate 30 5)

/-- The two codes of a dynamic block. -/
def dynCodes (s : List Nat) : Option (Huff × Huff × List Nat) :=
  match takeInt 5 s with
  | none => none
  | some (hl, s) => match takeInt 5 s with
    | none => none
    | some (hd, s) => match takeInt 4 s with
      | none => none
      | some (hc, s) => match take3s (hc + 4) s with
        | none => none
        | some (cl, s) =>
          let lens := (List.range 19).map fun i => match clOrder.findIdx? (· == i) with | some j => nth cl j | none => 0
          let c := Huff.of lens
          if c.beyond then none else
          match readLens c (hl + hd + 260) (hl + 257 + hd + 1) [] s with
          | none => none
          | some (ls, s) =>
            let a := Huff.of (ls.take (hl + 257))
            let b := Huff.of (ls.drop (hl + 257))
            if a.beyond || b.beyond || nth ls 256 = 0 then none else some (a, b, s)

/-- Blocks until BFINAL; `pos` counts the bits of the whole stream, so that a stored block aligns to a byte. -/
def inflateBlocks : Nat → Nat → List Nat → List Nat → Option (List Nat)
  | 0, _, _, _ => none
  | fuel + 1, all, s, o =>
    match takeInt 3 s with
    | none => none
    | some (hd, s) =>
      let fin := hd % 2 = 1
      let r : Option (List Nat × List Nat) :=
        match hd / 2 with
        | 0 =>
          let s := s.drop (s.length % 8)
          match takeInt 16 s with
          | none => none
          | some (len, s) => match takeInt 16 s with
            | none => none
            | some (nlen, s) =>
              if len + nlen ≠ 0xFFFF ∨ s.length < 8 * len then none
              else some (s.drop (8 * len),
                ((List.range len).map fun i => (takeInt 8 (s.drop (8 * i))).elim 0 (·.1)).reverse ++ o)
        | 1 => inflateSyms fixedLit fixedDist all s o
        | 2 => match dynCodes s with
          | none => none
          | some (a, b, s) => inflateSyms a b all s o
        | _ => none
      match r with
      | none => none
      | some (s, o) => if fin then some o.reverse else inflateBlocks fuel all s o

/-- Decode the rest of a raw DEFLATE stream after the history `hist`, up to BFINAL: the bytes that it adds. -/
def inflateAfter (hist bs : List Nat) : Option (List Nat) :=
  (inflateBlocks (8 * bs.length + 1) (8 * bs.length + 1) (bitsOf bs) hist.reverse).map fun o => o.drop hist.length

/-- Stored blocks that carry these bytes (RFC 1951). -/
def storedBlocks : Nat → List Nat → Bool → List Nat
  | 0, _, _ => []
  | n + 1, bs, fin =>
    let b := bs.take 65535
    let last := decide (bs.length ≤ 65535)
    [b2n (last && fin)] ++ le 2 b.length ++ le 2 (65535 - b.length) ++ b ++ (if last then [] else storedBlocks n (bs.drop 65535) fin)

/-- Decode one complete raw DEFLATE stream without history: none where it breaks RFC 1951 or does not end with BFINAL. -/
def inflate (bs : List Nat) : Option (List Nat) :=
  inflateBlocks (8 * bs.length + 1) (8 * bs.length + 1) (bitsOf bs) []

end Sys2Proof.Machine
end

