-- ==== Sys2Proof/Machine/Flags.lean ====
section
/-!
DEFINITION. Machine/Flags.lean: the flags of the page headers: recording an error (R111, R112), raising an interrupt cause
(R80, R84), the interrupt lines (R44, R84, R110), and a page's state with its ENABLE bit (R85, R86).
-/
namespace Sys2Proof.Machine

/-- The error codes of R111. -/
def E.badState : Nat := 0x0001
def E.badValue : Nat := 0x0002
def E.resourceHeld : Nat := 0x0003
def E.aborted : Nat := 0x0004
def E.abortOverrun : Nat := 0x0005
def E.depLost : Nat := 0x0006
def E.eccUncorr : Nat := 0x0007
def E.domainFault : Nat := 0x0008
def E.bufferTooSmall : Nat := 0x0009
def E.diagMismatch : Nat := 0x000A
def E.badDoorbell : Nat := 0x0101
def E.badDescriptor : Nat := 0x0102
def E.listTooLong : Nat := 0x0103
def E.dmaFault : Nat := 0x0104
def E.timeLost : Nat := 0x0201
def E.clockFault : Nat := 0x0202
def E.tsMissing : Nat := 0x0203
def E.stalled : Nat := 0x0204
def E.saturated : Nat := 0x0301
def E.incomplete : Nat := 0x0302
def E.collectiveMismatch : Nat := 0x0303
def E.replicaMismatch : Nat := 0x0304
def E.feedStall : Nat := 0x0305
def E.modelInvalid : Nat := 0x0401
def E.notCovered : Nat := 0x0402
def E.linkDown : Nat := 0x0501
def E.replayExceeded : Nat := 0x0502
def E.idConflict : Nat := 0x0503
def E.launchAbort : Nat := 0x0504
def E.policed : Nat := 0x0505
def E.noGain : Nat := 0x0601
def E.stateFull : Nat := 0x0602
def E.mbxFull : Nat := 0x0701
def E.nvFault : Nat := 0x0702
def E.rotTimeout : Nat := 0x0801
def E.authFail : Nat := 0x0802
def E.quorumShort : Nat := 0x0803
def E.accessDenied : Nat := 0x0804
def E.hazard : Nat := 0x0901
def E.wakeDeferred : Nat := 0x0902

/-- A code that R111 defines. -/
def E.defined (c : Nat) : Bool :=
  [E.badState, E.badValue, E.resourceHeld, E.aborted, E.abortOverrun, E.depLost, E.eccUncorr, E.domainFault,
    E.bufferTooSmall, E.diagMismatch, E.badDoorbell, E.badDescriptor, E.listTooLong, E.dmaFault, E.timeLost, E.clockFault,
    E.tsMissing, E.stalled, E.saturated, E.incomplete, E.collectiveMismatch, E.replicaMismatch, E.feedStall, E.modelInvalid,
    E.notCovered, E.linkDown, E.replayExceeded, E.idConflict, E.launchAbort, E.policed, E.noGain, E.stateFull, E.mbxFull,
    E.nvFault, E.rotTimeout, E.authFail, E.quorumShort, E.accessDenied, E.hazard, E.wakeDeferred].contains c

/-- Record an error in a page's header (R112): FIRST keeps the first code, COUNT saturates, ERROR is set. -/
def Hw.err (h : Hw) (p code : Nat) : Hw :=
  let h := if h.g (R.PAGE_ERR_FIRST p) = 0 then h.s (R.PAGE_ERR_FIRST p) code else h
  (h.incSat (R.PAGE_ERR_COUNT p)).setBits (R.PAGE_IRQ_STAT_ERROR p) 1

/-- Raise the function cause `b` (16–31) of a page (R80). -/
def Hw.raise (h : Hw) (p b : Nat) : Hw := h.setBits (R.PAGE_IRQ_STAT_FUNC_IRQ p) (2 ^ (b - 16))

/-- PAGE_IRQ_STAT as one word (R80). -/
def Hw.irqStat (h : Hw) (p : Nat) : Nat :=
  h.g (R.PAGE_IRQ_STAT_STATE_CHG p) + 2 * h.g (R.PAGE_IRQ_STAT_ERROR p) + 4 * h.g (R.PAGE_IRQ_STAT_ABORT_DONE p)
    + 8 * h.g (R.PAGE_IRQ_STAT_CLAIM_FAIL p) + 65536 * h.g (R.PAGE_IRQ_STAT_FUNC_IRQ p)

/-- The page's interrupt request (R84). -/
def Hw.pageIrq (h : Hw) (p : Nat) : Bool :=
  (h.irqStat p &&& h.g (R.PAGE_IRQ_EN_EN p)) != 0 && h.on (R.PAGE_CTL_IRQ_MEN p)

/-- The implemented pages. -/
def Hw.pageList (h : Hw) : List Nat := (List.range 256).filter h.present

/-- The context whose line a page's interrupt drives: OWNER, or the operator's where there is none (R84). -/
def Hw.lineOf (h : Hw) (p : Nat) : Nat :=
  if h.g (R.PAGE_OWNER_OWNER p) = 0xFF then h.operCtx else h.g (R.PAGE_OWNER_OWNER p)

/-- The page that holds queue `q` (R101). -/
def quePage (q : Nat) : Nat := 2 + q / 32

/-- Queue `q` has its QUE_IRQ_PEND bit set. -/
def Hw.queuePend (h : Hw) (q : Nat) : Bool := bit (h.g (R.QUE_IRQ_PEND_PEND.at (q / 32))) (q % 32)

/-- FUNC_IRQ HANG of the DBG page reaches the hung context's own line too (R417). -/
def Hw.hangLine (h : Hw) (n : Nat) : Bool :=
  h.on (R.DBG_HANG_STAT_DONE.at n) && bit (h.irqStat 0x3A &&& h.g (R.PAGE_IRQ_EN_EN 0x3A)) 18 && h.on (R.PAGE_CTL_IRQ_MEN 0x3A)

/-- The level of IRQ[n] (R44, R84, R110). -/
def Hw.irqLine (h : Hw) (n : Nat) : Bool :=
  h.hangLine n ||
  (h.pageList.any fun p => h.pageIrq p && h.lineOf p == n) ||
  (List.range h.queueCount).any fun q =>
    h.queuePend q && h.on (R.PAGE_CTL_IRQ_MEN (quePage q)) && h.g (R.Q_CFG_CTX.at q) == n

/-- ENABLE reads 1 in STARTING, RUNNING and DRAINING_REENABLE (R86). -/
def enabledIn (st : Nat) : Nat := if st = 1 ∨ st = 2 ∨ st = 6 then 1 else 0

/-- A trace event, which goes to its sinks at the end of the tick (R394, R400). -/
def Hw.traceLater (h : Hw) (e : TraceEv) : Hw := { h with trc := { h.trc with blk := h.trc.blk ++ [e] } }

/-- An event of a trace ID (R394). -/
def Hw.trace (h : Hw) (id kind sub data : Nat) : Hw := h.traceLater ⟨id, kind, sub, data, 0⟩

/-- A block event (R394). -/
def Hw.blockEvent (h : Hw) (kind sub data : Nat) : Hw := h.trace 0x31 kind sub data

/-- Move a page to a state: ENABLE follows (R86), STATE_CHG is set, and RUNNING advances PAGE_SEQ (R82). Pages 0x11–0x13
read PAGE_STATE as page 0x10 does (R248). -/
def Hw.setState (h : Hw) (p st : Nat) : Hw :=
  if h.state p = st then h else
  let h := h.blockEvent 6 p (st + 16 * (if st = 5 then h.g (R.PAGE_ERR_FIRST p) else 0))
  let h := ((h.s (R.PAGE_STATE_STATE p) st).s (R.PAGE_CTL_ENABLE p) (enabledIn st)).setBits (R.PAGE_IRQ_STAT_STATE_CHG p) 1
  let h := if p = 0x10 then ((h.s (R.PAGE_STATE_STATE 0x11) st).s (R.PAGE_STATE_STATE 0x12) st).s (R.PAGE_STATE_STATE 0x13) st else h
  if st = 2 then h.inc (R.PAGE_SEQ_SEQ p) else h

/-- Record an error of queue `q` that a write made (R112). -/
def Hw.queueErr (h : Hw) (q code : Nat) : Hw := (h.err (quePage q) code).s (R.Q_STATE_ERR.at q) code

/-- Answer the host target port. -/
def Hw.reply (h : Hw) (data : Nat) : Hw := { h with rsp := ⟨data, false⟩ }

/-- Answer with a bus error: a read returns zero (R42, R43). -/
def Hw.busError (h : Hw) : Hw := { h with rsp := ⟨0, true⟩ }

end Sys2Proof.Machine
end

