-- ==== Sys2Proof/Machine/Events.lean ====
section
/-!
DEFINITION. Machine/Events.lean: recording an entry in the event log (R487–R491), a hazard onset and end (R67, R547, R548) and the
report of a dangerous failure (R535, R536, R553, R554).
-/
namespace Sys2Proof.Machine

/-- Bytes of retention RAM (R487). -/
def Hw.evrSize (h : Hw) : Nat := h.prof.sel (256 * 1024) (2048 * 1024) (2048 * 1024)

/-- LEN of an entry (R488). -/
def EvrEntry.len (e : EvrEntry) : Nat := 32 + roundUp e.payload.length 8

/-- Bytes of the ring in use. -/
def ringUsed (l : List EvrEntry) : Nat := l.foldl (fun n e => n + e.len) 0

/-- Remove the oldest entries, whole, until `need` bytes fit (R489): the rest, and those removed. -/
def ringRoom (size need : Nat) : List EvrEntry → List EvrEntry × List EvrEntry
  | [] => ([], [])
  | e :: t =>
    if ringUsed (e :: t) + need ≤ size then (e :: t, [])
    else let r := ringRoom size need t; (r.1, e :: r.2)

/-- The bytes of an entry (R488). -/
def EvrEntry.bytes (e : EvrEntry) : List Nat :=
  padTo e.len (le 2 e.len ++ le 2 e.code ++ [e.sev, e.eflags] ++ le 2 e.rep ++ le 4 e.pcycle ++ le 4 e.opS ++ le 8 e.time
    ++ le 4 e.seq ++ le 4 e.dtLast ++ e.payload)

/-- The registers that show the ring (R506). -/
def Hw.showRing (h : Hw) : Hw :=
  let r := h.evr.ring
  let h := h.s R.EVR_ENTRIES_COUNT r.length
  let h := h.s R.EVR_UNMIRRORED_COUNT (r.filter fun e => e.closed && !e.mirrored).length
  let h := match r.head? with | some e => h.s R.EVR_OLDEST_OFF e.off | none => h
  match r.getLast? with
  | some e => (h.s R.EVR_NEWEST_OFF e.off).s R.EVR_NEWEST_SEQ_SEQ e.seq
  | none => h

/-- The latest occurrence of an entry, as an FRC value: TIME plus DT_LAST (R490). -/
def EvrEntry.latest (e : EvrEntry) : Nat := e.bornFrc + e.dtLast * 1000000

/-- An occurrence repeats the newest entry (R490). -/
def Hw.repeats (h : Hw) (code : Nat) (payload : List Nat) (e : EvrEntry) : Bool :=
  !e.closed && e.code == code && e.payload == payload && h.frc ≤ e.latest + h.g R.EVR_CFG_REPEAT_MS * 1000000

/-- Close the newest entry to repeats (R490). -/
def closeLast (frc : Nat) : List EvrEntry → List EvrEntry
  | [] => []
  | [e] => [if e.closed then e else { e with closed := true, closedFrc := frc }]
  | e :: t => e :: closeLast frc t

/-- Count a repeat in the newest entry. -/
def repeatLast (frc : Nat) : List EvrEntry → List EvrEntry
  | [] => []
  | [e] => [{ e with rep := min (e.rep + 1) 0xFFFF, dtLast := min ((frc - e.bornFrc) / 1000000) 0xFFFFFFFF }]
  | e :: t => e :: repeatLast frc t

/-- Record an occurrence: a repeat of the newest entry, or a new entry (R488–R490). Recording runs whenever the always-on
domain is powered (R487). -/
def Hw.eventAs (h : Hw) (host : Bool) (code sev : Nat) (payload : List Nat) : Hw :=
  if !h.pwr.aon then h else
  match h.evr.ring.getLast? with
  | some e => if h.repeats code payload e then
      Hw.showRing { h with evr := { h.evr with ring := repeatLast h.frc h.evr.ring } } else record
  | none => record
where
  record : Hw :=
    let e : EvrEntry :=
      { off := h.evr.nextOff, code := code, sev := sev, eflags := b2n h.timed + (if host then 2 else 0), rep := 0,
        pcycle := h.g R.EVR_PCYCLE_COUNT, opS := h.g R.EVR_OPTIME_S, time := h.logTime, seq := h.evr.nextSeq, dtLast := 0,
        payload := payload, closed := h.g R.EVR_CFG_REPEAT_MS == 0, mirrored := false, bornFrc := h.frc, closedFrc := h.frc }
    let r := ringRoom h.evrSize e.len (closeLast h.frc h.evr.ring)
    let lost := (r.2.filter fun x => !x.mirrored).length
    let h := { h with evr := { h.evr with ring := r.1 ++ [e], nextOff := (e.off + e.len) % h.evrSize,
                                          nextSeq := succ32 h.evr.nextSeq, gapBefore := h.evr.gapBefore || lost != 0 } }
    let h := (h.add R.EVR_OVERWRITTEN_COUNT r.2.length).add R.EVR_MIRROR_LOST_COUNT lost
    let h := if r.2.isEmpty then h else h.raise 0x4C 18
    (h.raise 0x4C 16).showRing

/-- Record an event of the block (R493). -/
def Hw.event (h : Hw) (code sev : Nat) (payload : List Nat) : Hw := h.eventAs false code sev payload

/-! ### HAZARD (R67, R547, R548) -/

/-- A hazard condition holds: a channel, an HZ_IN input, or a diagnostic of the hazard path (R548, R550). -/
def Hw.hazardHolds (h : Hw) : Bool :=
  (h.saf.hz.any fun c => c.active || c.silent) || h.saf.hzIn != 0 || !h.saf.hzDiag.isEmpty || h.saf.crcNeedsBlob

/-- Payload of a HAZARD entry (R548). -/
def Hw.hazardPayload (h : Hw) (src edge index : Nat) (value : Int) (side : Nat) : List Nat :=
  [src, edge] ++ le 2 index ++ le 2 (unsigned 16 value) ++ [side, 0] ++ le 8 (h.frc % 2 ^ 64)

/-- An onset: HAZARD high, an entry, FUNC_IRQ HAZARD (R548). -/
def Hw.hazardOnset (h : Hw) (src index : Nat) (value : Int) (side : Nat) : Hw :=
  let h := (h.s R.SAF_STAT_HAZARD 1).event 0x0050 2 (h.hazardPayload src 0 index value side)
  let h := (h.s R.SAF_HZ_SRC_SRC src).s R.SAF_HZ_SRC_INDEX index
  (h.inc R.SAF_HZ_COUNT_COUNT).raise 0x54 17

/-- An end: an entry and FUNC_IRQ HAZARD_CLEAR; HAZARD stays high for 10 ms after the last one clears (R67). -/
def Hw.hazardEnd (h : Hw) (src index : Nat) (value : Int) (side : Nat) : Hw :=
  let h := (h.event 0x0050 2 (h.hazardPayload src 1 index value side)).raise 0x54 18
  if h.hazardHolds then h else { h with saf := { h.saf with hzLastClear := h.frc } }

/-! ### Dangerous failures (R534–R536) -/

/-- NT of the last passed run of a diagnostic on an item (R536). -/
def Hw.lastPassOf (h : Hw) (diag index : Nat) : Nat :=
  match h.saf.lastPass.find? fun e => e.1 == diag && e.2.1 == index with
  | some e => e.2.2
  | none => 0

/-- Note a passed run. -/
def Hw.notePass (h : Hw) (diag index : Nat) : Hw :=
  { h with saf := { h.saf with lastPass :=
      (diag, index, h.ns) :: h.saf.lastPass.filter fun e => !(e.1 == diag && e.2.1 == index) } }

/-- Payload of a DIAG entry (R536); bit 7 of DIAG marks an injected failure (R552, log entry 8). -/
def Hw.diagPayload (h : Hw) (inj : Bool) (diag cls index detail : Nat) : List Nat :=
  [diag + (if inj then 128 else 0), cls] ++ le 2 index ++ le 4 detail ++ le 8 (h.lastPassOf diag index)

/-- A detected dangerous failure (R535): the DIAG entry, the class count, FUNC_IRQ DF, DF_LATCHED with the SAF page FAULTED
(R554), and with DF_HAZARD set 10 ms of HAZARD for classes 2–6 (R553). -/
def Hw.dangerous (h : Hw) (inj : Bool) (diag cls index detail : Nat) : Hw :=
  let h := h.event 0x0070 3 (h.diagPayload inj diag cls index detail)
  let h := (h.inc (R.SAF_DF_COUNT.at cls)).inc (R.SAF_DFAILS_COUNT.at diag)
  let h := h.s64 (R.SAF_DLAST_LO_NT.at diag) (R.SAF_DLAST_HI_NT.at diag) (h.ns % 2 ^ 64)
  let h := (h.raise 0x54 16).s R.SAF_STAT_DF_LATCHED 1
  let h := h.setState 0x54 5
  if h.on R.SAF_CFG_DF_HAZARD && cls != 1 then
    Hw.hazardOnset { h with saf := { h.saf with dfUntil := h.frc + 10000000 } } 2 diag 0 2
  else h

end Sys2Proof.Machine
end

