-- ==== Sys2Proof/Machine/Collect.lean ====
section
/-!
DEFINITION. Machine/Collect.lean: what a node takes from the records it accepts for the tree engine (R296–R301, R307): the decoding of frames
(R194–R198), collection rules, the counts of an entity, and frame boundaries.
-/
namespace Sys2Proof.Machine

/-! ### Frame records (R194–R197) -/

/-- Variable-length integers: 7 bits a byte, the least significant group first (R196). -/
def varints : List Nat → Nat → Nat → List Nat
  | [], _, _ => []
  | b :: t, acc, sh =>
    let v := acc + b % 128 * 2 ^ sh
    if b < 128 then v :: varints t 0 0 else varints t v (sh + 7)

/-- The signed value of a zig-zag code. -/
def unzig (z : Nat) : Int := if z % 2 = 1 then -(((z + 1) / 2 : Nat) : Int) else ((z / 2 : Nat) : Int)

/-- The zig-zag code of a 64-bit difference. -/
def zig (d : Nat) : Nat := let i := signed 64 d; (if i < 0 then 2 * i.natAbs - 1 else 2 * i.natAbs) % 2 ^ 64

/-- The gauge bit of a CNT_SRC word (R211). -/
def srcGauge (w : Nat) : Bool := bit w 20

/-- The values of a FRAME payload at its positions, given the reference and the slot map: none where the reference is lacking. In summary
encoding a counting slot gives its value at the last capture, a gauge its MAX (R197, R298). -/
def frameValues (p ref srcs : List Nat) (good : Bool) : Option (List Nat) :=
  let first := fld p 4 2
  let n := fld p 6 2
  let body := p.drop 16
  match nth p 8 % 4 with
  | 0 => some ((List.range n).map fun i => fld body (8 * i) 8)
  | 1 =>
    let ds := varints body 0 0
    if !good || ref.length < first + n || ds.length < n then none
    else some ((List.range n).map fun i => unsigned 64 ((nth ref (first + i) : Int) + unzig (nth ds i)))
  | 2 =>
    if !good || ref.length < first + n then none
    else some ((List.range n).map fun i =>
      let e := slice body (32 * i) 32
      if srcGauge (nth srcs (first + i)) then fld e 8 8
      else unsigned 64 ((nth ref (first + i) : Int) + signed 96 (fld e 16 12)))
  | _ => none

/-- Put values into a list from position `at_` on, growing it. -/
def overlay (l : List Nat) (at_ : Nat) (vs : List Nat) : List Nat := fit at_ l ++ vs ++ l.drop (at_ + vs.length)

/-! ### Entities and streams -/

/-- What the node holds of an entity. -/
def Hw.entity (h : Hw) (k : Nat) : Entity := (h.agt.ents.find? fun e => e.key == k).getD ⟨k, [], [], [], 0, 0, 0, 0, false, none⟩

def Hw.putEntity (h : Hw) (e : Entity) : Hw :=
  { h with agt := { h.agt with ents := e :: h.agt.ents.filter fun x => x.key != e.key } }

def Hw.rxStream (h : Hw) (s : Nat) : RxStream :=
  (h.agt.rx.find? fun x => x.source == s).getD ⟨s, false, [], false, [], false, none, false, none⟩

def Hw.putRx (h : Hw) (x : RxStream) : Hw := { h with agt := { h.agt with rx := x :: h.agt.rx.filter fun y => y.source != x.source } }

/-- A gap of a stream (R299): its words are missing again, and its DELTA and RATE rules need two values again. -/
def Entity.lose (e : Entity) (source : Nat) : Entity :=
  { e with words := e.words.filter (fun w => w.source != source), last := e.last.filter fun l => l.source != source }

/-- The word of a rule (R298): the type and the value, none where it is missing. `raw` is `w` bytes wide, `ns` the frame time, `span` the SPAN
of a summary frame. -/
def ruleWord (conv w raw ns : Nat) (isSigned : Bool) (span : Option Nat) (last : Option RuleLast) : Option (Bool × Nat) :=
  let v : Int := if isSigned then signed (8 * w) raw else (raw : Int)
  match conv with
  | 0 => some (true, unsigned 32 (clampTo (-(2 ^ 31)) (2 ^ 31 - 1) v).1)
  | 1 => some (false, fp32F.ofInt v 0)
  | 2 => last.map fun l => (false, fp32F.enc false (unsigned (8 * w) ((raw : Int) - (l.raw : Int))) 1 0)
  | 3 =>
    match last with
    | none => none
    | some l =>
      let dt := span.getD (ns - l.ns)
      if dt = 0 then none else some (false, fp32F.enc false (unsigned (8 * w) ((raw : Int) - (l.raw : Int)) * 1000000000) dt 0)
  | 4 => some (false, raw % 2 ^ 32)
  | 5 => some (false, fp64F.conv fp32F raw)
  | _ => none

/-- The rules that match a record (R297), in ascending index: rule, A, B. -/
def Hw.rulesFor (h : Hw) (typ loc : Nat) : List (Nat × Nat × Nat) :=
  ((List.range 128).map fun r => (r, h.g (R.AGT_COL_ACT_A_A.at r), h.g (R.AGT_COL_ACT_B_B.at r))).filter fun x =>
    bit x.2.1 21 && bits x.2.1 0 8 == typ && bits x.2.1 8 13 == loc

/-- A rule writes its word from a raw value (R297–R299); a stale value leaves it missing. -/
def Entity.apply (e : Entity) (x : Nat × Nat × Nat) (source raw w ns : Nat) (span : Option Nat) (stale sus : Bool) (grade : Nat) : Entity :=
  let word := bits x.2.1 22 6
  let last := e.last.find? fun l => l.rule == x.1 && l.source == source
  let e' := { e with words := e.words.filter fun y => y.word != word, last := e.last.filter fun l => !(l.rule == x.1 && l.source == source) }
  if stale then e' else
  let e' := { e' with last := ⟨x.1, source, raw, ns, sus, grade⟩ :: e'.last }
  let conv := bits x.2.1 28 3
  -- a DELTA or RATE word uses the record of its previous value too (R19, R307)
  let prev := if conv = 2 ∨ conv = 3 then last else none
  match ruleWord conv w raw ns (bit x.2.2 18) span last with
  | some v => { e' with words := ⟨word, v.1, v.2, source, sus || (prev.elim false fun l => l.sus), max grade (prev.elim 0 fun l => l.grade)⟩ :: e'.words }
  | none => e'

/-- Rules over a record that is no frame: OFFSET is a byte offset in the payload. -/
def Hw.applyBytes (h : Hw) (e : Entity) (typ source ns : Nat) (p : List Nat) (sus : Bool) (grade : Nat) : Entity :=
  (h.rulesFor typ (source % 2 ^ 13)).foldl (fun e x =>
    let w := 2 ^ bits x.2.2 16 2
    let off := bits x.2.2 0 16
    if off + w ≤ p.length then e.apply x source (fld p off w) w ns none false sus grade else e) e

/-- Rules over a FRAME record: OFFSET is a position in set order. A value in a proxy segment flagged in STALE_MASK is stale (R299). -/
def Hw.applyFrame (h : Hw) (e : Entity) (source ns : Nat) (p vals srcs : List Nat) (sus : Bool) (grade : Nat) : Entity :=
  let first := fld p 4 2
  let summary := nth p 8 % 4 == 2
  let span := if summary then some (fld p 12 4) else none
  (h.rulesFor 0x10 (source % 2 ^ 13)).foldl (fun e x =>
    let off := bits x.2.2 0 16
    if first ≤ off ∧ off < first + vals.length then
      let c := nth srcs off
      let stale := !summary && c % 16 == 8 && bit (fld p 10 2) (bits c 4 12)
      e.apply x source (nth vals (off - first)) 8 ns span stale sus grade
    else e) e

/-! ### Frame boundaries (R295, R296) -/

/-- A slot makes a sample of this entity at this frame (R295). -/
def Hw.slotTakes (h : Hw) (s key frameNo : Nat) : Bool :=
  h.on (R.AGT_MS_CTL_EN.at s) && h.on (R.AGT_MS_CTL_TRIGGER.at s) && h.on (R.AGT_MS_STAT_ACTIVE_VALID.at s) &&
    ((key ^^^ h.g (R.AGT_MS_SRC_KEY.at s)) &&& h.g (R.AGT_MS_MASK_MASK.at s)) == 0 &&
    frameNo % max 1 (h.g (R.AGT_MS_CTL_DIV.at s)) == 0

/-- Model slots (R284). -/
def Hw.slotCount (h : Hw) : Nat := h.prof.sel 4 8 16

/-- A frame boundary of an entity: where a slot takes it, what the node holds now goes with it (R13), and the counts since the previous sample
begin anew. -/
def Hw.frameBoundary (h : Hw) (key frameNo ns sp : Nat) (x : RxStream) : Hw :=
  if (List.range h.slotCount).any fun s => h.slotTakes s key frameNo then
    let e := h.entity key
    let b : Boundary := ⟨e, frameNo, ns, sp, x.trk, x.syncSus, h.agt.unreachable.contains key, h.chk.drift.find? fun d => d.source / 2 ^ 13 == key⟩
    Hw.putEntity { h with agt := { h.agt with bounds := h.agt.bounds ++ [b] } } { e with grade := 0, gaps := 0, failed := 0, failGrade := 0, failSus := false }
  else h

/-! ### Acceptance of a record -/

/-- The entities that a CHECK record names with STATUS 1 or 8 (R300). -/
def checkNames (p : List Nat) : List Nat :=
  let off := 104 + (if nth p 2 = 3 then 96 else 0)
  ((List.range (fld p 50 2)).filterMap fun i =>
    let e := slice p (off + 8 * i) 8
    if (nth e 5 = 1 ∨ nth e 5 = 8) ∧ fld e 0 4 ≠ 0xFFFFFFFF then some (fld e 0 4 / 2 ^ 13) else none)

/-- A CONDITION record of a home (R307): whether its condition 0x0A stands. -/
def Hw.noteCond (h : Hw) (r : Rec) : Hw :=
  if r.typ = 0x03 ∧ fld r.payload 12 2 = 0x0A ∧ bit r.source 12 then
    let n := r.source / 2 ^ 20
    let l := h.agt.transientAt.filter (· != n)
    { h with agt := { h.agt with transientAt := if nth r.payload 14 = 1 then n :: l else l } }
  else h

/-- A CHECK record counts for the entities that it names (R300), with its grade and SUSPENDED (R19, R307). -/
def Hw.collectCheck (h : Hw) (r : Rec) : Hw :=
  if r.typ ≠ 0x22 then h else
  h.each (checkNames r.payload).eraseDups fun h k =>
    let e := h.entity k
    h.putEntity { e with failed := min (e.failed + 1) (2 ^ 31 - 1), failGrade := max e.failGrade (r.flags % 4), failSus := e.failSus || bit r.flags 5 }

/-- The payload as its producer formed it: a PACKED one inflated (R186). -/
def Rec.plain (r : Rec) : List Nat :=
  if bit r.flags 3 then (match inflate (r.payload.drop 4) with | some p => p.take (fld r.payload 0 4) | none => []) else r.payload

/-- A slot map, which an entity keeps whether or not the engine runs: it holds for a stream's whole life (R199). -/
def Hw.noteSlots (h : Hw) (r : Rec) : Hw :=
  if r.typ ≠ 0x11 || !r.known then h else
  let p := r.payload
  let e := h.entity (r.source / 2 ^ 13)
  let run := if fld p 0 2 = 0 then [] else e.slots
  h.putEntity { e with slots := run ++ (List.range (fld p 2 2)).map fun i => fld p (4 + 8 * i) 4 }

/-- The rules over a record that is no frame; they write once the stream's FIRST sync has come (R299). -/
def Hw.collectBytes (h : Hw) (r : Rec) : Hw :=
  if !(h.rxStream r.source).first then h else
  h.putEntity (h.applyBytes (h.entity (r.source / 2 ^ 13)) r.typ r.source (r.stamp.nt / 65536) r.plain (bit r.flags 5) (r.flags % 4))

/-- A frame record takes the slot map that its entity's control stream has brought: at the stream's first frame, or later where that was not taken
(R199, R299). -/
def Hw.mapFrame (h : Hw) (r : Rec) : Hw :=
  let x := h.rxStream r.source
  let p := r.payload
  let srcs := (h.entity (r.source / 2 ^ 13)).slots
  if r.typ = 0x10 ∧ ((fld p 0 4 = 0 ∧ fld p 4 2 = 0) ∨ x.srcs.isEmpty) ∧ fld p 4 2 + fld p 6 2 ≤ srcs.length then h.putRx { x with srcs := srcs } else h

/-- A frame record: its values, decoded against the reference, which a key frame sets from its first record on (R193, R198, R298). -/
def Hw.collectFrame (h : Hw) (r : Rec) : Hw :=
  let p := r.payload
  let e := h.entity (r.source / 2 ^ 13)
  let x := h.rxStream r.source
  match frameValues p x.ref x.srcs x.good with
  | none => h.putRx { x with good := false }
  | some vs =>
    let h := h.putRx { x with ref := overlay x.ref (fld p 4 2) vs, good := x.good || (fld p 4 2 == 0 && nth p 8 % 4 == 0) }
    if x.first then h.putEntity (h.applyFrame e r.source (r.stamp.nt / 65536) p vs x.srcs (bit r.flags 5) (r.flags % 4)) else h

/-- Add a result to the sum and number kept under a key. -/
def addSum (k : Nat) (v : Int) : List (Nat × Int × Nat) → List (Nat × Int × Nat)
  | [] => [(k, v, 1)]
  | (j, s, n) :: t => if j = k then (j, s + v, n + 1) :: t else (j, s, n) :: addSum k v t

/-- A HEALTH record of kind 3 brings the receiver power of a lane by its LANE_KEY (R426), unless its result is missing (R438). -/
def Hw.noteHealth (h : Hw) (r : Rec) : Hw :=
  if r.typ = 0x48 ∧ nth r.payload 0 = 3 ∧ h.running 0x42 ∧ fld r.payload 12 2 ≠ 0x8000 then
    { h with opt := { h.opt with remote := addSum (fld r.payload 8 4) (signed 16 (fld r.payload 12 2)) h.opt.remote } }
  else h

/-- What a record says of its stream, whether or not the engine runs (R193, R299, R300, R307): the last sync record's marks; a gap makes the
stream's words missing and its reference void. -/
def Hw.noteRx (h : Hw) (r : Rec) (lost : Bool) : Hw :=
  let x := h.rxStream r.source
  let x := if lost then { x with good := false } else x
  let x := if r.typ = 0x02 then x else { x with seq := some r.seq }
  let x := if r.typ = 0x01 then
      { x with first := x.first || bit (nth r.payload 10) 6, transient := bit (nth r.payload 10) 4, trk := some (nth r.payload 11 % 8),
               syncSus := bit r.flags 5 }
    else x
  let h := h.putRx x
  (if lost then h.putEntity ((h.entity (r.source / 2 ^ 13)).lose r.source) else h).noteSlots r

/-- A record of a frame stream that the engine does not read: its reference goes (R193). -/
def Hw.skipFrame (h : Hw) (r : Rec) : Hw := if r.typ = 0x10 then h.putRx { h.rxStream r.source with good := false } else h

/-- The SEQ after a loss. -/
def Loss.after (l : Loss) : Nat := (l.seq + l.count) % 2 ^ 32

/-- A record beyond a loss has been taken since: the loss has been reckoned with already. -/
def RxStream.past (x : RxStream) (after : Nat) : Bool := match x.seq with | some q => ahead32 q after | none => false

/-- A loss of this hop that no gap record shows yet lies before a record (R191, R193). -/
def Hw.lossBefore (h : Hw) (r : Rec) : Bool :=
  h.flw.losses.any fun l => l.source == r.source && ahead32 r.seq l.after && !(h.rxStream r.source).past l.after

/-- What the part takes from a record that it accepts or forms (R296–R299); `lost` says that records before it are lost. A record whose sync record
is missing is discarded, a gap record apart, which needs none (R12, R193); the rules write while the engine's page is RUNNING. -/
def Hw.collectAs (h : Hw) (r : Rec) (lost : Bool) : Hw :=
  let h := h.noteRx r lost
  let h := if r.known then ((h.noteCond r).noteHealth r).mapFrame r else h
  if !h.running 0x20 || !(r.known || r.typ == 0x02) then h.skipFrame r else
  let h := h.collectCheck r
  let key := r.source / 2 ^ 13
  let e := h.entity key
  let h := if bit r.source 12 then h else
    h.putEntity { e with grade := max e.grade (r.flags % 4), gaps := min (e.gaps + b2n (r.typ == 0x02)) (2 ^ 31 - 1) }
  if r.typ ≠ 0x10 then (if r.known then h.collectBytes r else h)
  else
    let h := h.collectFrame r
    if r.source % 2 ^ 13 = 0x0001 ∧ bit (nth r.payload 8) 3 then
      h.frameBoundary key (fld r.payload 0 4) (r.stamp.nt / 65536) r.stamp.sp (h.rxStream r.source)
    else h

/-- The node accepts a record of an entity, or this part forms one: one that has been received before is discarded (R183). -/
def Hw.collect (h : Hw) (r : Rec) : Hw :=
  let x := h.rxStream r.source
  let again := r.typ != 0x02 && r.replay && (match x.seq with | some q => !ahead32 r.seq (succ32 q) | none => false)
  if again then h else
  h.collectAs r (r.typ == 0x02 || bit r.flags 4 || h.flw.gapNext.contains r.source || h.lossBefore r)

end Sys2Proof.Machine
end

