-- ==== Sys2Proof/Machine/Records.lean ====
section
/-!
DEFINITION. Machine/Records.lean: step positions (R145, R153), counter slots (R171), the hop's buffers with the spillway and the
ledger (R360–R372), streams with their sync records (R182–R189, R580), gap and condition records (R191, R200).
-/
namespace Sys2Proof.Machine

/-! ### Step positions -/

/-- The no-position value (R145). -/
def noPosition : Nat := 2 ^ 64 - 1

/-- A tracker of the table. -/
def Hw.tracker (h : Hw) (t : Nat) : Option Tracker := h.stp.trackers.find? fun k => k.num == t

/-- phase at an FRC value, saturating (R153). -/
def Tracker.phaseAt (k : Tracker) (frc : Nat) : Nat := min (k.phase0 + (frc - k.phaseFrc) * k.w) (2 ^ 64 - 1)

/-- The internal angle phase[63:48] (R153). -/
def Tracker.internal (k : Tracker) (frc : Nat) : Nat := k.phaseAt frc / 2 ^ 48

/-- TRK_STAT STATE (R151). -/
def Hw.trkState (h : Hw) (t : Nat) : Nat := h.g (R.TRK_STAT_STATE.at t)

/-- The published angle at tick `f` of a tracker that is in state `st`: it never falls within a step (R153), and holds at 0xFFFF in a stall (R155). -/
def Tracker.angleIn (k : Tracker) (st f : Nat) : Nat :=
  match st with
  | 3 => max k.pub (k.internal f)
  | 4 => 0xFFFF
  | _ => 0

/-- The step position at tick `f` of a tracker that is in state `st` (R145). -/
def Tracker.positionIn (k : Tracker) (st f : Nat) : Nat := if st = 0 ∨ st = 1 then noPosition else k.index * 65536 + k.angleIn st f

/-- The published angle (R151, R153). -/
def Hw.angleOf (h : Hw) (k : Tracker) : Nat := k.angleIn (h.trkState k.num) h.frc

/-- The step position of tracker `t` (R145). -/
def Hw.position (h : Hw) (t : Nat) : Nat :=
  match h.tracker t with | none => noPosition | some k => k.positionIn (h.trkState t) h.frc

/-- TSTAT of a sync record without its sync bits (R188). -/
def Hw.tstat (h : Hw) : Nat :=
  h.g R.TIM_STATUS_SERVO + 8 * h.g R.TIM_STATUS_TIME_LOST + 16 * h.g R.TIM_STATUS_TRANSIENT

/-- PSTAT of a sync record (R188): tracker state, LATE, grade of the position. -/
def Hw.pstat (h : Hw) (t grade : Nat) : Nat := h.trkState t + 8 * h.g (R.TRK_STAT_LATE.at t) + 16 * grade

/-- What the block latches with an event time (R189). -/
def Hw.stampAt (h : Hw) (t grade : Nat) : Stamp := ⟨h.nt, h.frc, h.tstat, h.pstat t grade, t, h.position t⟩

/-- The stamp of a node's own stream, which carries no position (R190). -/
def Hw.stampNode (h : Hw) : Stamp := ⟨h.nt, h.frc, h.tstat, 0, 0, noPosition⟩

/-- The stamp of this part's own control records: tracker 0 on a leaf, none on a node (R190). -/
def Hw.stampOwn (h : Hw) : Stamp := match h.prof with | .l => h.stampAt 0 0 | _ => h.stampNode

/-- The lowest-numbered enabled tracker of a Boldal T (R190). -/
def Hw.lowTracker (h : Hw) : Option Nat := (List.range 128).find? fun t => bit (h.g (R.STP_TRK_EN_EN.at (t / 32))) (t % 32)

/-- The stamp of the tracker stream 0x1020 of a Boldal T (R190): that of its lowest-numbered enabled tracker. -/
def Hw.stampSteps (h : Hw) : Stamp :=
  match h.prof with
  | .l => h.stampAt 0 0
  | _ => match h.lowTracker with | some t => h.stampAt t 1 | none => h.stampNode

/-- The FRC value at which NT read `ns`, on the line now in force. -/
def Hw.tickOf (h : Hw) (ns : Nat) : Nat := h.frc - (h.t48 h.frc - ns * 2 ^ 48) / h.tim.rate

/-- TSTAT as it stood at tick `f` (R189). -/
def Hw.tstatAt (h : Hw) (f : Nat) : Nat :=
  if h.frc ≤ f then h.tstat else match h.tim.stats.find? fun x => x.1 ≤ f with | some x => x.2 | none => h.tstat

/-- The stamp of this part's own stream at an instant that has passed: every field as at that tick (R189; log entry 142). -/
def Hw.stampOwnAt (h : Hw) (ns : Nat) : Stamp :=
  { Hw.stampOwn { h with frc := h.tickOf ns } with nt := ns * 65536, tstat := h.tstatAt (h.tickOf ns) }

/-- The same without a position (R190). -/
def Hw.stampNodeAt (h : Hw) (ns : Nat) : Stamp :=
  { Hw.stampNode { h with frc := h.tickOf ns } with nt := ns * 65536, tstat := h.tstatAt (h.tickOf ns) }

/-! ### Counter slots (R171) -/

/-- The value of a counter slot. -/
def Hw.slotVal (h : Hw) (n : Nat) : Nat := (RegFile.find h.cnt.vals n).getD 0

/-- Set a counter slot, modulo 2^64. -/
def Hw.setSlot (h : Hw) (n v : Nat) : Hw :=
  { h with cnt := { h.cnt with vals := RegFile.put h.cnt.vals n (v % 2 ^ 64) } }

/-- The counters count: the CNT page is RUNNING (R171), or aborts (R94). -/
def Hw.counting (h : Hw) : Bool := h.running 0x08 || h.state 0x08 == 4

/-- The slots that count: those whose source has power (R171, R175). -/
def Hw.liveSlots (h : Hw) : List Slot := h.slots.filter fun s => !h.cnt.halted.contains s.num

/-- Count `n` events of a source in every slot that names it (R171). -/
def Hw.count (h : Hw) (cls index mode n : Nat) : Hw :=
  if h.counting then
    h.each (h.liveSlots.filter fun s => s.cls == cls && s.index == index && s.mode == mode) fun h s =>
      h.setSlot s.num (h.slotVal s.num + n)
  else h

/-- Count the busy ticks of the command-tap engines up to now (R171): those on which begins exceed ends. -/
def Hw.countBusy (h : Hw) : Hw :=
  let h' := h.each h.cnt.busy (fun h b => if 0 < b.2.1 then h.count 1 b.1 2 (h.frc - b.2.2) else h)
  { h' with cnt := { h'.cnt with busy := h'.cnt.busy.map fun (b : Nat × Int × Nat) => (b.1, b.2.1, h'.frc) } }

/-- A record of a frame stream of this part is lost here: the stream's next frame is a key frame (R198). -/
def Hw.frameLost (h : Hw) (r : Rec) (mine : Option Nat → Nat → Nat) : Hw :=
  let mark (f : FrameStream) : FrameStream := { f with lost := f.lost || mine f.proxy f.loc == r.source }
  if r.typ = 0x10 then { h with cnt := { h.cnt with streams := h.cnt.streams.map mark } } else h

/-! ### Non-deterministic choices (R281) -/

/-- Count one choice of the block under its cause. -/
def Hw.choice (h : Hw) (cause : Nat) : Hw :=
  let h := (h.add64 R.ND_TOTAL_LO_COUNT R.ND_TOTAL_HI_COUNT 1).s R.ND_LAST_CAUSE cause
  ((h.s64 R.ND_LAST_FRC_LO_FRC R.ND_LAST_FRC_HI_FRC (h.frc % 2 ^ 64)).incSat (R.ND_CNT_COUNT.at cause)).raise 0x13 19

/-! ### Sources (R182) -/

/-- The node ID that this part's SOURCE carries: the node's own, or the leaf's primary home's. -/
def Hw.nodeId (h : Hw) : Nat := match h.prof with | .l => h.g R.CUL_LEAF_NODE | _ => h.g R.FAB_ID_NODE

/-- SOURCE of this part's stream with a local source. -/
def Hw.source (h : Hw) (loc : Nat) : Nat :=
  h.nodeId * 2 ^ 20 + (match h.prof with | .l => h.g R.CUL_LEAF_PORT * 2 ^ 13 | _ => 0) + loc

/-- SOURCE of proxy leaf `p` (R17). -/
def Hw.proxySource (h : Hw) (p loc : Nat) : Nat := h.nodeId * 2 ^ 20 + p * 2 ^ 13 + loc

/-- SOURCE of a frame stream of this part. -/
def Hw.frameSource (h : Hw) (p : Option Nat) (loc : Nat) : Nat := match p with | some p => h.proxySource p loc | none => h.source loc

/-- Local source of a SOURCE value. -/
def localOf (source : Nat) : Nat := source % 2 ^ 13

/-- The grade of this part's own hardware stamps (R132). -/
def Hw.ownGrade (h : Hw) : Nat := match h.prof with | .l => 0 | _ => 1

/-- Local source of the control stream (R182). -/
def Hw.controlLocal (h : Hw) : Nat := match h.prof with | .l => 0x0000 | _ => 0x1000

/-- Streams that more than one path feeds (R580). -/
def multiPath (loc : Nat) : Bool := loc == 0x0000 || loc == 0x1000 || loc == 0x0900 || loc == 0x1002 || loc == 0x1020

/-! ### Ledger and buffers (R360–R372) -/

/-- LENGTH of a record (R180). -/
def Rec.size (r : Rec) : Nat := 16 + roundUp r.payload.length 4

/-- The bytes of a record (R179). -/
def Rec.bytes (r : Rec) : List Nat :=
  le 2 r.size ++ [r.typ, r.flags] ++ le 4 r.source ++ le 4 r.seq ++ le 4 r.tdelta ++ padMul 4 r.payload

/-- The length of a ledger period in ns. -/
def Hw.periodNs (h : Hw) : Nat := h.g R.FLW_CFG_PERIOD_MS * 1000000

/-- The end of the running period: the next boundary (R369). -/
def Hw.periodEnd (h : Hw) : Nat := (h.flw.periodStart / max 1 h.periodNs + 1) * max 1 h.periodNs

/-- The end of the running period has passed and its row is still open (R369, R370): what happens now counts in the next one. -/
def Hw.pastEnd (h : Hw) : Bool := h.flw.replayEnd.isSome

/-- Change the row of a class in the running period, or in the one whose end has passed. -/
def Hw.ledgerOld (h : Hw) (c : Nat) (f : LedRow → LedRow) : Hw :=
  { h with flw := { h.flw with led := setAt h.flw.led c (f (h.flw.led.getD c LedRow.zero)) } }

/-- Change the ledger row of a class for something that happens now. -/
def Hw.ledger (h : Hw) (c : Nat) (f : LedRow → LedRow) : Hw :=
  if h.pastEnd then { h with flw := { h.flw with ledNext := setAt h.flw.ledNext c (f (h.flw.ledNext.getD c LedRow.zero)) } } else h.ledgerOld c f

/-- Change the separate occupancy counter of a class (R543). -/
def Hw.occupy (h : Hw) (c : Nat) (more less : Nat) : Hw :=
  { h with flw := { h.flw with occ := setAt h.flw.occ c (nth h.flw.occ c + more - less) } }

/-- Bytes of the shared pool in use (R365): records held in classes 3–7, but for those taken back, which a retention store keeps. -/
def Hw.poolUse (h : Hw) : Nat :=
  total ((h.flw.held.filter fun x => 3 ≤ x.r.cls && x.keptBy.isNone).map fun x => x.r.size)

/-- Bytes of the reserved buffer in use. -/
def Hw.resvUse (h : Hw) : Nat :=
  total ((h.flw.held.filter fun x => x.r.cls < 3 && x.keptBy.isNone).map fun x => x.r.size)

/-- Bytes of the shared pool (R360). -/
def Hw.poolSize (h : Hw) : Nat := h.g R.FLW_POOL_KIB * 1024

/-- Set PRESSURE and HEADROOM from the occupancy (R365). -/
def Hw.levee (h : Hw) : Hw :=
  let use := h.poolUse
  let high := h.poolSize * h.g R.FLW_LEVEE_HIGH
  let low := h.poolSize * h.g R.FLW_LEVEE_LOW
  let h := h.s R.FLW_POOL_USE_KIB (use / 1024)
  let h := if !h.on R.FLW_STAT_PRESSURE && use * 256 > high then
      Hw.raise { h.s R.FLW_STAT_PRESSURE 1 with flw := { h.flw with pressFrc := h.frc } } 0x30 16
    else if h.on R.FLW_STAT_PRESSURE && use * 256 < low then
      Hw.raise { h.s R.FLW_STAT_PRESSURE 0 with flw := { h.flw with pressFrc := h.frc } } 0x30 17
    else h
  h.s R.FLW_STAT_HEADROOM (b2n (!h.on R.FLW_STAT_PRESSURE && use * 256 < low))

/-- Two losses of one stream as one where no SEQ lies between them (R191): the reason, error and instant of the pending one `l` stand (log entry 121). -/
def Loss.join (l n : Loss) : Option Loss :=
  if l.source ≠ n.source then none
  else if n.seq = l.after then some { l with count := l.count + n.count, syncLost := l.syncLost || n.syncLost, origins := l.origins ++ n.origins }
  else if l.seq = n.after then
    some { l with seq := n.seq, count := l.count + n.count, syncLost := l.syncLost || n.syncLost, origins := l.origins ++ n.origins }
  else none

/-- Add a loss to those that are pending, merged with what it touches (R191). -/
def addLoss (n : Loss) : List Loss → List Loss
  | [] => [n]
  | l :: t => match l.join n with | some m => addLoss m t | none => l :: addLoss n t

/-- A sync record of a stream is lost up to a SEQ: what the consumers here hold of it ends (R193). -/
def Hw.endSync (h : Hw) (source upTo : Nat) : Hw :=
  { h with flw := { h.flw with syncs := h.flw.syncs.filter fun s => !(s.1 == source && !ahead32 s.2.1 (succ32 upTo)) } }

/-- Note a loss of `count` records of a stream from `seq` on, which a gap record is to cover; `sync` says that a sync record may be among them. -/
def Hw.noteLoss (h : Hw) (source seq count reason error : Nat) (sync : Bool) (o : List Origin) : Hw :=
  let n : Loss := ⟨source, seq, count, reason, error, sync, h.g R.FLW_PERIOD_PERIOD, h.frc, o⟩
  let h := { h with flw := { h.flw with losses := addLoss n h.flw.losses } }
  if sync then h.endSync source (seq + count + 2 ^ 32 - 1) else h

/-- Count a record that this hop drops, with its reason (R368, R371). -/
def Hw.countDrop (h : Hw) (cls reason n : Nat) : Hw :=
  let h := h.ledger cls fun l => { l with dropped := l.dropped + n }
  let h := if h.pastEnd then { h with flw := { h.flw with dropsNext := bump h.flw.dropsNext reason n } }
    else { h with flw := { h.flw with drops := bump h.flw.drops reason n } }
  h.count 6 (0x010 + cls) 0 n

/-- Drop a record that this hop answers for: DROPPED, its reason, and the loss that a gap record covers; the frame it came in is
answered for until that gap record is beyond this hop (R368). A gap record that is dropped leaves the loss that it covers, with its COUNT, reason and
GFLAGS, to a new one (R191). -/
def Hw.dropRec (h : Hw) (r : Rec) (reason error : Nat) (o : List Origin) : Hw :=
  let h := h.countDrop r.cls reason 1
  let h := if r.typ = 0x02 then
      h.noteLoss r.source r.seq (fld r.payload 0 4) (fld r.payload 4 2) (fld r.payload 6 2) (bit (fld r.payload 10 2) 0) o
    else h.noteLoss r.source r.seq 1 reason error (r.typ == 0x01) o
  h.frameLost r h.frameSource

/-- Drop a record held here. -/
def Hw.dropHeld (h : Hw) (x : HeldRec) (reason error : Nat) : Hw :=
  h.dropRec x.r reason error ((match x.src with | some o => [o] | none => []) ++ x.covers)

/-- A frame that this hop answers for has one record less in its hands (R328). -/
def Hw.settle (h : Hw) (o : Origin) : Hw :=
  { h with fab := { h.fab with links := h.fab.links.map fun k =>
      if k.port = o.port then { k with custody := k.custody.map fun c =>
        if c.cls = o.cls ∧ c.hseq = o.hseq then { c with left := c.left - 1 } else c } else k } }

/-- A held record is beyond this hop: its own frame and those it covers are settled (R328, R368). -/
def Hw.settleRec (h : Hw) (x : HeldRec) : Hw :=
  let h := match x.src with | some o => h.settle o | none => h
  h.each x.covers fun h o => h.settle o

/-- The oldest droppable record of class `q`: the oldest yellow one, else the oldest (R367). Those that a retention store keeps are not in the pool. -/
def victim (q : Nat) (held : List HeldRec) : Option HeldRec :=
  match held.find? fun x => x.r.cls == q && x.r.yellow && x.keptBy.isNone with
  | some x => some x
  | none => held.find? fun x => x.r.cls == q && x.keptBy.isNone

/-- Take the first record equal to `x` out of a list. -/
def takeOut (x : HeldRec) : List HeldRec → List HeldRec
  | [] => []
  | y :: t => if y = x then t else y :: takeOut x t

/-- Free `need` bytes of the pool for a record of class `c` (R367): `fuel` bounds the drops and the class steps. -/
def Hw.spill (h : Hw) (c need : Nat) : Nat → Nat → Hw
  | 0, _ => h
  | fuel + 1, q =>
    if need + h.poolUse ≤ h.poolSize ∨ q < c then h else
    match victim q h.flw.held with
    | some x =>
      let h := { h with flw := { h.flw with held := takeOut x h.flw.held } }
      (((h.dropHeld x 1 0).occupy x.r.cls 0 1).choice 2).spill c need fuel q
    | none => if q = 0 then h else h.spill c need fuel (q - 1)

/-- The controller firmware runs: stage 3 has started it, and neither a lockstep restart nor a handover pauses it, nor is it held (R538, R561,
R573). -/
def Hw.firmware (h : Hw) : Bool := h.pwr.core && h.on R.PWR_START_BOOT && !h.saf.ctrlPaused && !h.on R.SAF_STAT_CTRL_HELD

/-- A page stands FAULTED: its function has stopped (R90). -/
def Hw.faulted (h : Hw) (p : Nat) : Bool := h.state p == 5

/-- A page works: RUNNING, or draining. -/
def Hw.works (h : Hw) (p : Nat) : Bool := h.state p == 2 || h.state p == 3 || h.state p == 6

/-- The FLW page works: RUNNING, or draining. -/
def Hw.flwWorks (h : Hw) : Bool := h.state 0x30 == 2 || h.state 0x30 == 3 || h.state 0x30 == 6

/-- The FLW page drains: it accepts no new work (R87). -/
def Hw.flwDrains (h : Hw) : Bool := h.state 0x30 == 3 || h.state 0x30 == 6

/-- Admit a record to this hop's buffers (R360, R367): classes 0–2 to the reserved buffer, which always has room for what
credits allow (R362), classes 3–7 to the shared pool through the spillway. -/
def Hw.admitNow (h : Hw) (x : HeldRec) : Hw :=
  let gap := x.r.typ != 0x02 && h.flw.gapNext.contains x.r.source
  let x := if gap then { x with r := { x.r with flags := x.r.flags ||| 16 } } else x
  let h := if gap then { h with flw := { h.flw with gapNext := h.flw.gapNext.filter (· != x.r.source) } } else h
  let r := x.r
  let h := if 3 ≤ r.cls then h.spill r.cls r.size (h.flw.held.length + 8) 7 else h
  if 3 ≤ r.cls ∧ h.poolSize < r.size + h.poolUse then ((h.dropHeld x 1 0).choice 2).levee
  else ({ h with flw := { h.flw with held := h.flw.held ++ [x] } }.occupy r.cls 1 0).levee

/-- Admit a record; one that comes while the page drains waits for the end of the drain (R87). -/
def Hw.admitHeld (h : Hw) (x : HeldRec) : Hw :=
  if h.flwDrains then Hw.occupy { h with flw := { h.flw with waiting := h.flw.waiting ++ [x] } } x.r.cls 1 0 else h.admitNow x

/-- The records that have waited for the end of a drain are admitted. -/
def Hw.admitWaiting (h : Hw) : Hw :=
  let l := h.flw.waiting
  Hw.each { h with flw := { h.flw with waiting := [] } } l fun h x => (h.occupy x.r.cls 0 1).admitNow x

/-- A record produced here as the buffers hold it; a gap record covers frames that this hop answers for. -/
def Hw.ownHeld (h : Hw) (r : Rec) (covers : List Origin) : HeldRec := ⟨r, none, h.frc, r.dest, [], 0, h.nodeId, none, covers, none⟩

/-- Admit a record produced here. -/
def Hw.takeIn (h : Hw) (r : Rec) (covers : List Origin) : Hw := h.admitHeld (h.ownHeld r covers)

/-- Take a record out of the buffers (sent, delivered or taken). -/
def Hw.release (h : Hw) (x : HeldRec) : Hw :=
  ({ h with flw := { h.flw with held := takeOut x h.flw.held } }.occupy x.r.cls 0 1).levee

/-- Streams in the duplicate table (R342). -/
def Hw.seenLimit (h : Hw) : Nat := h.prof.sel 4096 65536 262144

/-- A replayed record that was delivered before (R342). -/
def Hw.duplicate (h : Hw) (r : Rec) : Bool :=
  r.replay && (match h.flw.seen.find? fun e => e.1 == r.source with
    | some e => e.2.1 == r.seq || (!ahead32 r.seq e.2.1 && dist32 e.2.1 r.seq ≤ 4096 && e.2.2.contains r.seq)
    | none => false)

/-- Note the SEQ of a record delivered (R342): the highest of its stream and those of the last 4,096 below it. -/
def Hw.noteSeen (h : Hw) (r : Rec) : Hw :=
  match h.flw.seen.find? fun e => e.1 == r.source with
  | some e =>
    let hi := if ahead32 r.seq e.2.1 then r.seq else e.2.1
    let l := (r.seq :: e.2.1 :: e.2.2).filter fun q => dist32 hi q ≤ 4096
    { h with flw := { h.flw with seen := (r.source, hi, l) :: h.flw.seen.filter fun x => x.1 != r.source } }
  | none =>
    if h.seenLimit ≤ h.flw.seen.length then h.inc R.FAB_DUP_UNFILTERED_COUNT
    else { h with flw := { h.flw with seen := (r.source, r.seq, []) :: h.flw.seen } }

/-- A held record is delivered, or taken by a function of this hop (R370): the first delivery of its SEQ counts DELIVERED, a later one
DUPLICATES; true for the first. -/
def Hw.deliver (h : Hw) (x : HeldRec) : Hw × Bool :=
  let dup := h.duplicate x.r
  let h := (h.release x).settleRec x
  if dup then (h.ledger x.r.cls fun l => { l with duplicates := l.duplicates + 1 }, false)
  else ((h.noteSeen x.r).ledger x.r.cls fun l => { l with delivered := l.delivered + 1 }, true)

/-! ### Gap records (R191, R368) -/

/-- The open breaches that suspend what a record type depends on (R28, R181, log entry 12). -/
def Hw.suspendsType (h : Hw) (typ : Nat) : Bool :=
  h.saf.clockFault || (h.flw.conds.any fun (c : OpenCond) => c.live &&
    (c.guarantee == 6 || ((typ == 0x22 || typ == 0x28 || typ == 0x30) && (c.guarantee == 4 || c.guarantee == 5 || c.guarantee == 7
      || c.guarantee == 9))))

/-- The gap record that covers a loss. -/
def Hw.gapRec (h : Hw) (l : Loss) : Rec :=
  { typ := 0x02, flags := h.ownGrade + 32 * b2n (h.suspendsType 0x02), source := l.source, seq := l.seq, tdelta := 0xFFFFFFFF,
    payload := le 4 l.count ++ le 2 l.reason ++ le 2 l.error ++ le 2 h.nodeId ++ le 2 (b2n l.syncLost) ++ le 4 l.period,
    cls := 2, stamp := h.stampOwn, yellow := false, replay := false }

/-- Put a gap record directly before the first held record of its stream behind the loss, which it sets GAP_FOLLOWS in; true if there is
one (R181, R191). -/
def markGap (gap : HeldRec) : List HeldRec → List HeldRec × Bool
  | [] => ([], false)
  | x :: t =>
    if x.r.source = gap.r.source ∧ x.r.typ ≠ 0x02 ∧ ahead32 x.r.seq gap.r.seq then
      (gap :: { x with r := { x.r with flags := x.r.flags ||| 16 } } :: t, true)
    else let m := markGap gap t; (x :: m.1, m.2)

/-- Emit the gap record of a loss: it is PRODUCED in class 2 and stands in the discarded records' place; the stream's next record carries
GAP_FOLLOWS, and the words that the stream feeds are missing again, where no later record has shown the loss already (R191, R299). -/
def Hw.emitGap (h : Hw) (l : Loss) : Hw :=
  let r := h.gapRec l
  let m := markGap (h.ownHeld r l.origins) h.flw.held
  let lost := !(h.rxStream l.source).past l.after
  let h := { h with flw := { h.flw with losses := h.flw.losses.filter fun x => x != l } }
  let h := (((h.ledger 2 fun r => { r with produced := r.produced + 1 }).count 6 0x002 0 1).count 6 0x021 0 1).collectAs r lost
  if m.2 then Hw.levee (Hw.occupy { h with flw := { h.flw with held := m.1 } } 2 1 0)
  else Hw.takeIn { h with flw := { h.flw with gapNext := l.source :: h.flw.gapNext.filter (· != l.source) } } r l.origins

/-! ### Streams (R182–R189, R580) -/

/-- The stream of a SOURCE, new where none is open (R183, R189). -/
def Hw.stream (h : Hw) (source : Nat) : Stream :=
  match h.flw.streams.find? fun s => s.source == source with
  | some s => s
  | none => ⟨source, 0, false, 0, 0, true, false, []⟩

/-- Store a stream's state. -/
def Hw.putStream (h : Hw) (s : Stream) : Hw :=
  { h with flw := { h.flw with streams := s :: h.flw.streams.filter fun x => x.source != s.source } }

/-- A record produced here enters the flow path: PRODUCED, the block event, the tree engine's rules, the buffers (R296, R370). -/
def Hw.produce (h : Hw) (r : Rec) : Hw :=
  let h := (h.ledger r.cls fun l => { l with produced := l.produced + 1 }).count 6 r.cls 0 1
  (h.collect r).takeIn r []

/-- The stream has no sync record since the last step of NT (R189). -/
def Hw.stepped (h : Hw) (source : Nat) : Bool := !h.tim.stepSynced.contains source

/-- The stream has no sync record since the last reset of the core domain (R189). -/
def Hw.restarted (h : Hw) (source : Nat) : Bool := !h.flw.rstSynced.contains source

/-- The SYNC record that goes before a record stamped `st` (R188, R189). -/
def Hw.syncRec (h : Hw) (s : Stream) (st : Stamp) (flags : Nat) : Rec :=
  { typ := 0x01, flags := (if bit flags 2 then 2 + 4 else h.ownGrade) + 32 * b2n (h.suspendsType 0x01), source := s.source,
    seq := s.nextSeq, tdelta := 0,
    payload := le 10 st.nt ++ [st.tstat + 32 * b2n (h.stepped s.source) + 64 * b2n s.first + 128 * b2n (h.restarted s.source), st.pstat, st.tracker]
      ++ [0, 0, 0] ++ le 8 st.sp ++ le 8 (st.frc % 2 ^ 64),
    cls := 2, stamp := st, yellow := false, replay := false }

/-- Emit a sync record of a stream. -/
def Hw.emitSync (h : Hw) (s : Stream) (st : Stamp) (flags : Nat) : Hw :=
  let r := h.syncRec s st flags
  let h := h.putStream { s with nextSeq := succ32 s.nextSeq, synced := true, lastSync := st.nt / 65536, since := 0,
                                first := false }
  let h := { h with tim := { h.tim with stepSynced := s.source :: h.tim.stepSynced.filter (· != s.source) },
                    flw := { h.flw with rstSynced := s.source :: h.flw.rstSynced.filter (· != s.source) } }
  (h.count 6 0x020 0 1).produce r

/-- A sync record must go before `n` records with this event time (R12, R184). -/
def Hw.needsSync (h : Hw) (s : Stream) (ns n : Nat) : Bool :=
  !s.synced || h.stepped s.source || h.restarted s.source || s.since + n > 1023 || ns < s.lastSync || ns - s.lastSync > 100000

/-- Fill PAIR_SEQ of a condition record of STATE 0 and note the SEQ of one of STATE 1 (R200). -/
def Hw.pairCond (h : Hw) (r : Rec) : Rec × Hw :=
  if r.typ ≠ 0x03 then (r, h) else
  let gu := fld r.payload 10 2
  let co := fld r.payload 12 2
  if nth r.payload 14 = 1 then
    (r, { h with flw := { h.flw with conds := h.flw.conds.map fun c =>
      if c.guarantee = gu ∧ c.cond = co then { c with seq := r.seq } else c } })
  else
    let seq := match h.flw.conds.find? fun c => c.guarantee == gu && c.cond == co with | some c => c.seq | none => 0
    ({ r with payload := r.payload.take 28 ++ le 4 seq }, h)

/-- The whole output of a cut (R186, R468): a final cut is filled with zero bits to a byte, any other ends with an empty stored block. Whatever
blocks the free value chooses, the output inflates to the input after the history: a choice that does not stands for stored blocks (log entry
9). -/
def cutBytes (hist input : List Nat) (depth : Nat) (fin : Bool) : List Nat :=
  let b := Config.deflate hist input depth fin
  let out := if fin then bytesOfBits b else bytesOfBits (b ++ [0, 0, 0]) ++ [0, 0, 0xFF, 0xFF]
  if inflateAfter hist (if fin then out else out ++ [1, 0, 0, 0xFF, 0xFF]) = some input then out
  else storedBlocks (input.length / 65535 + 1) input fin ++ (if fin then [] else [0, 0, 0, 0xFF, 0xFF])

/-- Pack a TRACE or MARKER record that CMP_RECPACK names (R186, R470); one that would not get smaller stays unpacked. -/
def Hw.packRec (h : Hw) (r : Rec) : Rec × Hw :=
  if h.running 0x48 && ((r.typ == 0x38 && h.on R.CMP_RECPACK_TRACE) || (r.typ == 0x39 && h.on R.CMP_RECPACK_MARKER)) then
    let r' := { r with flags := r.flags ||| 8,
                       payload := le 4 r.payload.length ++ cutBytes [] r.payload (h.g R.CMP_RECPACK_DEPTH + 1) true }
    if r'.size < r.size then (r', h) else (r, h.inc R.CMP_RECPACK_NG_COUNT)
  else (r, h)

/-- Produce a record, packed where it may be. -/
def Hw.producePacked (h : Hw) (r : Rec) : Hw := (h.packRec r).2.produce (h.packRec r).1

/-! ### The emission of verdicts and actions (R446, R447) -/

/-- Fill in the SEQ of the verdict that a record refers to. -/
def Hw.fillRef (h : Hw) (r : Rec) : Rec :=
  match r.refAt with
  | none => r
  | some (o, t) =>
    match h.vrd.seqs.find? fun e => e.1 == t with
    | some e => { r with payload := r.payload.take o ++ le 4 e.2 ++ r.payload.drop (o + 4) }
    | none => r

/-- The digests of a verdict that a block event caused, and LOG_LOST (R444, R446). -/
def finishVerdict (r : Rec) (lost : Bool) : Rec :=
  let p := if lost then setAt r.payload 2 (nth r.payload 2 ||| 16) else r.payload
  if r.audit.length = 96 then { r with payload := p } else
  let d := auditDigest "BOLDAL-AUDIT-CMD" [] ++ auditDigest "BOLDAL-AUDIT-MODEL" [] ++ auditDigest "BOLDAL-AUDIT-INPUT" (p.take 64)
  { r with audit := d, payload := p.take 64 ++ slice d 0 16 ++ slice d 32 16 ++ slice d 64 16 }

/-- The log entry of a verdict, or of a CHECK record at its event time (R275, R446). -/
def Hw.logEntry (h : Hw) (r : Rec) : List Nat :=
  le 4 r.seq ++ le 2 h.nodeId ++ [0, 0] ++ (if r.typ = 0x22 then le 8 (r.stamp.nt / 65536) else slice r.payload 16 8) ++ fit 96 r.audit ++
    List.replicate 16 0

/-- Write an entry to the ring of the verdict log (R446); the oldest entry that it overwrites is counted. -/
def Hw.writeLog (h : Hw) (r : Rec) (purpose : DmaFor) : Hw :=
  let size := 1024 * h.g R.VRD_LOG_SIZE_KIB
  let at_ := h.g R.VRD_LOG_TAIL_OFF
  let full := decide (size / 128 ≤ h.vrd.logCount)
  let h := { h with vrd := { h.vrd with logCount := h.vrd.logCount + b2n (!full), logWrap := h.vrd.logWrap + b2n full } }
  (h.s R.VRD_LOG_TAIL_OFF ((at_ + 128) % max 128 size)).dmaWrite h.operCtx
    (h.g64 R.VRD_LOG_BASE_LO_BASE R.VRD_LOG_BASE_HI_BASE + at_) (h.logEntry r) purpose

/-- A verdict is emitted (R446): its log entry is written first, and the record follows the write response; while the log is stopped it
carries LOG_LOST. -/
def Hw.emitVerdict (h : Hw) (r : Rec) : Hw :=
  let h := { h with vrd := { h.vrd with seqs := (r.ticket, r.seq) :: h.vrd.seqs } }
  if h.on R.VRD_STAT_LOG_FAULT then h.produce (finishVerdict r true) else
  let r := finishVerdict r false
  h.writeLog r (.verdictLog r)

/-- The digests of a CHECK record go to the verdict log beside the record, while the log runs (R275). -/
def Hw.logCheck (h : Hw) (r : Rec) : Hw :=
  if r.typ = 0x22 && !r.audit.isEmpty && !h.on R.VRD_STAT_LOG_FAULT && h.g R.VRD_LOG_SIZE_KIB != 0 then h.writeLog r .checkLog else h

/-- Clear the registers that show entry `n` (R466). -/
def Hw.clearEntry (h : Hw) (n : Nat) : Hw :=
  let h := ((h.s (R.VRD_ESTAT_STATE.at n) 0).s (R.VRD_ESTAT_AKIND.at n) 0).s (R.VRD_ESTAT_REASON.at n) 0
  let h := ((h.s (R.VRD_ESTAT_YES.at n) 0).s (R.VRD_ESTAT_NO.at n) 0).s (R.VRD_ESTAT_AUTH.at n) 0
  h.s (R.VRD_ESUBJ_SUBJECT.at n) 0

/-- The emission of a final ACTION record frees its entry (R447). -/
def Hw.freeFinal (h : Hw) (r : Rec) : Hw :=
  if r.typ = 0x32 ∧ 4 ≤ nth r.payload 1 then
    let n := fld r.payload 8 2
    if h.vrd.entries.any fun e => e.num == n && e.serial == fld r.payload 12 4 then
      Hw.clearEntry { h with vrd := { h.vrd with entries := h.vrd.entries.filter fun e => e.num != n } } n
    else h
  else h

/-- A numbered record of a stream enters the flow path. -/
def Hw.emitOut (h : Hw) (r : Rec) : Hw :=
  if r.typ = 0x30 then h.emitVerdict r else ((h.logCheck r).producePacked r).freeFinal r

/-- Emit the records of one group (one frame, one message) of a stream, a sync record before them where R184 asks. -/
def Hw.emitGroup (h : Hw) (rs : List Rec) : Hw :=
  match rs.head? with
  | none => h
  | some r0 =>
    let s := h.stream r0.source
    if r0.typ = 0x01 then h.emitSync s r0.stamp r0.flags else
    let h := if h.needsSync s (r0.stamp.nt / 65536) rs.length then h.emitSync s r0.stamp r0.flags else h
    h.each rs fun h r =>
      let s := h.stream r.source
      let pr := h.pairCond { r with seq := s.nextSeq, tdelta := r0.stamp.nt / 65536 - s.lastSync,
                                    flags := r.flags ||| (if h.suspendsType r.typ then 32 else 0) }
      (pr.2.putStream { s with nextSeq := succ32 s.nextSeq, since := s.since + 1 }) |>.emitOut (h.fillRef pr.1)

/-- Insert a record in ascending event time, ties in order of hand-over (R580). -/
def insertByTime (r : Rec) : List Rec → List Rec
  | [] => [r]
  | x :: t => if r.stamp.nt < x.stamp.nt then r :: x :: t else x :: insertByTime r t

/-- Hand a group of records to its stream (R580): a stream fed by one path emits at once, any other holds them. Nothing is
emitted before the first step of time (R117). -/
def Hw.handOver (h : Hw) (rs : List Rec) : Hw :=
  match rs.head? with
  | none => h
  | some r0 =>
    if !h.timed then h
    else if multiPath (localOf r0.source) then
      let s := h.stream r0.source
      h.putStream { s with held := rs.foldl (fun l r => insertByTime r l) s.held }
    else h.emitGroup rs

/-- Form a record of this part's own stream. -/
def Hw.mkRec (h : Hw) (typ cls loc grade : Nat) (st : Stamp) (payload : List Nat) : Rec :=
  { typ := typ, flags := grade, source := h.source loc, seq := 0, tdelta := 0, payload := payload, cls := cls, stamp := st,
    yellow := false, replay := false }

/-- Set CONT in every record of a group but the last (R181). -/
def contFlags : List Rec → List Rec
  | [] => []
  | [r] => [r]
  | r :: t => { r with flags := r.flags ||| 64 } :: contFlags t

/-! ### Condition records (R28, R200) -/

/-- Payload of a condition record. -/
def Hw.condPayload (h : Hw) (gu co st bound : Nat) : List Nat :=
  le 10 h.nt ++ le 2 gu ++ le 2 co ++ [st, 0] ++ le 8 h.stampOwn.sp ++ le 4 bound ++ le 4 0

/-- The guarantee is breached under this condition and not paired yet. -/
def Hw.breached (h : Hw) (gu co : Nat) : Bool := h.flw.conds.any fun c => c.live && c.guarantee == gu && c.cond == co

/-- Hand over a condition record in the control stream; none before start-up is complete (R564). -/
def Hw.condRec (h : Hw) (gu co st bound : Nat) : Hw :=
  if h.on R.PWR_START_DONE then
    h.handOver [h.mkRec 0x03 1 h.controlLocal h.ownGrade h.stampOwn (h.condPayload gu co st bound)]
  else h

/-- A condition of a guarantee ceases to hold. -/
def Hw.breach (h : Hw) (gu co bound : Nat) : Hw :=
  if h.breached gu co then h else
  let h := { h with flw := { h.flw with conds :=
    (⟨gu, co, true, 0⟩ : OpenCond) :: h.flw.conds.filter fun (c : OpenCond) => !(c.guarantee == gu && c.cond == co) } }
  h.condRec gu co 1 bound

/-- The condition holds again: the paired record. -/
def Hw.restore (h : Hw) (gu co : Nat) : Hw :=
  if !h.breached gu co then h else
  let h := { h with flw := { h.flw with conds := h.flw.conds.map fun (c : OpenCond) =>
    if c.guarantee = gu ∧ c.cond = co then { c with live := false } else c } }
  h.condRec gu co 0 0

/-! ### Diagnostics and the failure-detection guarantee (R539, R551) -/

/-- The Garnet test round (µs): ceil(P / Q) × slot (R539). -/
def Hw.testRound (h : Hw) : Nat :=
  let n := h.prof.sel 5 34 328
  let out := (h.gar.pools.filter (· == 4)).length
  let q := (h.gar.pools.filter (· == 3)).length
  if q = 0 then h.g R.SAF_ROUND_US else ceilDiv (n - out) q * h.prof.sel 1000 294 121

/-- The failure-detection guarantee is suspended by a disabled diagnostic, one that owes a full interval, TEST_MODE, or a round beyond
9,900 µs (R539, R551): the SAF page shows it, and the condition record is emitted or paired. -/
def Hw.detection (h : Hw) : Hw :=
  let off := h.on R.SAF_CFG_SCRUB_DIS || h.on R.SAF_CFG_GAR_KAT_DIS || h.on R.SAF_CFG_AGT_KAT_DIS || h.on R.SAF_CFG_LEDGER_DIS
  let bad := off || !h.saf.owed.isEmpty || h.saf.testMode || decide (9900 < h.g R.SAF_ROUND_US)
  if bad then
    let h := if off && !h.on R.SAF_STAT_SUSPENDED then h.raise 0x54 19 else h
    (h.s R.SAF_STAT_SUSPENDED 1).breach 9 0x0B 0
  else (h.s R.SAF_STAT_SUSPENDED 0).restore 9 0x0B

/-- One completed run of a diagnostic (R556): one enabled again owes runs up to the end of a full interval (R551). -/
def Hw.diagRun (h : Hw) (diag : Nat) : Hw :=
  let h := h.inc (R.SAF_DRUNS_COUNT.at diag)
  let left := h.saf.owed.filter fun x => !(x.1 == diag && x.2 ≤ h.frc)
  if left.length < h.saf.owed.length then Hw.detection { h with saf := { h.saf with owed := left } } else h

end Sys2Proof.Machine
end

