-- ==== Sys2Proof/Machine/CheckRecords.lean ====
section
/-!
DEFINITION. Machine/CheckRecords.lean: the collective bound (R261), the CHECK record (R275, R276) and the books of a check entry
(R283).
-/
namespace Sys2Proof.Machine

/-- term(a, p) of R261. -/
def boundTerm (a : Int) (p : Nat) : Nat := if p = 0 then 0 else 2 ^ (64 + a - (p : Int)).toNat

/-- The bound of R261 for `nc` contributors with contributor width `sc`, result widths `wr` and `sr` (0 for integer formats). -/
def CheckDef.boundFor (d : CheckDef) (nc sc wr sr : Nat) : Nat :=
  let e := (nc - 1) * boundTerm 0 d.pa + boundTerm 0 wr + nc * boundTerm (d.xc - d.x - 1) sc + boundTerm (-1) sr
  let v := 12 * sqrtUp d.nElems * e
  let dd : Int := d.x - 64 - d.eRef
  let prob := if 0 ≤ dd then v * 2 ^ dd.toNat else ceilDiv v (2 ^ (-dd).toNat)
  prob + ceilDiv ((nc + 1) * ceilDiv d.nElems 32) 2

/-- S of a format in the bound. -/
def boundS (f : Nat) : Nat := if fmtInt f then 0 else fmtS f

/-- W of a format in the bound. -/
def boundW (f : Nat) : Nat := if fmtInt f then 0 else fmtW f

/-- The bound of the end-to-end comparison. -/
def CheckDef.bound (d : CheckDef) : Nat := d.boundFor d.n (boundS d.cfmt) (boundW d.rfmt) (boundS d.rfmt)

/-- A participant named in a CHECK record (R276). -/
structure Named where
  source : Nat
  role : Nat
  status : Nat
  index : Nat
deriving DecidableEq, Repr

/-- The result of a round. -/
structure CheckOut where
  outcome : Nat
  error : Nat
  nSeen : Nat
  maxDiff : Nat
  row : Nat
  named : List Named
  drift : List Nat
  input : List Nat
  grade : Nat
  suspended : Bool
deriving DecidableEq, Repr

/-- A round that closes without an evaluation (R257, R283). -/
def CheckOut.incomplete (nSeen : Nat) : CheckOut := ⟨2, E.incomplete, nSeen, 0, 0, [], [], [], 1, false⟩

/-- What a stream has delivered to a round. -/
def CheckRound.input (r : CheckRound) (source : Nat) : Option CheckIn := r.ins.find? fun i => i.source == source

/-- N_SEEN (R276): the contributors of the sum, or those present. -/
def CheckRound.seen (r : CheckRound) (d : CheckDef) : Nat :=
  if d.kind = 0 then (match r.input (2 ^ 32) with | some i => i.count | none => 0)
  else (d.contrib.filter fun s => (r.input s).isSome).length

/-- The entry of a check. -/
def Hw.checkEntry (h : Hw) (n : Nat) : Option CheckEntry := h.chk.entries.find? fun e => e.num == n

/-- Store a check entry, with the number of its open rounds. -/
def Hw.putCheck (h : Hw) (e : CheckEntry) : Hw :=
  ({ h with chk := { h.chk with entries := e :: h.chk.entries.filter fun x => x.num != e.num } }).s
    (R.CHK_STAT_OPEN.at e.num) e.rounds.length

/-- Bytes 0–103 of a CHECK record (R276) with `n` named entries. -/
def checkHead (e : CheckEntry) (key : Nat) (o : CheckOut) (n : Nat) : List Nat :=
  let d := e.defn
  le 2 e.num ++ [d.kind, o.outcome] ++ le 8 key ++ le 2 o.error ++ le 2 (2 ^ d.kLog) ++ le 2 (unsigned 16 d.eRef) ++ [d.mode, 0]
    ++ le 4 o.nSeen ++ le 12 (if d.kind = 0 then d.bound else 0) ++ le 12 o.maxDiff ++ le 2 o.row ++ le 2 n ++ [0, 0, 0, 0]
    ++ (auditDigest "BOLDAL-AUDIT-CMD" d.raw).take 16 ++ (auditDigest "BOLDAL-AUDIT-MODEL" (d.raw.take 64)).take 16
    ++ (auditDigest "BOLDAL-AUDIT-INPUT" o.input).take 16

/-- One named entry. -/
def Named.bytes (n : Named) : List Nat := le 4 n.source ++ [n.role, n.status] ++ le 2 n.index

/-- The payloads of the CHECK records of a round: the drift part in the first only, named entries as they fit in 4,096 bytes. -/
def checkPayloads (e : CheckEntry) (key : Nat) (o : CheckOut) : Nat → List Nat → List Named → List (List Nat)
  | 0, _, _ => []
  | fuel + 1, drift, ns =>
    let room := (4096 - 16 - 104 - drift.length) / 8
    let now := ns.take room
    (checkHead e key o now.length ++ drift ++ now.flatMap Named.bytes) ::
      (if ns.length ≤ room then [] else checkPayloads e key o fuel [] (ns.drop room))

/-- The full audit digests of a round's outcome (R275). -/
def checkAudit (e : CheckEntry) (o : CheckOut) : List Nat :=
  auditDigest "BOLDAL-AUDIT-CMD" e.defn.raw ++ auditDigest "BOLDAL-AUDIT-MODEL" (e.defn.raw.take 64) ++ auditDigest "BOLDAL-AUDIT-INPUT" o.input

/-- Emit the CHECK records of a round in stream 0x1002 (R276); the first carries the full digests to the verdict log (R275). -/
def Hw.emitCheck (h : Hw) (e : CheckEntry) (key : Nat) (o : CheckOut) : Hw :=
  h.handOver (contFlags ((checkPayloads e key o (o.named.length + 1) o.drift o.named).zipIdx.map fun p =>
    { h.mkRec 0x22 1 0x1002 (max 1 o.grade + 32 * b2n o.suspended) h.stampNode p.1 with audit := if p.2 = 0 then checkAudit e o else [] }))

/-- Book a round: the counts, the last outcome and key, the function causes of page 0x13 (R283). -/
def Hw.bookRound (h : Hw) (n key outcome : Nat) : Hw :=
  let h := (h.s (R.CHK_STAT_OUTCOME.at n) outcome).s64 (R.CHK_ROUND_LO_KEY.at n)
    (R.CHK_ROUND_HI_KEY.at n) key
  let h := if outcome = 1 ∨ outcome = 6 ∨ outcome = 8 then (h.inc (R.CHK_MISMATCH_COUNT.at n)).raise 0x13 16 else h
  if outcome = 2 then (h.inc (R.CHK_INCOMPLETE_COUNT.at n)).raise 0x13 17 else h

/-- Close the open rounds of an entry without evaluating them: each emits an INCOMPLETE record (R257). -/
def Hw.closeRounds (h : Hw) (e : CheckEntry) : Hw :=
  let h := h.each e.rounds fun h r =>
    let o := { CheckOut.incomplete (r.seen e.defn) with grade := r.ins.foldl (fun g i => max g i.grade) 1 }
    (h.emitCheck e r.key o).bookRound e.num r.key 2
  h.s (R.CHK_STAT_OPEN.at e.num) 0

/-- The reduction group of check entry `n` (R349). -/
def Hw.checkGroup (h : Hw) (n : Nat) : Nat := h.prof.sel 0 192 768 + n

/-- While standard mode is selected the floating-point identity guarantee stands suspended (R280): a loaded drift entry or a MOMENT group
in MODE 0. -/
def Hw.fpIdentity (h : Hw) : Hw :=
  if (h.chk.entries.any fun e => e.defn.kind == 3 && e.defn.mode == 0) || (h.red.groups.any fun g => g.op == 3 && g.mode == 0)
  then h.breach 5 6 0 else h.restore 5 6

/-- This node is the root of a group. -/
def Hw.isRoot (h : Hw) (g : Group) : Bool := g.root == h.nodeId

/-- A group of the group table. -/
def Hw.groupNo (h : Hw) (n : Nat) : Option Group := h.red.groups.find? fun g => g.num == n

/-- Show a group in its registers (R359). -/
def Hw.showGroup (h : Hw) (n : Nat) : Hw :=
  match h.groupNo n with
  | some g =>
    let h := ((h.s (R.RED_CTL_LOADED.at n) 1).s (R.RED_STAT_OP.at n) g.op).s (R.RED_STAT_ROOT.at n) g.root
    h.s (R.RED_STAT_ROOT_HERE.at n) (b2n (h.isRoot g))
  | none => ((h.s (R.RED_CTL_LOADED.at n) 0).s (R.RED_STAT_OP.at n) 0).s (R.RED_STAT_ROOT.at n) 0 |>.s (R.RED_STAT_ROOT_HERE.at n) 0

/-- Unload an entry, with its reduction group. -/
def Hw.dropCheck (h : Hw) (n : Nat) : Hw :=
  let h := { h with chk := { h.chk with entries := h.chk.entries.filter fun x => x.num != n,
                                        raw := h.chk.raw.filter fun x => x.1 != n } }
  let g := h.checkGroup n
  let h := { h with red := { h.red with groups := h.red.groups.filter fun x => x.num != g,
                                        rounds := h.red.rounds.filter fun x => x.group != g } }
  (((h.showGroup g).s (R.CHK_CTL_EN.at n) 0).s (R.CHK_CTL_LOADED.at n) 0).fpIdentity

/-- FLW or RED is aborted or enters FAULTED: every loaded entry closes (R283). -/
def Hw.checksLost (h : Hw) : Hw :=
  h.each h.chk.entries fun h e => ((h.closeRounds e).dropCheck e.num).err 0x13 E.depLost

end Sys2Proof.Machine
end

