-- ==== Sys2Proof/Machine/Faults.lean ====
section
/-!
DEFINITION. Machine/Faults.lean: the pages that consume a page's output (R93) and a page's entry into FAULTED (R90, R93).
-/
namespace Sys2Proof.Machine

/-! ### Leaving RUNNING for FAULTED -/

/-- Trackers of this profile (R147). -/
def Hw.trackerCount (h : Hw) : Nat := h.prof.sel 1 128 0

def Hw.setTrk (h : Hw) (t st : Nat) : Hw := h.s (R.TRK_STAT_STATE.at t) st

/-- Put a tracker in OFF (R151). -/
def Hw.trackerOff (h : Hw) (t : Nat) : Hw := (h.setTrk t 0).s (R.TRK_STAT_LATE.at t) 0

/-- The timers of page `p` act no longer. -/
def Hw.dropTimers (h : Hw) (p : Nat) : Hw := { h with tim := { h.tim with timers := h.tim.timers.filter fun t => t.page != p } }

/-- A pending swap is discarded (R165, R166). -/
def Hw.dropSwap (h : Hw) : Hw := Hw.s { h with stp := { h.stp with pending := none } } R.STP_SCHED_STAT_SWAP_PENDING 0

/-- STP leaves RUNNING (R151, R166): its timers act no longer, a pending swap is discarded, and every tracker is OFF. -/
def Hw.stpOff (h : Hw) : Hw :=
  h.dropSwap.dropTimers 0x06 |>.each (List.range h.trackerCount) fun h t => if h.trkState t = 0 then h else h.trackerOff t

/-- The item under way is given up: the loss that it would have told of is told by the next one (R489). -/
def Evr.dropCut (e : Evr) : Evr := { e with cut := [], gapBefore := e.gapBefore || e.gapOut, gapOut := false }

/-- The mirror stops at once (R90, R499): the write in progress ends, the rest is given up. -/
def Hw.evrAbort (h : Hw) : Hw :=
  Hw.s { h with evr := { h.evr.dropCut with nv := h.evr.nv.take 1, flush := none, reads := [] } } R.EVR_STAT_MIRROR_RUN 0

/-- What stops with a page that enters FAULTED, beside what its commands test (R90): the trackers of the STP page, which are OFF wherever that page
is not RUNNING, with a pending swap (R151, R166; log entry 16), the mirror of the event recorder, and the check entries that consume FLW and RED (R283). -/
def Hw.onFault (h : Hw) (p : Nat) : Hw :=
  if p = 0x06 then h.stpOff else if p = 0x4C then h.evrAbort else if p = 0x30 ∨ p = 0x24 then h.checksLost else h

/-- The pages that consume the output of page `p`, as each chapter names them (R93). -/
def Hw.consumers (h : Hw) (p : Nat) : List Nat :=
  let l := decide (h.prof = .l)
  match p with
  | 0x08 => [0x09, 0x0A]
  | 0x06 => [0x09]
  | 0x04 => [0x06, 0x28, 0x40, 0x42]
  | 0x09 => if l then [0x20] else []
  | 0x30 => [0x28, 0x24, 0x20, 0x44]
  | 0x28 => [0x24, 0x44]
  | 0x20 => [0x44]
  | 0x34 => [0x42]
  | 0x44 => [0x42] ++ if h.on (R.CH_CFG_EN.at 3) then [0x48] else []
  | 0x38 => if h.on (R.CH_CFG_EN.at 1) then [0x48] else []
  | 0x48 => if h.on R.EVR_CFG_PACK then [0x4C] else []
  | _ => []

/-- A page enters FAULTED with a code, with its event entry (R493), and every consumer that is RUNNING still with DEP_LOST, in turn (R90, R93).
An ABORTING page goes only to OFF, or to FAULTED by an overrun (R85): the code is recorded. DESIGN CHOICE: a page that enters FAULTED out of
STARTING tells its consumers too (log entry 172). -/
def Hw.faultIn : Nat → Hw → Nat → Nat → Hw
  | 0, h, _, _ => h
  | fuel + 1, h, p, code =>
    if h.off p || h.state p = 4 || h.state p = 5 then h.err p code else
    let h := (((h.err p code).setState p 5).event 0x0040 2 ([p, 0] ++ le 2 code)).onFault p
    h.each (h.consumers p) fun h c => if h.running c then h.faultIn fuel c E.depLost else h

/-- A page's own fault (R90). -/
def Hw.fault (h : Hw) (p code : Nat) : Hw := h.faultIn 8 p code

/-- The consumers of a page that aborts (R93). -/
def Hw.loseConsumers (h : Hw) (p : Nat) : Hw :=
  let h := if p = 0x30 ∨ p = 0x24 then h.checksLost else h
  h.each (h.consumers p) fun h c => if h.running c then h.fault c E.depLost else h

end Sys2Proof.Machine
end

