-- ==== Sys2Proof/Machine/Access.lean ====
section
/-!
DEFINITION. Machine/Access.lean: how a command acts on the state, and who may make a host access: power (R37), reserved pages (R78),
identity and role (R43, R508–R510).
-/
namespace Sys2Proof.Machine

/-- The effect of PORST_N or of a tick on the block: the ports' output of the last command is replaced, the profile stays (R1). -/
def State.clocked (s : State) (f : Hw → Hw) : State :=
  { s with hw := { f { s.hw with out := [] } with prof := s.hw.prof } }

/-- The effect of any other command on the block: the FRC too stays as it is, since only PORST_N and TCLK write it (R113). -/
def State.on (s : State) (f : Hw → Hw) : State :=
  { s with hw := { f { s.hw with out := [] } with prof := s.hw.prof, frc := s.hw.frc } }

/-- What every meaning answers. -/
abbrev Result : Type := Host.Outcome State Fault Refusal

/-- The next state of a command that changes only the block. -/
def State.go (s : State) (f : Hw → Hw) : Result := .next (s.on f)

/-- The GAR and SLU pages lie in the Garnet domain (R35). -/
def garnetPage (p : Nat) : Bool := 0x10 ≤ p && p ≤ 0x14

/-- Pages of the always-on domain (R35). -/
def alwaysOnPage (p : Nat) : Bool := p == 0 || p == 0x58

/-- The power domain that answers an access to offset `off` of page `p` is on (R37). A domain that is powered but still held in reset answers as one
that is off: R37 speaks of the latter alone (DESIGN CHOICE, log entry 156). -/
def Hw.powered (h : Hw) (p off : Nat) : Bool :=
  h.pwr.aon && (alwaysOnPage p || (h.pwr.core && (!garnetPage p || off < 0x40 || h.pwr.gar)))

/-- A requester that R508 admits: the operator, or an enabled tenant context. -/
def Hw.admits (h : Hw) (a : Acc) : Bool :=
  a.oper || (a.ctx != h.operCtx && a.ctx < h.contexts && h.on (R.CTX_CFG_EN.at a.ctx))

/-- The context a requester acts as (R508). -/
def Hw.actsAs (h : Hw) (a : Acc) : Nat := if a.oper then h.operCtx else a.ctx

/-- Context `c` owns page `p` as a tenant (R81, R510). -/
def Hw.tenantOwns (h : Hw) (c p : Nat) : Bool := h.on (R.PAGE_CAP_TENANT p) && h.g (R.PAGE_OWNER_OWNER p) == c

/-- A tenant's access to a page that it does not own is refused with ACCESS_DENIED (R510). -/
def Hw.denies (h : Hw) (a : Acc) (p off : Nat) : Bool :=
  h.powered p off && h.admits a && h.present p && !(a.oper || h.tenantOwns a.ctx p)

/-- A host access of requester `a` to offset `off` of page `p`, by the role rules: `also` says whether the part of the window is
open to this tenant beyond its own pages (R510). -/
def Hw.access (h : Hw) (a : Acc) (p off : Nat) (also : Bool) (f : Hw → Hw) : Hw :=
  if !h.powered p off then h.busError
  else if !h.admits a then h.busError
  else if !h.present p then (if a.oper then h.reply 0 else h.busError)
  else if a.oper || h.tenantOwns a.ctx p || also then f (h.reply 0)
  else (h.err p E.accessDenied).busError

/-- An access that the operator alone may make. -/
def Hw.operAccess (h : Hw) (a : Acc) (p off : Nat) (f : Hw → Hw) : Hw :=
  if !h.powered p off then h.busError
  else if !h.admits a then h.busError
  else if !h.present p then (if a.oper then h.reply 0 else h.busError)
  else if a.oper then f (h.reply 0)
  else (h.err p E.accessDenied).busError

/-! ### Resources (R96, R97) -/

/-- The resource does not exist in this profile, or its port is tied off (R76, R96). -/
def Hw.absent (h : Hw) (r : Nat) : Bool :=
  let i := r % 4096
  let l := decide (h.prof = .l)
  let t := decide (h.prof = .t)
  h.pwr.tied.contains r || !(match r / 4096 with
    | 1 => i < 4 || (0x10 ≤ i && i < 0x30) || (i == 0x40 && l)
    | 2 => i < 4 || (0x10 ≤ i && i < 0x20 && l) || (0x100 ≤ i && i < 0x180 && t)
    | 3 => i < 32
    | 4 => i == 0 || i == 0x10 || i == 0x11
    | 5 => i < 64
    | 6 => i < h.prof.sel 5 34 328
    | 7 => i < h.prof.sel 2 16 64
    | 8 => i < h.culverts || (0x200 ≤ i && i < 0x200 + h.fabrics) || (0x300 ≤ i && i < 0x300 + h.taps) || i == 0x400 ||
        i == 0x401 || i == 0x402
    | 9 => i < 16 && t
    | 10 => i < 16
    | _ => false)

/-- The page that holds a resource. -/
def Hw.holder (h : Hw) (r : Nat) : Option Nat :=
  match h.claims.find? fun c => c.1 == r with
  | some c => some c.2
  | none => none

/-- A refused claim: CLAIM_FAIL and PAGE_CLAIM_FAIL name the resource and its holder (R80, R97). -/
def Hw.claimFail (h : Hw) (p r : Nat) : Hw :=
  let who := if h.absent r then 0xFF else (h.holder r).getD 0xFE
  let h := (h.s (R.PAGE_CLAIM_FAIL_RES p) r).s (R.PAGE_CLAIM_FAIL_HOLDER p) who
  let h := h.s (R.PAGE_CLAIM_FAIL_HCTX p) (if h.present who then h.g (R.PAGE_OWNER_OWNER who) else 0xFF)
  (h.setBits (R.PAGE_IRQ_STAT_CLAIM_FAIL p) 1).err p E.resourceHeld

/-- How a write names the resource that its claim could not have: a code beyond those of R111. -/
def E.held (r : Nat) : Nat := 0x10000 + r

/-- A refused write: the code stands in the page's header, and nothing else changes (R83, R112); a failed claim names its resource (R97). -/
def Hw.refuse (h : Hw) (p code : Nat) : Hw := if code < 0x10000 then h.err p code else h.claimFail p (code - 0x10000)

/-- PAGE_SEQ advances on an accepted write to a function register (R82). -/
def Hw.accepted (h : Hw) (p : Nat) : Hw := h.inc (R.PAGE_SEQ_SEQ p)

/-- What a register write with a rule of its own comes to: the block after it, or the code it is refused with. -/
abbrev Tried : Type := Except Nat Hw

/-- End a write: refused with its code and no effect, or accepted (R82, R83). -/
def Hw.finish (h : Hw) (p : Nat) (r : Tried) : Hw :=
  match r with
  | .ok h' => h'.accepted p
  | .error c => h.refuse p c

/-- A host write with a rule of its own. -/
def Hw.hostWrite (h : Hw) (a : Acc) (p off : Nat) (also : Bool) (f : Hw → Tried) : Hw :=
  h.access a p off also fun h => h.finish p (f h)

/-- A host write that the operator alone may make. -/
def Hw.operWrite (h : Hw) (a : Acc) (p off : Nat) (f : Hw → Tried) : Hw :=
  h.operAccess a p off fun h => h.finish p (f h)

end Sys2Proof.Machine
end

