-- ==== Sys2Proof/Machine/Queues.lean ====
section
/-!
DEFINITION. Machine/Queues.lean: engine queues (R100–R110, R579) and the sharing of the engines (R516, R517).
-/
namespace Sys2Proof.Machine

/-- The page of an engine (R100). -/
def enginePage (e : Nat) : Nat :=
  match e with
  | 1 | 2 | 6 => 0x10
  | 3 => 0x20
  | 4 => 0x48
  | 5 => 0x49
  | 7 => 0x30
  | _ => 0xFF

/-- Opcodes of each engine (R246, R273, R303, R380, R482). -/
def opcodeOk (e op : Nat) : Bool :=
  match e with
  | 1 => op == 0x01 || op == 0x02 || op == 0x03 || op == 0x04
  | 2 => op == 0x02 || op == 0x10 || op == 0x11 || op == 0x12
  | 3 => op == 0x30 || op == 0x31 || op == 0x32
  | 4 => 0x50 ≤ op && op ≤ 0x55
  | 5 => op == 0x60
  | 6 => op == 0x20
  | 7 => op == 0x40 || op == 0x41
  | _ => false

/-- What a queue holds. -/
def Hw.queue (h : Hw) (q : Nat) : QueueRun :=
  match h.queues.find? fun x => x.q == q with
  | some x => x
  | none => ⟨q, [], false, 0, 0, 0, 0⟩

/-- Store what a queue holds. -/
def Hw.putQueue (h : Hw) (x : QueueRun) : Hw := { h with queues := x :: h.queues.filter fun y => y.q != x.q }

/-- Q_STATE STATE. -/
def Hw.qState (h : Hw) (q : Nat) : Nat := h.g (R.Q_STATE_STATE.at q)

/-- The engine of a queue. -/
def Hw.qEngine (h : Hw) (q : Nat) : Nat := h.g (R.Q_CFG_ENGINE.at q)

/-- The context of a queue. -/
def Hw.qCtx (h : Hw) (q : Nat) : Nat := h.g (R.Q_CFG_CTX.at q)

/-- The implemented queues. -/
def Hw.queueList (h : Hw) : List Nat := List.range h.queueCount

/-- Q_CTL ENABLE follows Q_STATE STATE as PAGE_CTL ENABLE follows PAGE_STATE (R86, R101); a queue that does not run waits for nothing. -/
def Hw.setQState (h : Hw) (q st : Nat) : Hw :=
  let h := (h.s (R.Q_STATE_STATE.at q) st).s (R.Q_CTL_ENABLE.at q) (enabledIn st)
  if st = 2 ∨ st = 3 ∨ st = 6 then h else h.s (R.Q_STATE_WAIT.at q) 0

/-- The context is enabled (R102, R514). -/
def Hw.ctxOn (h : Hw) (c : Nat) : Bool := c == h.operCtx || h.on (R.CTX_CFG_EN.at c)

/-- Completions in the ring that software has not consumed. -/
def Hw.cqUsed (h : Hw) (q : Nat) : Nat := (h.g (R.CQ_TAIL_TAIL.at q) + 65536 - h.g (R.CQ_HEAD_HEAD.at q)) % 65536

/-- The completion ring has no free slot (R105). -/
def Hw.cqFull (h : Hw) (q : Nat) : Bool := h.cqUsed q == 2 ^ h.g (R.Q_CFG_CQ_LOG.at q)

/-- WAIT: the queue waits for its engine page or for completion ring space (R101, R102, R105). -/
def Hw.setWait (h : Hw) (q : Nat) : Hw :=
  let st := h.qState q
  let on := st == 2 || st == 3 || st == 6
  h.s (R.Q_STATE_WAIT.at q) (b2n (on && (!h.running (enginePage (h.qEngine q)) || h.cqFull q)))

/-- A queue may be used by tenant context `a` (R510). -/
def Hw.ownQueue (h : Hw) (a : Acc) (q : Nat) : Bool := h.qCtx q == a.ctx

/-- A host write to a register of queue `q`, `also` where its tenant may make it; a queue that the profile does not have is reserved space (R10).
Every refusal stands in Q_STATE ERR too, that of a tenant's write included (R112, R510). -/
def Hw.queueAccess (h : Hw) (a : Acc) (q off : Nat) (also : Bool) (f : Hw → Tried) : Hw :=
  let r := h.access a (quePage q) off (also && h.ownQueue a q) fun h =>
    if q < h.queueCount then
      match f h with
      | .ok h' => h'.accepted (quePage q)
      | .error c => h.queueErr q c
    else h
  if h.denies a (quePage q) off && !(also && h.ownQueue a q) && q < h.queueCount then r.s (R.Q_STATE_ERR.at q) E.accessDenied else r

/-! ### State (R102, R579) -/

/-- An enable accepted in OFF (R579). IRQ-flagged completions that have raised no interrupt yet stay counted (R110). -/
def Hw.queueStart (h : Hw) (q : Nat) : Hw :=
  let x := h.queue q
  let h := ((h.s (R.Q_HEAD_HEAD.at q) 0).s (R.CQ_HEAD_HEAD.at q) 0).s (R.CQ_TAIL_TAIL.at q) 0
  let h := if x.bellOff then h else h.s (R.Q_TAIL_TAIL.at q) 0
  (h.putQueue ⟨q, [], false, x.irqCount, x.irqFirst, 0, 0⟩).setQState q 1

/-- A queue can be enabled only while its QUE page is RUNNING and its context enabled (R102). -/
def Hw.queueAble (h : Hw) (q : Nat) : Bool := h.running (quePage q) && h.ctxOn (h.qCtx q)

/-- A write of Q_CTL ENABLE = 1 (R85, R102). -/
def Hw.queueEnable (h : Hw) (q : Nat) : Tried :=
  match h.qState q with
  | 0 => if h.queueAble q then .ok (h.queueStart q) else .error E.badState
  | 3 => if h.queueAble q then .ok (h.setQState q 6) else .error E.badState
  | 4 | 5 => .error E.badState
  | _ => .ok h

/-- The queue has nothing left of a drain or an abort: it reaches OFF, or STARTING after a held re-enable (R85). -/
def Hw.queueSettle (h : Hw) (q : Nat) : Hw :=
  let x := h.queue q
  let drained := x.runs.isEmpty && h.g (R.Q_HEAD_HEAD.at q) == x.drainTo
  match h.qState q with
  | 3 => if drained then (h.setQState q 0).putQueue { x with bellOff := false } else h
  | 6 => if drained then h.setQState q 1 else h
  | 4 => if x.runs.isEmpty then (h.setQState q 0).putQueue { x with bellOff := false } else h
  | _ => h

/-- A write of Q_CTL ENABLE = 0 (R87). -/
def Hw.queueDisable (h : Hw) (q : Nat) : Hw :=
  match h.qState q with
  | 1 | 2 => ((h.putQueue { h.queue q with drainTo := h.g (R.Q_TAIL_TAIL.at q) }).setQState q 3).queueSettle q
  | 6 => (h.setQState q 3).queueSettle q
  | _ => h

/-- Every fetched entry that has not ended ends with a code. -/
def endRuns (code : Nat) (rs : List EntryRun) : List EntryRun :=
  rs.map fun r => if r.ended then r else { r with ended := true, started := false, code := code }

/-- A write of Q_CTL ABORT = 1 (R89). -/
def Hw.queueAbort (h : Hw) (q : Nat) : Hw :=
  match h.qState q with
  | 0 | 4 => h
  | _ =>
    let x := h.queue q
    ((h.putQueue { x with runs := endRuns E.aborted x.runs }).setQState q 4).queueSettle q

/-- An abort of an engine's page: the fetched entries of its queues complete with ABORTED (R89, R102). -/
def Hw.abortEngine (h : Hw) (p : Nat) : Hw :=
  h.each (h.queueList.filter fun q => enginePage (h.qEngine q) == p) fun h q =>
    let x := h.queue q
    h.putQueue { x with runs := endRuns E.aborted x.runs }

/-! ### Doorbell and ring (R103, R105, R579) -/

/-- A write of Q_DOORBELL. In OFF the indices are those of R579. -/
def Hw.doorbell (h : Hw) (q tail : Nat) : Tried :=
  let t := tail % 65536
  let x := h.queue q
  match h.qState q with
  | 3 | 4 | 5 => .error E.badState
  | st =>
    let hd := if st = 0 then 0 else h.g (R.Q_HEAD_HEAD.at q)
    let last := if st = 0 ∧ !x.bellOff then 0 else h.g (R.Q_TAIL_TAIL.at q)
    let ahead := (t + 65536 - hd) % 65536
    if 2 ^ h.g (R.Q_CFG_SQ_LOG.at q) < ahead ∨ ahead < (last + 65536 - hd) % 65536 then .error E.badDoorbell
    else
      let h := h.s (R.Q_TAIL_TAIL.at q) t
      .ok (if st = 0 then
        (((h.s (R.Q_HEAD_HEAD.at q) 0).s (R.CQ_HEAD_HEAD.at q) 0).s (R.CQ_TAIL_TAIL.at q) 0).putQueue { x with bellOff := true }
      else h)

/-- A write of CQ_HEAD (R105). -/
def Hw.cqHead (h : Hw) (q head : Nat) : Tried :=
  let old := h.g (R.CQ_HEAD_HEAD.at q)
  if h.cqUsed q < (head % 65536 + 65536 - old) % 65536 then .error E.badDoorbell
  else .ok ((h.s (R.CQ_HEAD_HEAD.at q) head).setWait q)

/-! ### Entries (R104, R106, R107) -/

/-- Address of a slot of the submission ring. -/
def Hw.sqAddr (h : Hw) (q i : Nat) : Nat :=
  h.g64 (R.Q_BASE_LO_BASE.at q) (R.Q_BASE_HI_BASE.at q) + 64 * (i % 2 ^ h.g (R.Q_CFG_SQ_LOG.at q))

/-- The queue may fetch: its state, its engine page, ring space, entries before the tail, and no fetched entry before it that is
fenced or has not arrived (R102, R104, R105); while the engine's page drains, up to the tail where that began (R87). -/
def Hw.mayFetch (h : Hw) (q : Nat) : Bool :=
  let x := h.queue q
  let hd := h.g (R.Q_HEAD_HEAD.at q)
  let st := h.qState q
  let tail := if st = 3 ∨ st = 6 then x.drainTo else h.g (R.Q_TAIL_TAIL.at q)
  let pg := h.state (enginePage (h.qEngine q))
  let own := h.state (quePage q)
  (st == 2 || st == 3 || st == 6) && (own == 2 || own == 3 || own == 6) && (pg == 2 || ((pg == 3 || pg == 6) && hd != x.pageTo)) &&
    !h.cqFull q && hd != tail
    && x.runs.all (fun r => r.have_ && (r.ended || !bit (nth r.words 0) 32))

/-- Fetch the next entry: a DMA read of its 64 bytes (R104). -/
def Hw.fetchEntry (h : Hw) (q : Nat) : Hw :=
  if h.mayFetch q then
    let x := h.queue q
    let i := h.g (R.Q_HEAD_HEAD.at q)
    let h := h.putQueue { x with runs := x.runs ++ [⟨i, [], false, [], [], none, false, 0, false, false, 0, h.frc, 0⟩] }
    (h.s (R.Q_HEAD_HEAD.at q) (i + 1)).dmaRead (h.qCtx q) (h.sqAddr q i) 64 (.entry q i)
  else h.setWait q

/-- Change the run of entry `i` that has not ended. -/
def Hw.onRun (h : Hw) (q i : Nat) (f : EntryRun → EntryRun) : Hw :=
  let x := h.queue q
  h.putQueue { x with runs := x.runs.map fun r => if r.index = i ∧ !r.ended then f r else r }

/-- The command that a direct entry carries (R106). -/
def directDesc (ws : DescWords) : DescWords :=
  (nth ws 0 % 0x1000 + dw ws 0 48 14 * 65536) :: ws.drop 1

/-- A well-formed entry for engine `e` (R106). -/
def entryOk (e : Nat) (ws : DescWords) : Bool :=
  dw ws 0 8 4 == e && dw ws 0 12 4 == 0 && dw ws 0 35 13 == 0 &&
  (if bit (nth ws 0) 34 then
    1 ≤ dw ws 0 48 16 && dw ws 0 48 16 ≤ 4096 && nth ws 1 % 64 == 0 && (ws.drop 2).all (· == 0)
   else dw ws 0 62 2 == 0)

/-- The entry's 64 bytes have arrived. -/
def Hw.entryArrived (h : Hw) (q i : Nat) (bs : List Nat) : Hw :=
  let ws := wordsOf bs
  if !entryOk (h.qEngine q) ws then
    h.onRun q i fun r => { r with words := ws, have_ := true, ended := true, code := E.badDescriptor }
  else if bit (nth ws 0) 34 then
    let h := h.onRun q i fun r => { r with words := ws, have_ := true }
    h.dmaRead (h.qCtx q) (nth ws 1) (64 * dw ws 0 48 16) (.list q i)
  else h.onRun q i fun r => { r with words := ws, have_ := true, raw := bs, descs := [directDesc ws], listed := true }

/-- Every bit of a descriptor outside the given fields (word, low bit, width) is zero; word 0 [12:0] is the common part. -/
def reservedZero (d : DescWords) (fields : List (Nat × Nat × Nat)) : Bool :=
  (List.range 8).all fun i =>
    let m := ((fields.filter fun f => f.1 == i).map fun f => (2 ^ f.2.2 - 1) * 2 ^ f.2.1).foldl (· ||| ·) (if i = 0 then 0x1FFF else 0)
    nth d i - (nth d i &&& m) == 0

/-- A well-formed chain descriptor of engine `e`: its ENGINE, its reserved bits, a length of 1–4,096, and an address aligned as a list's is
(R106, R107). -/
def chainOk (e : Nat) (ws : DescWords) : Bool :=
  dw ws 0 8 4 == e && reservedZero ws [(0, 48, 16), (1, 0, 64)] && 1 ≤ dw ws 0 48 16 && dw ws 0 48 16 ≤ 4096 && nth ws 1 % 64 == 0

/-- Descriptors of a segment of engine `e` up to its end, LAST, or a chain descriptor: those that run, the bytes as fetched, and the chain
(R107). A malformed chain descriptor stands among those that run, and fails the entry when its turn comes; one with LAST set ends the list. -/
def readSegment (e : Nat) : Nat → List Nat → List DescWords × List Nat × Option (Nat × Nat)
  | 0, _ => ([], [], none)
  | n + 1, bs =>
    let b := bs.take 64
    if b.length < 64 then ([], [], none) else
    let ws := wordsOf b
    let last := bit (nth ws 0) 12
    if dw ws 0 0 8 = 0xFF then
      (if !chainOk e ws then ([ws], b, none) else ([], b, if last then none else some (nth ws 1, dw ws 0 48 16)))
    else if last then ([ws], b, none)
    else let r := readSegment e n (bs.drop 64); (ws :: r.1, b ++ r.2.1, r.2.2)

/-- A segment of a command list has arrived. A list beyond 65,536 descriptors fails before any of them runs, and one that holds no descriptor but
its chains ends at once (R107). DESIGN CHOICE: chain descriptors do not count, neither toward the limit nor in DONE (log entry 170). -/
def Hw.listArrived (h : Hw) (q i : Nat) (bs : List Nat) : Hw :=
  let sg := readSegment (h.qEngine q) (bs.length / 64) bs
  h.onRun q i fun r =>
    let ds := r.descs ++ sg.1
    if 65536 < ds.length then { r with ended := true, code := E.listTooLong }
    else { r with descs := ds, raw := r.raw ++ sg.2.1, chain := sg.2.2, listed := sg.2.2.isNone, ended := sg.2.2.isNone && ds.isEmpty }

/-- The chain descriptor of a queue's list continues it at the next segment (R107). -/
def Hw.chainList (h : Hw) (q : Nat) : Hw :=
  match (h.queue q).runs.find? fun r => !r.ended && r.chain.isSome with
  | none => h
  | some r => match r.chain with
    | none => h
    | some (a, n) => (h.onRun q r.index fun r => { r with chain := none }).dmaRead (h.qCtx q) a (64 * n) (.list q r.index)

/-! ### Descriptors (R516) -/

/-- The run whose descriptor holds the engine. -/
def Hw.started (h : Hw) (q : Nat) : Option EntryRun := (h.queue q).runs.find? fun r => r.started && !r.ended

/-- The descriptor of engine `e` with opcode `op` that queue `q` has started. -/
def Hw.current (h : Hw) (q e op : Nat) : Option DescWords :=
  match h.started q with
  | none => none
  | some r => match r.descs[r.next]? with
    | none => none
    | some d => if h.qEngine q = e ∧ dw d 0 0 8 = op then some d else none

/-- The started descriptor has taken effect. -/
def Hw.descDone (h : Hw) (q : Nat) : Hw :=
  match h.started q with
  | none => h
  | some r => h.onRun q r.index fun r =>
    { r with next := r.next + 1, started := false, ended := decide (r.descs.length ≤ r.next + 1) }

/-- The started descriptor fails the entry (R107). -/
def Hw.descFail (h : Hw) (q code : Nat) : Hw :=
  match h.started q with
  | none => h
  | some r => h.onRun q r.index fun r => { r with started := false, ended := true, code := code }

/-- A transfer of the started descriptor of queue `q` has no response yet. -/
def Hw.descBusy (h : Hw) (q : Nat) : Bool :=
  match h.started q with
  | none => false
  | some r => h.dma.any fun d => d.purpose == .payload q r.index || d.purpose == .result q r.index

/-- The engine's function stands still: its page is FAULTED (R90). -/
def Hw.stopped (h : Hw) (e : Nat) : Bool := h.state (enginePage e) == 5

/-- Run a meaning on the started descriptor of an engine and opcode, once, unless the engine's page is FAULTED (R90): reserved bits and the
engine code are checked first (R107). -/
def Hw.withDesc (h : Hw) (q e op : Nat) (fields : List (Nat × Nat × Nat)) (f : Hw → DescWords → Hw) : Hw :=
  match h.current q e op with
  | none => h
  | some d => if h.descBusy q || h.stopped e then h else if dw d 0 8 4 = e ∧ reservedZero d fields then f h d else h.descFail q E.badDescriptor

/-- The run of queue `q` whose next descriptor may start: the oldest that has not ended, whole and not started. DESIGN CHOICE: a FENCE entry
starts once the earlier entries have ended, their completions written or not (R104; log entry 171). -/
def Hw.readyRun (h : Hw) (q : Nat) : Option EntryRun :=
  match (h.queue q).runs.find? fun r => !r.ended with
  | none => none
  | some r => if r.have_ && r.listed && !r.started then some r else none

/-- Queues of a context bound to an engine that have a descriptor ready. -/
def Hw.readyQueues (h : Hw) (e c : Nat) : List Nat :=
  h.queueList.filter fun q => h.qEngine q == e && h.qCtx q == c && (h.readyRun q).isSome

/-- Descriptors that hold the engine now. -/
def Hw.engineBusy (h : Hw) (e : Nat) : Nat :=
  (h.queueList.filter fun q => h.qEngine q == e && (h.started q).isSome).length

/-- Lanes of an engine (R472). -/
def Hw.engineLanes (h : Hw) (e : Nat) : Nat := if e = 4 then h.prof.sel 1 2 4 else 1

/-- The pass of a context on an engine. -/
def Hw.pass (h : Hw) (e c : Nat) : Pass :=
  match h.passes.find? fun p => p.engine == e && p.ctx == c with
  | some p => p
  | none => ⟨c, e, 0, false, 63⟩

def Hw.putPass (h : Hw) (p : Pass) : Hw :=
  { h with passes := p :: h.passes.filter fun x => !(x.engine == p.engine && x.ctx == p.ctx) }

/-- The smallest pass of a list of contexts. -/
def Hw.minPass (h : Hw) (e : Nat) (cs : List Nat) : Option Nat :=
  cs.foldl (fun m c => match m with | none => some (h.pass e c).pass | some x => some (min x (h.pass e c).pass)) none

/-- Note who is ready: a context that was idle takes the larger of its pass and the smallest of those ready already (R516). -/
def Hw.noteReady (h : Hw) (e : Nat) : Hw :=
  let cs := List.range h.contexts
  let was := cs.filter fun c => (h.pass e c).ready && !(h.readyQueues e c).isEmpty
  let base := h.minPass e was
  h.each cs fun h c =>
    let r := !(h.readyQueues e c).isEmpty
    let p := h.pass e c
    if r && !p.ready then h.putPass { p with ready := true, pass := max p.pass (base.getD 0) }
    else if p.ready && !r then h.putPass { p with ready := false } else h

/-- The next queue in turn after `last`, in ascending number (R516). -/
def nextInTurn (last : Nat) (qs : List Nat) : Option Nat :=
  match qs.find? fun q => last < q with
  | some q => some q
  | none => qs.head?

/-- The context with the smallest pass (ties to the lowest number), its next queue in turn, and the run whose descriptor starts (R516). -/
def Hw.pickNext (h : Hw) (e : Nat) : Option (Nat × Nat × EntryRun) :=
  let cs := (List.range h.contexts).filter fun c => !(h.readyQueues e c).isEmpty
  match cs.find? fun c => some (h.pass e c).pass == h.minPass e cs with
  | none => none
  | some c =>
    match nextInTurn (h.pass e c).lastQ (h.readyQueues e c) with
    | none => none
    | some q => (h.readyRun q).map fun r => (c, q, r)

/-- A context switch of an engine counts (R516). -/
def Hw.noteCtx (h : Hw) (e c : Nat) : Hw :=
  let h := match h.lastCtx.find? fun x => x.1 == e with
    | some x => if x.2 = c then h else h.inc R.CTX_SWITCHES_COUNT
    | none => h
  { h with lastCtx := (e, c) :: h.lastCtx.filter fun x => x.1 != e }

/-! ### Operand regions and the nominal duration of PROJECT (R216, R237, R513) -/

/-- Operand buffer (KiB). -/
def Hw.opbKib (h : Hw) : Nat := h.prof.sel 1024 8192 32768

/-- The absolute address of an operand of `len` bytes at offset `off` of a context's region; none beyond it. -/
def Hw.opbAddr (h : Hw) (c off len : Nat) : Option Nat :=
  if off + len ≤ 1024 * h.g (R.CTX_OPB_KIB.at c) then some (1024 * h.g (R.CTX_OPB_BASE.at c) + off) else none

/-- Bytes of the operand buffer. -/
def Hw.opbRead (h : Hw) (a n : Nat) : List Nat := Memory.readBytes h.gar.opb a n

/-- The bytes of a packed operand at offset `off` of a context's region, to the region's end or as many as `need` raw bytes can take. -/
def Hw.packedBytes (h : Hw) (c off need : Nat) : List Nat :=
  h.opbRead (1024 * h.g (R.CTX_OPB_BASE.at c) + off) (min (1024 * h.g (R.CTX_OPB_KIB.at c) - off) (2 * need + 8192))

/-- The nominal duration of a PROJECT descriptor of context `c`, with its stall cycles (R216, R239). -/
def Hw.projectCycles (h : Hw) (c : Nat) (d : DescWords) : Nat :=
  let f := dw d 0 26 3
  let count := dw d 2 0 32
  let need := fmtBytes f count
  let k := 2 ^ h.g (R.ACC_STAT_K_LOG.at (dw d 0 16 10))
  let fold := max 1 (256 / k)
  let cmd := max 1 (h.g R.GAR_STAT_CMD)
  let segs := ceilDiv (dw d 1 0 64 % 256 + count) 256
  let array := fmtPasses f * ceilDiv (segs * max 1 (k / 256)) (fold * cmd) + 64
  let heads := if bit (nth d 0) 29 then (unpack (ceilDiv need 4096 + 1) (h.packedBytes c (dw d 2 32 32) need) need).heads else []
  let cycles := if bit (nth d 0) 29 then total (heads.map fun b => if b.kind = 0 then 13 else 52) else 13 * ceilDiv need 4096
  max array (ceilDiv cycles (h.prof.sel 2 8 32)) + total (heads.map stallOf)

/-- What a descriptor is charged (R517): a PROJECT its nominal duration, any other what the command says (log entry 106). -/
def Hw.chargeOf (h : Hw) (e c charge : Nat) (d : Option DescWords) : Nat :=
  match d with
  | some d => if e = 1 ∧ dw d 0 0 8 = 0x03 then h.projectCycles c d else charge
  | none => charge

/-- Start a descriptor of context `c`, queue `q`: the context is charged (R517), and a foreign opcode fails the entry. -/
def Hw.startOne (h : Hw) (e charge0 c q : Nat) (r : EntryRun) : Hw :=
  let charge := h.chargeOf e c charge0 r.descs[r.next]?
  let w := max 1 (h.g (R.CTX_CFG_WEIGHT.at c))
  let h := h.putPass { h.pass e c with pass := ((h.pass e c).pass + ceilDiv (charge * 256) w) % 2 ^ 64, lastQ := q }
  let h := (h.add64 (R.CTX_BUSY_LO_CYCLES.at c) (R.CTX_BUSY_HI_CYCLES.at c) charge).noteCtx e c
  let h := h.onRun q r.index fun r => { r with started := true }
  match r.descs[r.next]? with
  | some d => if opcodeOk e (dw d 0 0 8) then h else h.descFail q E.badDescriptor
  | none => h.descFail q E.badDescriptor

/-- Start the next descriptor of an engine; `charge` is what R517 charges it. -/
def Hw.startDesc (h : Hw) (e charge : Nat) : Hw :=
  let pg := h.state (enginePage e)
  if !((pg == 2 || pg == 3 || pg == 6) && h.engineBusy e < h.engineLanes e) then h else
  let h := h.noteReady e
  match h.pickNext e with
  | some (c, q, r) => h.startOne e charge c q r
  | none => h

/-! ### Completions (R109, R110) -/

/-- Raise the queue's interrupt (R110). -/
def Hw.queueIrq (h : Hw) (q : Nat) : Hw :=
  let h := (h.setBits (R.QUE_IRQ_PEND_PEND.at (q / 32)) (2 ^ (q % 32))).raise (quePage q) 16
  h.putQueue { h.queue q with irqCount := 0 }

/-- Count an IRQ-flagged completion toward Q_COAL COUNT (R110). -/
def Hw.countIrq (h : Hw) (q : Nat) : Hw :=
  let x := h.queue q
  let h := h.putQueue { x with irqCount := x.irqCount + 1, irqFirst := if x.irqCount = 0 then h.frc else x.irqFirst }
  if h.g (R.Q_COAL_COUNT.at q) ≤ x.irqCount + 1 then h.queueIrq q else h

/-- Q_COAL TIME after the first pending completion (R110). -/
def Hw.coalTimeout (h : Hw) (q : Nat) : Hw :=
  let x := h.queue q
  let t := h.g (R.Q_COAL_TIME.at q)
  if 0 < x.irqCount ∧ t ≠ 0 ∧ x.irqFirst + t * 1000 ≤ h.frc then h.queueIrq q else h

/-- The 16 bytes of a completion (R109). An entry that ends before its 64 bytes have arrived has shown neither TAG nor IRQ: its TAG reads 0, and it
does not count toward Q_COAL COUNT (DESIGN CHOICE, log entry 18). -/
def Hw.completion (h : Hw) (q : Nat) (r : EntryRun) : List Nat :=
  let phase := 1 - h.g (R.CQ_TAIL_TAIL.at q) / 2 ^ h.g (R.Q_CFG_CQ_LOG.at q) % 2
  let w0 := dw r.words 0 16 16 + q * 2 ^ 16 + h.qEngine q * 2 ^ 22 + phase * 2 ^ 26 + b2n (r.code != 0) * 2 ^ 27
    + r.code * 2 ^ 32 + min (r.next + r.extra) 0xFFFF * 2 ^ 48
  le 8 w0 ++ le 8 (h.frc % 2 ^ 64)

/-- The oldest fetched entry has ended and the ring has a free slot: its completion is written (R104, R105, R109). -/
def Hw.completeEntry (h : Hw) (q : Nat) : Hw :=
  let x := h.queue q
  match x.runs with
  | [] => h.queueSettle q
  | r :: rest =>
    if !r.ended || h.cqFull q then h.setWait q else
    let t := h.g (R.CQ_TAIL_TAIL.at q)
    let a := h.g64 (R.CQ_BASE_LO_BASE.at q) (R.CQ_BASE_HI_BASE.at q) + 16 * (t % 2 ^ h.g (R.Q_CFG_CQ_LOG.at q))
    let bs := h.completion q r
    let h := (h.putQueue { x with runs := rest }).dmaWrite (h.qCtx q) a bs (.completion q)
    let h := (h.s (R.CQ_TAIL_TAIL.at q) (t + 1)).setBits (R.QUE_DB_SUM_PEND.at (q / 32)) (2 ^ (q % 32))
    let h := if r.code = 0 then h else (h.s (R.Q_STATE_ERR.at q) r.code).inc (R.Q_ERRCNT_COUNT.at q)
    let h := if bit (nth r.words 0) 33 then h.countIrq q else h
    (h.setWait q).queueSettle q

/-! ### Meanings -/

/-- QUEUE_ENABLE (R102, R579). -/
def execQueueEnable (a : Acc) (q : Nat) (s : State) : Result :=
  s.go fun h => h.queueAccess a q 0x40C true fun h => h.queueEnable q

/-- QUEUE_START_COMPLETE (R579). -/
def execQueueStartComplete (q : Nat) (s : State) : Result :=
  s.go fun h => if h.qState q = 1 then (h.setQState q 2).setWait q else h

/-- QUEUE_DISABLE (R87). -/
def execQueueDisable (a : Acc) (q : Nat) (s : State) : Result :=
  s.go fun h => h.queueAccess a q 0x40C true fun h => .ok (h.queueDisable q)

/-- QUEUE_ABORT (R89). -/
def execQueueAbort (a : Acc) (q : Nat) (s : State) : Result :=
  s.go fun h => h.queueAccess a q 0x40C true fun h => .ok (h.queueAbort q)

/-- QUEUE_DOORBELL (R103). -/
def execQueueDoorbell (a : Acc) (q tail : Nat) (s : State) : Result :=
  s.go fun h => h.queueAccess a q 0x418 true fun h => h.doorbell q tail

/-- CQ_HEAD_WRITE (R105). -/
def execCqHeadWrite (a : Acc) (q head : Nat) (s : State) : Result :=
  s.go fun h => h.queueAccess a q 0x428 true fun h => h.cqHead q head

/-- QUEUE_ENTRY_FETCH (R104). -/
def execQueueEntryFetch (q : Nat) (s : State) : Result := s.go fun h => h.fetchEntry q

/-- DESCRIPTOR_START (R516). -/
def execDescriptorStart (engine charge : Nat) (s : State) : Result := s.go fun h => h.startDesc engine charge

/-- LIST_CHAIN (R107). -/
def execListChain (q : Nat) (s : State) : Result := s.go fun h => h.chainList q

/-- QUEUE_ENTRY_COMPLETE (R109). -/
def execQueueEntryComplete (q : Nat) (s : State) : Result := s.go fun h => h.completeEntry q

/-- QUEUE_COAL_TIMEOUT (R110). -/
def execQueueCoalTimeout (q : Nat) (s : State) : Result := s.go fun h => h.coalTimeout q

/-- The bits of QUE_DB_SUM or QUE_IRQ_PEND that a requester sees: a tenant its own queues' (R510). -/
def Hw.ownBits (h : Hw) (a : Acc) (i v : Nat) : Nat :=
  if a.oper then v else
  total ((List.range 32).map fun j => if bit v j && h.qCtx (32 * i + j) == a.ctx then 2 ^ j else 0)

/-- QUE_DB_SUM_READ (R101, R510): returns the bits that the requester sees and clears them. -/
def execQueDbSumRead (a : Acc) (page : Nat) (s : State) : Result :=
  s.go fun h => h.access a (2 + page % 2) 0x40 true fun h =>
    let f := R.QUE_DB_SUM_PEND.at (page % 2)
    let v := h.ownBits a (page % 2) (h.g f)
    (h.dropBits f v).reply v

/-- QUE_IRQ_PEND_CLEAR (R110, R510). -/
def execQueIrqPendClear (a : Acc) (page bits : Nat) (s : State) : Result :=
  s.go fun h => h.access a (2 + page % 2) 0x44 true fun h =>
    (h.clrBits (R.QUE_IRQ_PEND_PEND.at (page % 2)) (h.ownBits a (page % 2) (bits % 2 ^ 32))).accepted (2 + page % 2)

/-- QUE_COMPLETION_CLEAR (R110): no effect while any bit of QUE_IRQ_PEND is set. -/
def execQueCompletionClear (a : Acc) (page : Nat) (s : State) : Result :=
  s.go fun h => h.access a (2 + page % 2) 0x14 false fun h =>
    if h.g (R.QUE_IRQ_PEND_PEND.at (page % 2)) = 0 then h.clrBits (R.PAGE_IRQ_STAT_FUNC_IRQ (2 + page % 2)) 1 else h

end Sys2Proof.Machine
end

