-- ==== Sys2Proof/Machine/Garnet.lean ====
section
/-!
DEFINITION. Machine/Garnet.lean: sketch accounts (R226–R229), SKETCH and DIGEST records (R248, R274), the descriptors of the sketch, dense-layer
and digest engines (R237–R242, R246, R247, R271–R273), macros and their retirement (R215, R243–R245).
-/
namespace Sys2Proof.Machine

/-! ### Accounts -/

/-- Accounts of the profile (R226). -/
def Hw.accountCount (h : Hw) : Nat := h.prof.sel 64 256 1024

/-- K_LOG is one of the profile's widths (R226). -/
def Hw.kLogOk (h : Hw) (k : Nat) : Bool := 6 ≤ k && k ≤ h.prof.sel 6 8 10

/-- What an account holds. -/
def Hw.account (h : Hw) (n : Nat) : Account :=
  match h.gar.accounts.find? fun a => a.num == n with
  | some a => a
  | none => ⟨n, [], 0xFF, 0, 0, false, false, 0⟩

def Hw.putAccount (h : Hw) (a : Account) : Hw :=
  { h with gar := { h.gar with accounts := a :: h.gar.accounts.filter fun x => x.num != a.num } }

/-- The account is open. -/
def Hw.accOpen (h : Hw) (n : Nat) : Bool := h.on (R.ACC_STAT_OPEN.at n)

/-- Open an account: its parameters, zero accumulators and counts, its flags clear (R226). -/
def Hw.openAccount (h : Hw) (n ctx origin kLog eRef seed window tag : Nat) : Hw :=
  let h := ((h.s (R.ACC_STAT_OPEN.at n) 1).s (R.ACC_STAT_SAT.at n) 0).s (R.ACC_STAT_INCOMPLETE.at n) 0
  let h := ((h.s (R.ACC_STAT_NONFINITE.at n) 0).s (R.ACC_STAT_SUSPECT.at n) 0).s (R.ACC_STAT_ORIGIN.at n) origin
  let h := ((h.s (R.ACC_STAT_K_LOG.at n) kLog).s (R.ACC_STAT_CTX.at n) ctx).s (R.ACC_PARAM_E_REF.at n) eRef
  let h := (h.s64 (R.ACC_SEED_LO_SEED.at n) (R.ACC_SEED_HI_SEED.at n) seed).s64 (R.ACC_ELEMS_LO_ELEMS.at n)
    (R.ACC_ELEMS_HI_ELEMS.at n) 0
  let h := (h.s (R.ACC_TENSORS_COUNT.at n) 0).s (R.ACC_NONFIN_COUNT.at n) 0
  let h := { h with gar := { h.gar with fed := h.gar.fed.filter fun x => x.2 != n } }
  h.putAccount ⟨n, List.replicate (2 ^ kLog) 0, window, tag, h.frc, false, false, 0⟩

/-- Some account of the part holds SAT (R228). -/
def Hw.satHeld (h : Hw) : Bool :=
  h.gar.accounts.any fun a => h.accOpen a.num && h.on (R.ACC_STAT_SAT.at a.num)

/-- SAT becomes set: GAR_SAT, SATURATED, and the condition record where no account holds SAT (R228). -/
def Hw.saturate (h : Hw) (n : Nat) : Hw :=
  if h.on (R.ACC_STAT_SAT.at n) then h else
  let first := !h.satHeld
  let h := ((h.s (R.ACC_STAT_SAT.at n) 1).inc R.GAR_SAT_COUNT).raise 0x10 17
  if first then h.breach 4 5 0 else h

/-- The pair of the integer-identity record, once no open account and no clamped partial holds the suspension (R228). -/
def Hw.satSettle (h : Hw) : Hw := if h.satHeld || (h.red.rounds.any fun r => r.clamped && !r.sent) then h else h.restore 4 5

/-- INCOMPLETE becomes set (R235). -/
def Hw.incomplete (h : Hw) (n : Nat) : Hw :=
  if h.on (R.ACC_STAT_INCOMPLETE.at n) then h else
  ((h.s (R.ACC_STAT_INCOMPLETE.at n) 1).inc R.GAR_INC_COUNT).raise 0x10 16

/-- Add one contribution (R227, R228): the new accumulator, and whether it clamped. -/
def addContribution (acc b d : Int) : Int × Bool :=
  let c := sat96 (shiftRne b d)
  let v := sat96 (acc + c.1)
  (v.1, c.2 || v.2)

/-- Add one block of values, the first at element `g`, to accumulators (R220–R227). -/
def addBlock (fmt k seed : Nat) (eRef : Int) (acc : List Int) (g : Nat) (vs : List (Option Bin)) : List Int × Bool :=
  match blockExp vs with
  | none => (acc, false)
  | some eb =>
    let lam := blockScale fmt eb
    let as := vs.map (alignVal fmt lam)
    let rs := (List.range k).map fun i => addContribution (acc.getD i 0) (blockSum k seed g as i) (lam - eRef)
    (rs.map (·.1), rs.any (·.2))

/-- Add the blocks of a run of values, the first at element `g`, a multiple of 32 (R219). -/
def addBlocks (fmt k seed : Nat) (eRef : Int) : Nat → List Int → Nat → List (Option Bin) → List Int × Bool
  | 0, acc, _, _ => (acc, false)
  | n + 1, acc, g, vs =>
    if vs.isEmpty then (acc, false) else
    let r := addBlock fmt k seed eRef acc g (vs.take 32)
    let t := addBlocks fmt k seed eRef n r.1 (g + 32) (vs.drop 32)
    (t.1, r.2 || t.2)

/-- Feed values to an open account. -/
def Hw.feed (h : Hw) (n fmt g : Nat) (vs : List (Option Bin)) : Hw :=
  let a := h.account n
  let k := 2 ^ h.g (R.ACC_STAT_K_LOG.at n)
  let seed := h.g64 (R.ACC_SEED_LO_SEED.at n) (R.ACC_SEED_HI_SEED.at n)
  let eRef := signed 16 (h.g (R.ACC_PARAM_E_REF.at n))
  let r := addBlocks fmt k seed eRef (vs.length / 32 + 1) a.acc g vs
  let bad := (vs.filter (·.isNone)).length
  let h := h.putAccount { a with acc := r.1, fedFrc := h.frc }
  let h := h.add64 (R.ACC_ELEMS_LO_ELEMS.at n) (R.ACC_ELEMS_HI_ELEMS.at n) vs.length
  let h := if bad = 0 then h else
    ((h.add (R.ACC_NONFIN_COUNT.at n) bad).s (R.ACC_STAT_NONFINITE.at n) 1).add R.GAR_NONFIN_COUNT bad
  if r.2 then h.saturate n else h

/-! ### SKETCH and DIGEST records -/

/-- AFLAGS (R248) but LAST. -/
def Hw.aflags (h : Hw) (a : Account) : Nat :=
  let n := a.num
  h.g (R.ACC_STAT_SAT.at n) + 2 * h.g (R.ACC_STAT_INCOMPLETE.at n) + 4 * h.g (R.ACC_STAT_NONFINITE.at n)
    + 8 * h.g (R.ACC_STAT_SUSPECT.at n) + 16 * b2n a.stall + 32 * b2n a.swap + 64 * h.g (R.ACC_STAT_ORIGIN.at n)

/-- Closes of an account since RUNNING (R248). -/
def Hw.closeNo (h : Hw) (n : Nat) : Nat := ((h.gar.closes.find? fun x => x.1 == n).map fun x => x.2).getD 0

/-- One SKETCH payload (R248): accumulators `first` to `first + count − 1`, the account closing at FRC `frc`. -/
def Hw.sketchPart (h : Hw) (a : Account) (frc first count : Nat) (last : Bool) : List Nat :=
  let n := a.num
  le 4 (h.closeNo n) ++ le 2 (2 ^ h.g (R.ACC_STAT_K_LOG.at n)) ++ le 2 first ++ le 2 count
    ++ le 2 (h.g (R.ACC_PARAM_E_REF.at n)) ++ [h.aflags a + 128 * b2n last, a.window] ++ le 2 a.tag
    ++ le 8 (h.g64 (R.ACC_SEED_LO_SEED.at n) (R.ACC_SEED_HI_SEED.at n))
    ++ le 8 (h.g64 (R.ACC_ELEMS_LO_ELEMS.at n) (R.ACC_ELEMS_HI_ELEMS.at n)) ++ le 4 (h.g (R.ACC_TENSORS_COUNT.at n))
    ++ le 4 (h.g (R.ACC_NONFIN_COUNT.at n)) ++ le 8 (frc - a.openFrc)
    ++ ((a.acc.drop first).take count).flatMap fun v => le 12 (unsigned 96 v)

/-- The SKETCH payloads of an account: at most 336 accumulators each. -/
def Hw.sketchParts (h : Hw) (a : Account) (frc : Nat) : List (List Nat) :=
  let k := a.acc.length
  (List.range (ceilDiv k 336)).map fun i => h.sketchPart a frc (336 * i) (min 336 (k - 336 * i)) (decide (k ≤ 336 * (i + 1)))

/-- Local source of an account's stream (R248). -/
def Hw.accountLocal (h : Hw) (n : Nat) : Nat := (match h.prof with | .l => 0x0400 | _ => 0x1400) + n

/-- Emit the SKETCH records of an account that closes at `st`. -/
def Hw.emitSketch (h : Hw) (n : Nat) (st : Stamp) : Hw :=
  let a := h.account n
  h.handOver (contFlags ((h.sketchParts a st.frc).map fun p => h.mkRec 0x20 4 (h.accountLocal n) h.ownGrade st p))

/-- Close an account: its registers show the close (R251), the closes count, CLOSED is raised; `emit` decides the records. -/
def Hw.closeAccount (h : Hw) (n : Nat) (emit : Bool) (st : Stamp) : Hw :=
  if !h.accOpen n then h else
  let h := if emit then h.emitSketch n st else h
  let h := { h with gar := { h.gar with closes := (n, h.closeNo n + 1) :: h.gar.closes.filter fun x => x.1 != n } }
  ((h.s (R.ACC_STAT_OPEN.at n) 0).inc (R.ACC_PARAM_CLOSES.at n)).raise 0x10 21 |>.satSettle

/-- Discard an open account without records (R247, R514). -/
def Hw.discardAccount (h : Hw) (n : Nat) : Hw := (h.s (R.ACC_STAT_OPEN.at n) 0).satSettle

/-- A DIGEST payload (R274). -/
def digestPayload (kind flags tag fmt where_ count : Nat) (dig : List Nat) : List Nat :=
  [kind, flags] ++ le 2 tag ++ [fmt, 0, 0, 0] ++ le 8 where_ ++ le 8 count ++ fit 32 dig

/-- Local source of the digest stream (R274). -/
def Hw.digestLocal (h : Hw) : Nat := match h.prof with | .l => 0x0800 | _ => 0x1001

/-- Emit a DIGEST record. -/
def Hw.emitDigest (h : Hw) (kind flags tag fmt where_ count : Nat) (dig : List Nat) (st : Stamp) : Hw :=
  let h := h.inc R.DIG_TENSORS_COUNT
  let h := if bit flags 0 then h.inc R.DIG_INC_COUNT else h
  h.handOver [h.mkRec 0x21 4 h.digestLocal h.ownGrade st (digestPayload kind flags tag fmt where_ count dig)]

/-! ### Operand buffer and regions (R237, R513) -/

/-- Write bytes of the operand buffer. -/
def Hw.opbWrite (h : Hw) (a : Nat) (bs : List Nat) : Hw :=
  { h with gar := { h.gar with opb := Memory.writeBytes h.gar.opb a bs } }

/-! ### The sluice (R238, R239) -/

/-- Book the blocks of one packed operand in the SLU page. -/
def Hw.bookSluice (h : Hw) (bs : List PackHead) : Hw :=
  let packed := bs.filter fun b => b.kind == 1
  let h := (h.add R.SLU_RAW_COUNT (bs.length - packed.length)).add R.SLU_PACKED_COUNT packed.length
  let h := h.each packed fun h b => if h.g R.SLU_WORST_D < sluiceD b.plen then h.s R.SLU_WORST_D (sluiceD b.plen) else h
  let st := bs.filter fun b => stallOf b != 0
  if st.isEmpty then h else
  ((h.add64 R.SLU_STALL_LO_CYCLES R.SLU_STALL_HI_CYCLES (total (st.map stallOf))).add R.SLU_STALL_BLK_COUNT st.length).raise
    0x14 16 |>.err 0x14 E.feedStall

/-- The raw bytes of an operand at offset `off` of a context's region, or why the entry fails (R237, R238, R581). -/
def Hw.operand (h : Hw) (c off need : Nat) (packed : Bool) : Hw × Except Nat (List Nat) :=
  if !packed then
    match h.opbAddr c off need with
    | some a => (h, .ok (h.opbRead a need))
    | none => (h, .error E.badDescriptor)
  else if !h.running 0x14 then (h, .error E.badState)
  else
    match h.opbAddr c off 16 with
    | none => (h, .error E.badDescriptor)
    | some _ =>
      let b := h.packedBytes c off need
      let u := unpack (ceilDiv need 4096 + 1) b need
      let h := h.bookSluice u.heads
      if u.ok then (h, .ok (u.raw.take need))
      else if runsPast (ceilDiv need 4096 + 1) b need then (h, .error E.badDescriptor)
      else (h.inc R.SLU_MALFORMED_COUNT, .error E.badDescriptor)

/-! ### Sketch engine descriptors (R246, R247) -/

/-- OPEN. -/
def Hw.descOpen (h : Hw) (q : Nat) (d : DescWords) : Hw :=
  let n := dw d 0 16 10
  let k := dw d 0 26 4
  if !h.kLogOk k || h.accountCount ≤ n then h.descFail q E.badDescriptor
  else if h.accOpen n then h.descFail q E.badState
  else (h.openAccount n (h.qCtx q) 1 k (dw d 2 0 16) (nth d 1) 0xFF 0).descDone q

/-- The account was opened by command by the queue's context. -/
def Hw.ownAccount (h : Hw) (q n : Nat) : Bool :=
  h.accOpen n && h.on (R.ACC_STAT_ORIGIN.at n) && h.g (R.ACC_STAT_CTX.at n) == h.qCtx q

/-- LOAD: a DMA read whose data goes to the operand buffer. -/
def Hw.descLoad (h : Hw) (q : Nat) (d : DescWords) : Hw :=
  let n := dw d 2 0 32
  let off := dw d 2 32 32
  match h.opbAddr (h.qCtx q) off n with
  | none => h.descFail q E.badDescriptor
  | some _ =>
    if n = 0 ∨ off % 64 ≠ 0 then h.descFail q E.badDescriptor
    else match h.started q with
      | some r => h.dmaRead (h.qCtx q) (nth d 1) n (.payload q r.index)
      | none => h

/-- The data of a LOAD has arrived. -/
def Hw.loadArrived (h : Hw) (q : Nat) (d : DescWords) (bs : List Nat) : Hw :=
  match h.opbAddr (h.qCtx q) (dw d 2 32 32) bs.length with
  | none => h.descFail q E.badDescriptor
  | some a => (h.opbWrite a bs).descDone q

/-- PROJECT (R227): sketches COUNT values of an operand into the account. -/
def Hw.descProject (h : Hw) (q : Nat) (d : DescWords) : Hw :=
  let n := dw d 0 16 10
  let f := dw d 0 26 3
  let c := dw d 2 0 32
  if 5 < f ∨ h.accountCount ≤ n ∨ c = 0 ∨ nth d 1 % 32 ≠ 0 then h.descFail q E.badDescriptor
  else if !h.ownAccount q n then h.descFail q E.badState
  else
    let r := h.operand (h.qCtx q) (dw d 2 32 32) (fmtBytes f c) (bit (nth d 0) 29)
    match r.2 with
    | .error e => r.1.descFail q e
    | .ok bs => ((r.1.feed n f (nth d 1) ((fmtVals f bs).take c)).inc (R.ACC_TENSORS_COUNT.at n)).descDone q

/-- CLOSE (R247, R248). -/
def Hw.descClose (h : Hw) (q : Nat) (d : DescWords) : Hw :=
  let n := dw d 0 16 10
  let dst := dw d 0 26 2
  if dst = 3 ∨ h.accountCount ≤ n ∨ (dst ≠ 0 ∧ nth d 1 % 64 ≠ 0) then h.descFail q E.badDescriptor
  else if !h.ownAccount q n then h.descFail q E.badState
  else
    let a := h.account n
    let bs := h.sketchPart a h.frc 0 a.acc.length true
    let h := h.closeAccount n (dst != 1) h.stampOwn
    if dst = 0 then h.descDone q
    else match h.started q with
      | some r => h.dmaWrite (h.qCtx q) (nth d 1) bs (.payload q r.index)
      | none => h

/-! ### Dense-layer engine descriptors (R241, R242) -/

/-- Bytes of a dense page image. -/
def densePageBytes : Nat := 16384

/-- Dense pages in service (R242). -/
def Hw.densePages (h : Hw) : Nat := 4 * h.g R.GAR_DENSE_DENSE

/-- Pages `first` to `first + n − 1` in the context's range (R513). -/
def Hw.denseOwn (h : Hw) (c first n : Nat) : Bool :=
  h.g (R.CTX_DENSE_FIRST.at c) ≤ first && first + n ≤ h.g (R.CTX_DENSE_FIRST.at c) + h.g (R.CTX_DENSE_COUNT.at c)

/-- The weight at row `r`, column `c` of dense page `p` (R242). -/
def Hw.denseWeight (h : Hw) (p r c : Nat) : Int :=
  match h.gar.dense.find? fun x => x.1 == p with
  | none => 0
  | some x => match bits (nth x.2 (64 * r + c / 4)) (2 * (c % 4)) 2 with
    | 1 => 1
    | 3 => -1
    | _ => 0

/-- A page image without the invalid code 0b10 (R242). -/
def denseValid (bs : List Nat) : Bool :=
  bs.length == densePageBytes && bs.all fun b => (List.range 4).all fun i => bits b (2 * i) 2 != 2

/-- Set a dense page. -/
def Hw.putDense (h : Hw) (p : Nat) (img : List Nat) : Hw :=
  { h with gar := { h.gar with dense := (p, img) :: h.gar.dense.filter fun x => x.1 != p } }

/-- WLOAD: a DMA read of the page images. -/
def Hw.descWload (h : Hw) (q : Nat) (d : DescWords) : Hw :=
  let first := dw d 2 0 16
  let n := dw d 2 16 16
  if n = 0 then h.descFail q E.badDescriptor
  else if !h.denseOwn (h.qCtx q) first n then h.descFail q E.accessDenied
  else if h.densePages < first + n then h.descFail q E.badDescriptor
  else match h.started q with
    | some r => h.dmaRead (h.qCtx q) (nth d 1) (n * densePageBytes) (.payload q r.index)
    | none => h

/-- Write the page images in order up to the first that is not valid. -/
def Hw.writePages (h : Hw) (q : Nat) : Nat → Nat → List Nat → Hw
  | 0, _, _ => h.descDone q
  | n + 1, p, bs =>
    let img := bs.take densePageBytes
    if denseValid img then (h.putDense p img).writePages q n (p + 1) (bs.drop densePageBytes)
    else h.descFail q E.modelInvalid

/-- The data of a WLOAD has arrived. -/
def Hw.wloadArrived (h : Hw) (q : Nat) (d : DescWords) (bs : List Nat) : Hw :=
  h.writePages q (dw d 2 16 16) (dw d 2 0 16) bs

/-- acc_o of R241 for inputs `xs`. -/
def Hw.layerSum (h : Hw) (first nOut : Nat) (xs : List Int) (o : Nat) : Int :=
  let tiles := ceilDiv nOut 256
  ((List.range xs.length).map fun i =>
    h.denseWeight (first + i / 256 * tiles + o / 256) (i % 256) (o % 256) * xs.getD i 0).foldl (· + ·) 0

/-- The two output forms of R241. -/
def layerOut (out32 : Bool) (mult : Int) (shift : Nat) (lo hi acc bias : Int) : Int :=
  if out32 then (clampTo (-(2 ^ 31)) (2 ^ 31 - 1) (acc + bias)).1
  else (clampTo lo hi (shiftRne ((acc + bias) * mult) (-(shift : Int)))).1

/-- LAYER (R241). -/
def Hw.descLayer (h : Hw) (q : Nat) (d : DescWords) : Hw :=
  let c := h.qCtx q
  let in8 := bit (nth d 0) 16
  let out32 := bit (nth d 0) 17
  let nIn := dw d 2 0 16
  let nOut := dw d 2 16 16
  let first := dw d 2 32 16
  let lo := signed 4 (dw d 4 24 4)
  let hi := signed 4 (dw d 4 28 4)
  let pages := ceilDiv nIn 256 * ceilDiv nOut 256
  let outBytes := if out32 then 4 * nOut else ceilDiv nOut 2
  if nIn = 0 ∨ 4096 < nIn ∨ nOut = 0 ∨ 4096 < nOut ∨ hi < lo then h.descFail q E.badDescriptor
  else if !h.denseOwn c first pages then h.descFail q E.accessDenied
  else if h.densePages < first + pages then h.descFail q E.badDescriptor
  else match h.opbAddr c (dw d 3 0 32) (4 * nOut), h.opbAddr c (dw d 1 32 32) outBytes with
    | some ba, some oa =>
      let f := if in8 then 1 else 0
      let r := h.operand c (dw d 1 0 32) (fmtBytes f nIn) (bit (nth d 0) 29)
      match r.2 with
      | .error e => r.1.descFail q e
      | .ok bs =>
        let h := r.1
        let xs := ((fmtVals f bs).take nIn).map (alignVal f 0)
        let bias := h.opbRead ba (4 * nOut)
        let ys := (List.range nOut).map fun o =>
          layerOut out32 (signed 16 (dw d 4 0 16)) (dw d 4 16 5) lo hi (h.layerSum first nOut xs o) (signed 32 (fld bias (4 * o) 4))
        let out := if out32 then ys.flatMap fun y => le 4 (unsigned 32 y) else nibbles (ys.map (unsigned 4))
        let tag := match h.started q with | some r => dw r.words 0 16 16 | none => 0
        let used := (List.range pages).map fun i => h.gar.denseOrder.getD ((first + i) / 4) 0
        let h := { h with gar := { h.gar with layerUse := h.gar.layerUse ++ used.eraseDups.map fun m => (m, h.ns, q, tag) } }
        (h.opbWrite oa out).descDone q
    | _, _ => h.descFail q E.badDescriptor

/-- STORE: a DMA write of operand-buffer bytes. -/
def Hw.descStore (h : Hw) (q : Nat) (d : DescWords) : Hw :=
  let n := dw d 2 0 32
  match h.opbAddr (h.qCtx q) (dw d 2 32 32) n, h.started q with
  | some a, some r =>
    if n = 0 then h.descFail q E.badDescriptor
    else h.dmaWrite (h.qCtx q) (nth d 1) (h.opbRead a n) (.payload q r.index)
  | none, _ => h.descFail q E.badDescriptor
  | _, none => h

/-! ### Digest engine (R271–R273) -/

/-- HASH: a DMA read of the range. -/
def Hw.descHash (h : Hw) (q : Nat) (d : DescWords) : Hw :=
  let dst := dw d 0 16 2
  if dst = 3 ∨ dw d 2 0 40 = 0 ∨ (dst ≠ 0 ∧ nth d 3 % 32 ≠ 0) then h.descFail q E.badDescriptor
  else match h.started q with
    | some r => h.dmaRead (h.qCtx q) (nth d 1) (dw d 2 0 40) (.payload q r.index)
    | none => h

/-- The range of a HASH has arrived: the record at the descriptor's completion, the 32 bytes written, or both, the record then at the write
response. -/
def Hw.hashArrived (h : Hw) (q : Nat) (d : DescWords) (bs : List Nat) : Hw :=
  let dst := dw d 0 16 2
  let g := layerDigest bs
  if dst = 0 then (h.emitDigest 1 0 (dw d 2 48 16) 0xFF 0 bs.length g h.stampOwn).descDone q
  else match h.started q with
    | some r => h.dmaWrite (h.qCtx q) (nth d 3) g (.result q r.index)
    | none => h

/-! ### Macros (R214, R215, R243–R245) -/

/-- Active and test macros of the profile. -/
def Hw.activeMacros (h : Hw) : Nat := h.prof.sel 4 32 320
def Hw.physMacros (h : Hw) : Nat := h.prof.sel 5 34 328

/-- Macro slots in role `r`. -/
def Hw.inRole (h : Hw) (r : Nat) : Nat := (h.gar.pools.filter (· == r)).length

/-- The macros of the tap pool: before the page has first run, those that GAR_DENSE TAP shows. -/
def Hw.tapMacros (h : Hw) : Nat := if h.gar.pools.isEmpty then h.g R.GAR_DENSE_TAP else h.inRole 0

/-- L of R240 at width `k` and p = 2, as numerator and denominator: R × k × p over M × 65,536 × f, with 10^9 values and 10^6 cycles a second. -/
def Hw.widthLoad (h : Hw) (k : Nat) : Nat × Nat :=
  (h.prof.sel 3000 3200 12800 * 1000000000 * k * 2, h.tapMacros * 65536 * h.g R.BLK_CCLK_MHZ * 1000000)

/-- Show GAR_WIDTH (R240): the largest allowed width with L ≤ 1 at the full tap rate, and its load to the nearest 0.1%. -/
def Hw.showWidth (h : Hw) : Hw :=
  let ks := (List.range 5).map fun i => 1024 / 2 ^ i
  match if h.tapMacros = 0 then none else ks.find? fun k => h.kLogOk (Nat.log2 k) && decide ((h.widthLoad k).1 ≤ (h.widthLoad k).2) with
  | some k => (h.s R.GAR_WIDTH_K k).s R.GAR_WIDTH_LOAD ((2000 * (h.widthLoad k).1 + (h.widthLoad k).2) / (2 * (h.widthLoad k).2))
  | none => (h.s R.GAR_WIDTH_K 0).s R.GAR_WIDTH_LOAD 0

/-- Show the pools in service and the sustained width (R245). Before the page has first run the registers keep their reset values. -/
def Hw.showPools (h : Hw) : Hw :=
  if h.gar.pools.isEmpty then h else
  let h := ((h.s R.GAR_STAT_CMD (h.inRole 2)).s R.GAR_DENSE_DENSE (h.inRole 1)).s R.GAR_DENSE_TAP (h.inRole 0)
  ((h.s R.GAR_STAT_TEST (h.inRole 3)).s R.GAR_STAT_ACTIVE (h.inRole 0 + h.inRole 1 + h.inRole 2)).showWidth

/-- A macro is retired. -/
def Hw.retired (h : Hw) (m : Nat) : Bool := bit (h.g (R.GAR_RETIRED_MASK.at (m / 32))) (m % 32)

/-- The roles at the entry to RUNNING: physical macros in index order take the tap pool, the dense pool, the command pool, then
test duty (R215, R243). After retirements that leave no spare, one active macro keeps test duty, never of the dense pool, and a shortfall is taken
from the command pool, the tap pool, the dense pool (R245). -/
def Hw.assignPools (h : Hw) : Hw :=
  let live := (List.range h.physMacros).filter fun m => !h.retired m
  let n := live.length
  let dense := min (h.g R.GAR_POOL_DENSE) n
  let act := if h.activeMacros < n then h.activeMacros else n - min 1 (n - dense)
  let tap := min (h.g R.GAR_POOL_TAP) (act - dense)
  let role (m : Nat) : Nat :=
    match live.findIdx? (· == m) with
    | none => 4
    | some i => if i < tap then 0 else if i < tap + dense then 1 else if i < act then 2 else 3
  let ps := (List.range h.physMacros).map role
  let ord := (List.range h.physMacros).filter fun m => nth ps m == 1
  Hw.showPools (Hw.s { h with gar := { h.gar with pools := ps, denseOrder := ord, dense := [], joined := [], fed := [] } }
    R.GAR_STAT_DEGRADED (b2n (n ≤ h.activeMacros)))

/-- NT and FRC of a macro's last passed test. -/
def Hw.lastKat (h : Hw) (m : Nat) : Nat × Nat :=
  match h.gar.katPass.find? fun e => e.1 == m with
  | some e => e.2
  | none => (0, 0)

/-- The last macro in role `r`. -/
def Hw.lastInRole (h : Hw) (r : Nat) : Option Nat :=
  ((List.range h.gar.pools.length).filter fun m => h.gar.pools.getD m 4 == r).getLast?

/-- The open accounts that took values through the pool of macro `m` since it joined the pool and passed its last test (R244). -/
def Hw.fedSince (h : Hw) (m : Nat) : List Nat :=
  let r := h.gar.pools.getD m 4
  let from_ := max (h.lastKat m).2 (((h.gar.joined.find? fun x => x.1 == m).map fun x => x.2).getD 0)
  (h.gar.accounts.filter fun a => h.accOpen a.num && from_ ≤ a.fedFrc && a.fedFrc != 0 &&
    (if h.on (R.ACC_STAT_ORIGIN.at a.num) then r == 2 else r == 0)).map fun a => a.num

/-- Macro `m` takes role `r`; the accounts that it fed in the role it leaves are kept until its next passed test (R244). -/
def Hw.setRole (h : Hw) (m r : Nat) : Hw :=
  { h with gar := { h.gar with pools := setAt h.gar.pools m r, joined := (m, h.frc) :: h.gar.joined.filter fun x => x.1 != m,
                               fed := ((h.fedSince m).map fun n => (m, n)) ++ h.gar.fed } }

/-- Put macro `t` in the place of macro `m` in the dense order (R242). -/
def Hw.replaceDense (h : Hw) (m t : Nat) : Hw :=
  { h with gar := { h.gar with denseOrder := h.gar.denseOrder.map fun x => if x = m then t else x } }

/-- Drop the pages of the highest-numbered dense macro (R242). -/
def Hw.shrinkDense (h : Hw) : Hw :=
  let n := h.gar.denseOrder.length - 1
  { h with gar := { h.gar with denseOrder := h.gar.denseOrder.take n, dense := h.gar.dense.filter fun x => x.1 < 4 * n } }

/-- No test macro is left: the part is DEGRADED, and one active macro takes test duty, of the command pool, else of the tap pool (R245). -/
def Hw.takeTestDuty (h : Hw) : Hw :=
  if h.inRole 3 ≠ 0 then h else
  let h := h.s R.GAR_STAT_DEGRADED 1
  match h.lastInRole 2 with
  | some c => h.setRole c 3
  | none => match h.lastInRole 0 with | some c => h.setRole c 3 | none => h

/-- Replace a retired macro that served role `r` (R245). -/
def Hw.refill (h : Hw) (m r : Nat) : Hw :=
  if r = 3 then h.takeTestDuty else
  match h.lastInRole 3 with
  | some t => ((h.setRole t r).replaceDense m t).takeTestDuty
  | none =>
    match h.lastInRole 2 with
    | some c => if r = 2 then h else (h.setRole c r).replaceDense m c
    | none => match h.lastInRole 0 with
      | some c => if r = 0 then h else (h.setRole c r).replaceDense m c
      | none => if r = 1 then h.shrinkDense else h

/-- Once degraded, the test duty of one active macro is no spare: a later retirement is made good from the active macros. -/
def Hw.refillDegraded (h : Hw) (m r : Nat) : Hw :=
  match h.lastInRole 2 with
  | some c => if r = 2 then h else (h.setRole c r).replaceDense m c
  | none => match h.lastInRole 0 with
    | some c => if r = 0 then h else (h.setRole c r).replaceDense m c
    | none =>
      if r = 1 then
        match h.gar.denseOrder.getLast? with
        | some l => if l = m then h.shrinkDense else ((h.replaceDense m l).shrinkDense)
        | none => h
      else h

/-- Payload of a macro retirement entry (R493): the macro, the cause (0 test, 1 command, 2 memory error), the NT of its last passed
test. -/
def retirePayload (m cause last : Nat) : List Nat := le 2 m ++ [cause, 0] ++ le 4 0 ++ le 8 last

/-- Retire a macro (R244, R245). -/
def Hw.retire (h : Hw) (m cause : Nat) : Hw :=
  if h.retired m || h.physMacros ≤ m then h else
  let h := if h.gar.pools.isEmpty then h.assignPools else h
  let r := h.gar.pools.getD m 4
  let h := (h.setBits (R.GAR_RETIRED_MASK.at (m / 32)) (2 ^ (m % 32))).setRole m 4
  let h := if h.on R.GAR_STAT_DEGRADED then h.refillDegraded m r else h.refill m r
  let h := h.event 0x0020 2 (retirePayload m cause (h.lastKat m).1)
  let h := (h.raise 0x10 18).showPools
  (h.s R.SAF_ROUND_US h.testRound).detection

/-- SUSPECT on the open accounts that took values through a macro's pool since its last passed test (R244). -/
def Hw.suspectPool (h : Hw) (m : Nat) : Hw :=
  let before := (h.gar.fed.filter fun x => x.1 == m && h.accOpen x.2).map fun x => x.2
  h.each (before ++ h.fedSince m).eraseDups fun h n => h.s (R.ACC_STAT_SUSPECT.at n) 1

/-- A failed known-answer test (R244). -/
def Hw.katFail (h : Hw) (m cause : Nat) : Hw :=
  let h := ((h.inc R.GAR_KAT_FAIL_COUNT).raise 0x10 19).suspectPool m
  h.retire m cause

/-- LAYER entries that used macro `m` since its last passed test (R541). -/
def Hw.layersSince (h : Hw) (m : Nat) : List (Nat × Nat × Nat × Nat) :=
  h.gar.layerUse.filter fun u => u.1 == m

/-- A failed known-answer test with its DIAG entry (R244, R535, R541): DETAIL names the queue and TAG of the first LAYER entry that
used a dense macro. -/
def Hw.katFailed (h : Hw) (inj : Bool) (m : Nat) : Hw :=
  let us := if h.gar.pools.getD m 4 = 1 then h.layersSince m else []
  let detail := match us.head? with | some u => u.2.2.1 + 65536 * u.2.2.2 | none => 0
  let h := h.add R.SAF_LAYER_SUSPECT_COUNT us.length
  (h.dangerous inj 4 3 m detail).katFail m 0

/-- A passed known-answer test. -/
def Hw.katPassed (h : Hw) (m : Nat) : Hw :=
  let h := { h with gar := { h.gar with katPass := (m, h.ns, h.frc) :: h.gar.katPass.filter fun e => e.1 != m,
                                        layerUse := h.gar.layerUse.filter fun u => u.1 != m, fed := h.gar.fed.filter fun u => u.1 != m } }
  h.notePass 4 m

/-- The test slot of a macro (R243): it hands its work to a test macro, the test runs, and it is retired if it fails. Every macro
takes one slot in a round; with GAR_KAT disabled no test runs (R556). -/
def Hw.testSlot (h : Hw) (m : Nat) (pass : Bool) : Hw :=
  if !h.running 0x10 || h.retired m || h.physMacros ≤ m || h.on R.SAF_CFG_GAR_KAT_DIS then h else
  let r := h.gar.pools.getD m 4
  let h := h.diagRun 4
  let h := if pass then
      let h := h.katPassed m
      if r = 3 then h else
      match h.lastInRole 3 with
      | some t => ((h.setRole t r).setRole m 3).replaceDense m t
      | none => h
    else h.katFailed false m
  let next := ((List.range h.physMacros).filter fun x => m < x && !h.retired x)
  if next.isEmpty then h.inc R.GAR_ROT_ROUNDS else h

/-! ### Meanings -/

/-- GAR_OPEN (R246, R247). -/
def execGarOpen (q : Nat) (s : State) : Result :=
  s.go fun h => h.withDesc q 1 1 [(0, 16, 14), (1, 0, 64), (2, 0, 16)] fun h d => h.descOpen q d

/-- GAR_LOAD (R237, R246): accepted by engines 1 and 2. -/
def execGarLoad (q : Nat) (s : State) : Result :=
  s.go fun h => h.withDesc q (if h.qEngine q = 2 then 2 else 1) 2 [(1, 0, 64), (2, 0, 64)] fun h d => h.descLoad q d

/-- GAR_PROJECT (R227, R246). -/
def execGarProject (q : Nat) (s : State) : Result :=
  s.go fun h => h.withDesc q 1 3 [(0, 16, 14), (1, 0, 64), (2, 0, 64)] fun h d => h.descProject q d

/-- GAR_CLOSE (R247, R248). -/
def execGarClose (q : Nat) (s : State) : Result :=
  s.go fun h => h.withDesc q 1 4 [(0, 16, 12), (1, 0, 64)] fun h d => h.descClose q d

/-- GAR_WLOAD (R242). -/
def execGarWload (q : Nat) (s : State) : Result :=
  s.go fun h => h.withDesc q 2 0x10 [(1, 0, 64), (2, 0, 32)] fun h d => h.descWload q d

/-- GAR_LAYER (R241). -/
def execGarLayer (q : Nat) (s : State) : Result :=
  s.go fun h => h.withDesc q 2 0x11
    [(0, 16, 2), (0, 29, 1), (1, 0, 64), (2, 0, 48), (3, 0, 32), (4, 0, 21), (4, 24, 8)] fun h d => h.descLayer q d

/-- GAR_STORE (R246). -/
def execGarStore (q : Nat) (s : State) : Result :=
  s.go fun h => h.withDesc q 2 0x12 [(1, 0, 64), (2, 0, 64)] fun h d => h.descStore q d

/-- DIG_HASH (R273). -/
def execDigHash (q : Nat) (s : State) : Result :=
  s.go fun h => h.withDesc q 6 0x20 [(0, 16, 2), (1, 0, 64), (2, 0, 40), (2, 48, 16), (3, 0, 64)] fun h d => h.descHash q d

/-- MACRO_TEST_SLOT (R243). -/
def execMacroTestSlot (m : Nat) (pass : Bool) (s : State) : Result := s.go fun h => h.testSlot m pass

/-- GAR_RETIRE (R244, R249): operator only; a macro beyond the physical macros is refused. -/
def Hw.retireCmd (h : Hw) (m : Nat) : Tried := if h.physMacros ≤ m then .error E.badValue else .ok (h.retire m 1)

/-- GAR_RETIRE (R244). -/
def execGarRetire (a : Acc) (m : Nat) (s : State) : Result := s.go fun h => h.operWrite a 0x10 0x50 fun h => h.retireCmd m

/-- MACRO_WEIGHT_ECC_ERROR (R245): treated as a failed test, without SUSPECT (R244); the pass is repeated on the macro that takes
over, so no result changes. -/
def execMacroWeightEccError (m : Nat) (s : State) : Result :=
  s.go fun h => if h.pwr.gar then h.retire m 2 else h

end Sys2Proof.Machine
end

