-- ==== Sys2Proof/Machine/Taps.lean ====
section
/-!
DEFINITION. Machine/Taps.lean: tap tensors, bindings and windows (R230–R236, R252), and the close of every account when the GAR
page leaves RUNNING (R247).
-/
namespace Sys2Proof.Machine

/-- Bindings of the profile (R250). -/
def Hw.bindings (h : Hw) : Nat := h.prof.sel 64 256 256

def Hw.bindOn (h : Hw) (b : Nat) : Bool := h.on (R.BIND_CTL_EN.at b)

/-- The window's state beside its register. -/
def Hw.win (h : Hw) (w : Nat) : Win :=
  match h.gar.wins.find? fun x => x.num == w with
  | some x => x
  | none => ⟨w, none, none, [], Stamp.zero, false, false⟩

def Hw.putWin (h : Hw) (x : Win) : Hw :=
  { h with gar := { h.gar with wins := x :: h.gar.wins.filter fun y => y.num != x.num } }

/-- The tensor a tap delivers. -/
def Hw.tensor (h : Hw) (t : Nat) : Option Tensor := h.gar.tensors.find? fun x => x.tap == t

def Hw.putTensor (h : Hw) (x : Tensor) : Hw :=
  { h with gar := { h.gar with tensors := x :: h.gar.tensors.filter fun y => y.tap != x.tap } }

def Hw.dropTensor (h : Hw) (t : Nat) : Hw :=
  { h with gar := { h.gar with tensors := h.gar.tensors.filter fun y => y.tap != t } }

/-- The context that holds a tap account: the page's owner, or the operator (R251). -/
def Hw.tapCtx (h : Hw) : Nat := if h.g (R.PAGE_OWNER_OWNER 0x10) = 0xFF then h.operCtx else h.g (R.PAGE_OWNER_OWNER 0x10)

/-- A binding is skipped for a conflict (R236). -/
def Hw.bindConflict (h : Hw) (b : Nat) : Hw :=
  ((h.incSat (R.BIND_STAT_CONFLICT.at b)).raise 0x10 20).choice 4

/-- Open the account of a binding. -/
def Hw.openBound (h : Hw) (b window tag : Nat) : Hw :=
  h.openAccount (h.g (R.BIND_CTL_ACCOUNT.at b)) h.tapCtx 0 (h.g (R.BIND_PARAM_K_LOG.at b)) (h.g (R.BIND_PARAM_E_REF.at b))
    (h.g64 (R.BIND_SEED_LO_SEED.at b) (R.BIND_SEED_HI_SEED.at b)) window tag

/-! ### Windows (R232, R233) -/

/-- Open a window that is neither open nor closing: its enabled window-mode bindings open their accounts; a binding whose account was
open before takes no tensors this time (R232, R236). -/
def Hw.windowOpenNow (h : Hw) (w : Nat) (tracker : Option Nat) : Hw :=
  let bs := (List.range h.bindings).filter fun b =>
    h.bindOn b && h.g (R.BIND_CTL_MODE.at b) == 0 && h.g (R.BIND_CTL_WINDOW.at b) == w
  let free := (bs.filter fun b => !h.accOpen (h.g (R.BIND_CTL_ACCOUNT.at b))).map fun b => (b, h.g (R.BIND_CTL_ACCOUNT.at b))
  let h := h.each (bs.filter fun b => h.accOpen (h.g (R.BIND_CTL_ACCOUNT.at b))) fun h b => h.bindConflict b
  let h := h.each free fun h b => if h.accOpen b.2 then h else h.openBound b.1 w 0
  (h.putWin ⟨w, tracker, none, free, Stamp.zero, false, false⟩).s (R.WIN_STAT_OPEN.at w) 1

/-- WIN_BEGIN: open a window, or defer the open while it is CLOSING; no effect on an open one (R232, R252). -/
def Hw.windowOpen (h : Hw) (w : Nat) (tracker : Option Nat) : Hw :=
  if !h.running 0x10 then h
  else if h.on (R.WIN_STAT_CLOSING.at w) then
    (h.putWin { h.win w with deferTracker := tracker }).s (R.WIN_STAT_DEFER.at w) 1
  else if h.on (R.WIN_STAT_OPEN.at w) then h
  else h.windowOpenNow w tracker

/-- The tensors that window `w` has taken and that have not ended (R232). -/
def Hw.windowTensors (h : Hw) (w : Nat) : List Tensor := h.gar.tensors.filter fun t => t.mode == 0 && t.acct.isSome && t.win == w

/-- One of them is under way. -/
def Hw.windowBusy (h : Hw) (w : Nat) : Bool := !(h.windowTensors w).isEmpty

/-- WIN_END: the window becomes CLOSING with the close instant of its records (R232); no effect on a closed one. A tensor taken past
the close is a WINDOW_RACE (R281). -/
def Hw.windowClose (h : Hw) (w : Nat) (stall swap : Bool) : Hw :=
  if !h.on (R.WIN_STAT_OPEN.at w) then h else
    let h := h.putWin { h.win w with stamp := h.stampOwn, stall := stall, swap := swap }
    let h := (h.s (R.WIN_STAT_OPEN.at w) 0).s (R.WIN_STAT_CLOSING.at w) 1
    h.each (h.windowTensors w) fun h _ => h.choice 3

/-- The open accounts of a window. -/
def Hw.windowAccounts (h : Hw) (w : Nat) : List Nat := (((h.win w).binds.map fun b => b.2).eraseDups).filter h.accOpen

/-- Close an account with window `x`, whose STALL and SWAP its records carry, at the instant of the close (R232, R233). -/
def Hw.closeFor (h : Hw) (x : Win) (n : Nat) : Hw :=
  (h.putAccount { h.account n with stall := x.stall, swap := x.swap }).closeAccount n true x.stamp

/-- Every tensor the window took has ended: its accounts close and emit, and a deferred open follows (R232). -/
def Hw.windowFinish (h : Hw) (w : Nat) : Hw :=
  if !h.on (R.WIN_STAT_CLOSING.at w) || h.windowBusy w then h else
  let x := h.win w
  let h := h.each (h.windowAccounts w) fun h n => h.closeFor x n
  let h := (h.s (R.WIN_STAT_CLOSING.at w) 0).inc (R.WIN_STAT_INSTANCES.at w)
  if h.on (R.WIN_STAT_DEFER.at w) then
    (h.s (R.WIN_STAT_DEFER.at w) 0).windowOpen w x.deferTracker
  else h

/-- A stall of a tracker closes the windows its entries opened, with STALL set (R233). -/
def Hw.windowsStall (h : Hw) (t : Nat) : Hw :=
  h.each (List.range 16) fun h w => if (h.win w).tracker == some t then h.windowClose w true false else h

/-- A swap closes every open window, with SWAP set (R233). -/
def Hw.windowsSwap (h : Hw) : Hw := h.each (List.range 16) fun h w => h.windowClose w false true

/-! ### Tensors (R230, R231, R234, R235) -/

/-- The binding that takes a tensor with a tag at a tap (R231). -/
def Hw.matchBinding (h : Hw) (tap tag : Nat) : Option Nat :=
  (List.range h.bindings).find? fun b =>
    let m := h.g (R.BIND_MATCH_MASK.at b)
    h.bindOn b && (h.g (R.BIND_CTL_TAP.at b) == tap || h.g (R.BIND_CTL_TAP.at b) == 0x3F)
      && (tag &&& m) == (h.g (R.BIND_MATCH_TAG.at b) &&& m)

/-- The end of a tensor: a per-tensor account closes (R234), the digest is emitted (R271), an incomplete one counts (R171). -/
def Hw.tensorEnd (h : Hw) (t : Tensor) (bad : Bool) : Hw :=
  let st := h.stampOwn
  let h := match t.acct with
    | some n =>
      let h := if bad then h.incomplete n else h
      let h := h.inc (R.ACC_TENSORS_COUNT.at n)
      if t.mode = 1 then h.closeAccount n true st else h
    | none => h
  let h := if bad then h.count 2 t.tap 3 1 else h
  let h := if t.dig then
      h.emitDigest 0 (b2n (bad || t.digInc)) t.tag t.fmt t.offset t.bytes.length (layerDigest t.bytes) st
    else h
  h.dropTensor t.tap

/-- The bytes of a beat that belong to the tensor: all of them, or what ELEM_COUNT still allows. -/
def Tensor.beat (t : Tensor) (bs : List Nat) : List Nat :=
  match t.left with
  | none => bs
  | some n => bs.take (fmtBytes t.fmt n)

/-- Take the data of one beat. -/
def Hw.tensorData (h : Hw) (t : Tensor) (bs : List Nat) : Hw :=
  let d := t.beat bs
  let vs := fmtVals t.fmt d
  let vs := match t.left with | none => vs | some n => vs.take n
  let h := match t.acct with
    | some n => if t.fmt ≤ 5 then h.feed n t.fmt (t.offset + t.taken) vs else h
    | none => h
  h.putTensor { t with
    left := t.left.map fun n => n - vs.length, taken := t.taken + vs.length,
    bytes := if t.dig && !t.digInc then t.bytes ++ d else t.bytes, lastFrc := h.frc }

/-- The tensor at a tap ends there with its account marked INCOMPLETE (R235). -/
def Hw.tensorFault (h : Hw) (t : Tensor) : Hw := h.tensorEnd t true

/-- A beat that finds the tap's input buffer full (R235, R281). -/
def Hw.tapOverflow (h : Hw) (tap : Nat) : Hw := (h.inc (R.TAP_OVF_COUNT.at tap)).choice 5

/-- What a taken tensor feeds: the account of its binding where it may (R231, R232, R234, R236). -/
def Hw.takeTensor (h : Hw) (b tag : Nat) : Hw × Option Nat :=
  let n := h.g (R.BIND_CTL_ACCOUNT.at b)
  if h.g (R.BIND_CTL_MODE.at b) = 1 then
    if h.accOpen n then (h.bindConflict b, none) else (h.openBound b 0xFE tag, some n)
  else
    let w := h.g (R.BIND_CTL_WINDOW.at b)
    if !h.on (R.WIN_STAT_OPEN.at w) then
      let h := h.incSat (R.BIND_STAT_MISSED.at b)
      (if h.gar.wins.any fun x => x.num == w then h.choice 3 else h, none)
    else (h, ((h.win w).binds.find? fun x => x.1 == b).map fun x => x.2)

/-- A beat with SOT (R230, R231). `full`: it finds the input buffer full; `digFull`: it finds the digest buffer full (R272). -/
def Hw.tapStart (h : Hw) (tap fmt tag : Nat) (bs : List Nat) (err full digFull : Bool) : Hw :=
  -- an SOT before the EOT ends the tensor under way, in a drain too
  let h := match h.tensor tap with | some t => h.tensorFault t | none => h
  if !h.running 0x10 || !h.on (R.TAP_CFG_EN.at tap) || fmt == 7 then h else
  match h.matchBinding tap tag with
  | none => h.inc R.GAR_UNBOUND_COUNT
  | some b =>
    let hdr := h.on (R.TAP_CFG_HDR.at tap)
    let f := if h.on (R.BIND_CTL_FMT_OVR.at b) then h.g (R.BIND_CTL_FMT.at b) else fmt
    if f = 7 then h else
    let r := h.takeTensor b tag
    let h := match r.2 with | some _ => r.1.inc (R.BIND_TENSORS_COUNT.at b) | none => r.1
    let off := if hdr then fld bs 0 8 else 0
    let t : Tensor := ⟨tap, f, fmt, off, if hdr then some (fld bs 8 8) else none, 0, tag, some b, h.g (R.BIND_CTL_MODE.at b), r.2,
      h.g (R.BIND_CTL_WINDOW.at b), h.on (R.BIND_CTL_DIG.at b), digFull, [], h.frc⟩
    let h := if full then h.tapOverflow tap else h
    let h := if digFull && t.dig then h.choice 5 else h
    if err || full || off % 32 != 0 || f == 6 then h.tensorFault t
    else if hdr then h.putTensor t else h.tensorData t bs

/-- A data beat of the tensor at a tap (R230, R235). -/
def Hw.tapBeat (h : Hw) (tap fmt : Nat) (bs : List Nat) (err full digFull : Bool) : Hw :=
  match h.tensor tap with
  | none => h
  | some t =>
    if full then (h.tapOverflow tap).tensorFault t
    else if err || fmt != t.tapFmt then h.tensorFault t
    else
      let h := if digFull && t.dig && !t.digInc then h.choice 5 else h
      h.tensorData { t with digInc := t.digInc || (digFull && t.dig) } bs

/-- The beat with EOT: its data, then the tensor's end (R230, R234). -/
def Hw.tapEnd (h : Hw) (tap fmt : Nat) (bs : List Nat) (err full digFull : Bool) : Hw :=
  let h := h.tapBeat tap fmt bs err full digFull
  match h.tensor tap with
  | none => h
  | some t => h.tensorEnd t false

/-- No beat for 100 µs within a tensor (R235). -/
def Hw.tapIdle (h : Hw) (tap : Nat) : Hw :=
  match h.tensor tap with
  | none => h
  | some t => if t.lastFrc + 100000 ≤ h.frc then h.tensorFault t else h

/-! ### Leaving RUNNING (R247) -/

/-- An abort closes every open account with INCOMPLETE set: tap accounts emit, command accounts do not. -/
def Hw.garAbort (h : Hw) : Hw :=
  let h := { h with gar := { h.gar with tensors := [] } }
  let h := h.each ((List.range 16).filter fun w => h.on (R.WIN_STAT_CLOSING.at w)) fun h w =>
    h.each (h.windowAccounts w) fun h n => (h.incomplete n).closeFor (h.win w) n
  let h := h.each ((List.range h.accountCount).filter h.accOpen) fun h n =>
    (h.incomplete n).closeAccount n (!h.on (R.ACC_STAT_ORIGIN.at n)) h.stampOwn
  h.each (List.range 16) fun h w => ((h.s (R.WIN_STAT_OPEN.at w) 0).s (R.WIN_STAT_CLOSING.at w) 0).s (R.WIN_STAT_DEFER.at w) 0

/-- A drain closes every open window as by WIN_END. -/
def Hw.garDrain (h : Hw) : Hw := h.each (List.range 16) fun h w => h.windowClose w false false

/-- The page reaches OFF: every open account is discarded, the closes count starts again at the next RUNNING (R247, R248). -/
def Hw.garOff (h : Hw) : Hw :=
  let h := h.each ((List.range h.accountCount).filter h.accOpen) fun h n => h.discardAccount n
  { h with gar := { h.gar with tensors := [], wins := [] } }

/-- The page enters RUNNING: the pools take their macros and the projection pages are written (R215), the closes count from 0
(R248). -/
def Hw.garStart (h : Hw) : Hw :=
  let h := { h with gar := { h.gar with closes := [] } }
  (h.each (List.range h.accountCount) fun h n => h.s (R.ACC_PARAM_CLOSES.at n) 0).assignPools

/-! ### Meanings -/

/-- The counter slots of a tap stream take a beat (R171). -/
def Hw.countBeat (h : Hw) (tap : Nat) (err : Bool) : Hw :=
  let h := h.count 2 tap 0 1
  if err then h.count 2 tap 2 1 else h

/-- TAP_SOT (R171, R230, R231, R235). -/
def execTapSot (tap fmt tag : Nat) (bs : List Nat) (err full digFull : Bool) (s : State) : Result :=
  s.go fun h => ((h.countBeat tap err).count 2 tap 1 1).tapStart tap fmt tag bs err full digFull

/-- TAP_BEAT (R230, R235). -/
def execTapBeat (tap fmt : Nat) (bs : List Nat) (err full digFull : Bool) (s : State) : Result :=
  s.go fun h => (h.countBeat tap err).tapBeat tap fmt bs err full digFull

/-- TAP_EOT (R230, R234). -/
def execTapEot (tap fmt : Nat) (bs : List Nat) (err full digFull : Bool) (s : State) : Result :=
  s.go fun h => (h.countBeat tap err).tapEnd tap fmt bs err full digFull

/-- TAP_TENSOR_IDLE_TIMEOUT (R235). -/
def execTapTensorIdleTimeout (tap : Nat) (s : State) : Result := s.go fun h => if h.faulted 0x10 then h else h.tapIdle tap

/-- WINDOW_CLOSE_COMPLETE (R232). -/
def execWindowCloseComplete (w : Nat) (s : State) : Result := s.go fun h => if h.faulted 0x10 then h else if w < 16 then h.windowFinish w else h

/-- WIN_CMD_OPEN (R252). -/
def execWinCmdOpen (a : Acc) (w : Nat) (s : State) : Result :=
  s.go fun h => h.hostWrite a 0x13 0x80 false fun h => .ok (h.windowOpen (w % 16) none)

/-- WIN_CMD_CLOSE (R252). -/
def execWinCmdClose (a : Acc) (w : Nat) (s : State) : Result :=
  s.go fun h => h.hostWrite a 0x13 0x80 false fun h => .ok (h.windowClose (w % 16) false false)

end Sys2Proof.Machine
end

