-- ==== Sys2Proof/Machine/Claims.lean ====
section
/-!
DEFINITION. Machine/Claims.lean: resources and their claims (R96–R98): what each page's configuration needs, all or none, released on
entry to OFF.
-/
namespace Sys2Proof.Machine

/-- Pins that a schedule table's CONV_START actions name (R164). -/
def schPins (t : List SchEntry) : List Nat :=
  ((t.filter fun e => e.action == 3 && e.kind != 0).map fun e => 0x1010 + e.arg).eraseDups

/-- Timers that a schedule table needs: one per NT entry (R164). -/
def schTimers (t : List SchEntry) : Nat := (t.filter fun e => e.kind == 3 && e.action != 0).length

/-- The bits of a mask register array that are set, from index 0 to `n` - 1. -/
def Hw.maskBits (h : Hw) (f : Field) (n : Nat) : List Nat :=
  (List.range n).filter fun i => bit (h.g (f.at (i / 32))) (i % 32)

/-- The resources that the configuration of page `p` needs, timers apart, in the order of R96. -/
def Hw.needs (h : Hw) (p : Nat) : List Nat :=
  match p with
  | 0x06 => schPins h.stp.table ++
      (match h.prof with
       | .l => ((List.range 15).filter fun j => h.g (R.PH_CFG_MODE.at j) != 0).map (0x2010 + ·) ++ [0x201F]
       | .t => (h.maskBits R.STP_IN_MASK_MASK 128).map (0x2100 + ·)
       | .g => [])
  | 0x0A => ((List.range 128).filter fun q => h.on (R.PRX_DIE_EN.at q)).map (0x8000 + ·) ++
      ((List.range 16).filter fun b => h.g (R.PRX_BUS_CFG_MODE.at b) != 0).map (0x9000 + ·)
  | 0x10 => (List.range (h.prof.sel 5 34 328)).map (0x6000 + ·) ++
      ((List.range h.taps).filter fun n => h.on (R.TAP_CFG_EN.at n)).map (0x8300 + ·)
  | 0x20 => (List.range (h.prof.sel 2 16 64)).map (0x7000 + ·)
  | 0x28 => ((List.range h.fabrics).filter fun q => h.on (R.FAB_PORT_CFG_EN.at q)).map (0x8200 + ·)
  | 0x2C => ((List.range h.culverts).filter fun q => h.on (R.CUL_PORT_CTL_INSVC.at q)).map (0x8000 + ·)
  | 0x30 => [0x4010, 0x4011]
  | 0x38 => ((List.range 4).filter fun n => h.on (R.TL_CTL_OUT.at n)).map (0x1000 + ·) ++
      ((List.range 4).filter fun n => h.on (R.TL_CTL_IN.at n)).map (0x2000 + ·) ++ [0x4000] ++
      (if h.g R.TRC_CFG_PORT_MODE = 0 then [] else [0x8400])
  | 0x3A => (match h.prof with | .l => [0x1040] | _ => []) ++ [0x503F] ++ (if h.on R.DBG_CFG_SCAN_HOST then [0x8402] else [])
  | 0x42 => [0x1010 + h.g R.OPT_CFG_CONV]
  | 0x44 => [0x503E]
  | 0x48 => ((List.range 4).filter fun c => h.on (R.CH_CFG_EN.at c)).map fun c => 0xA000 + h.g (R.CH_CFG_SLOT.at c)
  | 0x4C => [0x8401]
  | 0x5C => [0x503D]
  | _ => []

/-- The hardware timers that the configuration of page `p` needs (R140). -/
def Hw.needTimers (h : Hw) (p : Nat) : Nat :=
  match p with
  | 0x06 => schTimers h.stp.table
  | 0x34 => (h.shp.lists.filter fun l => (match l.pending with | some c => c.mode | none => l.cfg.mode) == 1).length
  | 0x42 => 1
  | _ => 0

/-- The timers that page `p` holds. -/
def Hw.heldTimers (h : Hw) (p : Nat) : List Nat :=
  (h.claims.filter fun c => c.2 == p && c.1 / 4096 == 3).map fun c => c.1 % 4096

/-- Timers that no page holds. -/
def Hw.freeTimers (h : Hw) : List Nat := (List.range 32).filter fun t => (h.holder (0x3000 + t)).isNone

/-- The first timer that another page holds, or the one beyond the last (R97, R164). -/
def Hw.timerShort (h : Hw) (p : Nat) : Nat :=
  match (List.range 32).find? fun t => match h.holder (0x3000 + t) with | some q => q != p | none => false with
  | some t => 0x3000 + t
  | none => 0x3020

/-- Claim resources and timers for page `p`, all or none (R97): the block after it, or the first resource it cannot have. The resources of
class 1 and 2 stand before the timers in the order of R96. -/
def Hw.claim (h : Hw) (p : Nat) (rs : List Nat) (timers : Nat) : Except Nat Hw :=
  let bad (r : Nat) : Bool := h.absent r || (match h.holder r with | some q => q != p | none => false)
  let more := timers - (h.heldTimers p).length
  match (rs.filter fun r => r < 0x3000).find? bad with
  | some r => .error r
  | none =>
    if h.freeTimers.length < more then .error (h.timerShort p) else
    match rs.find? bad with
    | some r => .error r
    | none =>
      let new := (rs.filter fun r => (h.holder r).isNone) ++ (h.freeTimers.take more).map (0x3000 + ·)
      .ok { h with claims := h.claims ++ new.map fun r => (r, p) }

/-- Release the claims of a page (R97). -/
def Hw.releaseClaims (h : Hw) (p : Nat) : Hw := { h with claims := h.claims.filter fun c => c.2 != p }

end Sys2Proof.Machine
end

