-- ==== Sys2Proof/Machine/Servo.lean ====
section
/-!
DEFINITION. Machine/Servo.lean: the completion of start-up (R561, R564, R575), the states of the time servo (R118, R119), its bound (R139), the
choice of a source (R125, R130) and HOLDOVER (R139).
-/
namespace Sys2Proof.Machine

/-! ### Start-up (R561, R564) -/

/-- A LIVE_UPDATE entry (R575). -/
def Hw.liveUpdate (h : Hw) (kind index new old : Nat) : Hw :=
  h.event 0x0060 0 ([kind, 0] ++ le 2 index ++ le 4 (new % 2 ^ 32) ++ le 4 (old % 2 ^ 32))

/-- PWR_START as one word (R576). -/
def Hw.startWord (h : Hw) : Nat :=
  let fs := [R.PWR_START_AON, R.PWR_START_CORE, R.PWR_START_BOOT, R.PWR_START_LOG, R.PWR_START_BLOB, R.PWR_START_SELFTEST, R.PWR_START_TIME,
    R.PWR_START_FABRIC, R.PWR_START_DONE]
  total ((List.range 9).map fun i => h.g (fs.getD i R.PWR_START_AON) * 2 ^ i)

/-- Stages 7 to 9 (R561) and the end of start-up (R564): DONE, PWR_START_MS, START_DONE, a LIVE_UPDATE entry of kind 0. -/
def Hw.startCheck (h : Hw) : Hw :=
  let h := if h.timed && h.running 0x04 then h.s R.PWR_START_TIME 1 else h
  let joined := match h.prof with | .l => h.on R.CUL_LEAF_REGISTERED | _ => h.g R.FAB_ID_STATE == 2
  let h := if joined && h.on R.PWR_START_TIME then h.s R.PWR_START_FABRIC 1 else h
  let locked := if h.g R.TIM_CFG_SOURCE = 3 then h.timed else h.g R.TIM_STATUS_SERVO == 3
  if h.on R.PWR_START_FABRIC && locked && !h.on R.PWR_START_DONE then
    let h := h.s R.PWR_START_DONE 1
    let h := h.s R.PWR_START_MS_MS (min ((h.frc - h.pwr.coreSince) / 1000000) (2 ^ 32 - 1))
    (h.raise 0x58 18).liveUpdate 0 0 h.startWord (h.g R.PWR_START_MS_MS)
  else h

/-! ### The bound (R139) -/

/-- TIM_BOUND (R139): the bound the servo vouches for, in ns; the added bound is rounded up to whole ns (log entry 153). -/
def Hw.timBound (h : Hw) : Nat :=
  let leaf := decide (h.prof = .l)
  let usual := if leaf then 8 else 10
  let wide := if leaf then 12 else 40
  let thermal := h.on R.TIM_STATUS_TRANSIENT || h.frc < h.tim.widenUntil
  if h.g R.TIM_CFG_SOURCE = 3 then (if h.timed then 0 else 0xFFFF) else
  match h.g R.TIM_STATUS_SERVO with
  | 3 => if h.frc < h.tim.srcUntil then 28 else if thermal then wide else usual
  | 4 =>
    let limit := h.tim.holdFrc + (if leaf then 2000000 else 250000000)
    let slow := if leaf then 50 else 10
    let kept := if thermal && h.frc < limit then max h.tim.holdBound wide else h.tim.holdBound
    let added := if h.frc ≤ limit then 0 else
      match h.tim.thermalFrom with
      | none => ceilDiv ((h.frc - limit) * slow) 1000000000
      | some t =>
        let t := max t limit
        if h.frc ≤ t then ceilDiv ((h.frc - limit) * slow) 1000000000
        else ceilDiv ((t - limit) * slow + (h.frc - t) * 400) 1000000000
    min (kept + added) 0xFFFF
  | _ => 0xFFFF

/-! ### Servo states (R119) -/

/-- A new rate, within 2^48 ± 56,294,995,342 (R116), with the log of the last second (R139). -/
def Hw.steer (h : Hw) (rate : Nat) : Hw :=
  let r := max (2 ^ 48 - 56294995342) (min (2 ^ 48 + 56294995342) rate)
  let young (e : Nat × Nat) : Bool := decide (h.frc ≤ e.1 + 1000000000)
  let log := (h.frc, r) :: (h.tim.rateLog.filter young ++ (h.tim.rateLog.filter fun e => !young e).take 1)
  Hw.setRate { h with tim := { h.tim with rateLog := log } } r

/-- Sum of rate × ticks over [lo, hi) of a log, newest first. -/
def rateSum (lo : Nat) : Nat → List (Nat × Nat) → Nat
  | _, [] => 0
  | hi, e :: t => (hi - max lo e.1) * e.2 + rateSum lo (min hi (max lo e.1)) t

/-- The mean rate of the last second, rounded to nearest (R139): of the time that the log covers. -/
def Hw.meanRate (h : Hw) : Nat :=
  let lo := h.frc - 1000000000
  let first := match h.tim.rateLog.getLast? with | some e => max lo e.1 | none => h.frc
  if h.frc ≤ first then h.tim.rate else rne (rateSum first h.frc h.tim.rateLog) (h.frc - first)

/-- Enter HOLDOVER (R139): the rate freezes at its mean, the bound read before is kept. A transient that stands already was not entered in this
holdover (log entry 153). -/
def Hw.holdover (h : Hw) : Hw :=
  let h := { h with tim := { h.tim with holdFrc := h.frc, holdBound := h.timBound, limitDone := false, inLock := 0, outLock := 0,
                                        thermalFrom := none } }
  ((h.s R.TIM_STATUS_SERVO 4).steer h.meanRate).raise 0x04 18

/-- A clock fault stands until 16 consecutive windows have passed and the servo is LOCKED (R542): then condition 0x07 is paired. -/
def Hw.clockPaired (h : Hw) : Hw :=
  if h.saf.clockFault ∧ h.saf.xPasses < 16 then h
  else Hw.restore { h with saf := { h.saf with clockFault := false } } 6 0x07

/-- The servo enters a state other than HOLDOVER. LOCKED pairs the conditions of the time guarantee (R26, R122, R139); leaving LOCKED, but
for HOLDOVER, breaches its first (R26, R200). -/
def Hw.setServo (h : Hw) (st : Nat) : Hw :=
  if h.g R.TIM_STATUS_SERVO = st then h else
  let was := h.tim.wasLocked
  let h := Hw.s { h with tim := { h.tim with inLock := 0, outLock := 0, offsets := [], wasLocked := st == 3 } } R.TIM_STATUS_SERVO st
  if st = 3 then
    let h := h.clockPaired
    let h := if h.on R.TIM_STATUS_TIME_LOST then h else h.restore 6 0x08
    ((h.restore 6 0x09).raise 0x04 16).startCheck
  else if was then h.breach 6 0x07 0 else h

/-- The source that the servo uses is now `src` (R125, R130): 0 none, 1 or 2. `mark` says that TIM_BOUND shows the bound to a new source
for 1 ms. -/
def Hw.useSource (h : Hw) (src : Nat) (mark : Bool) : Hw :=
  if !h.running 0x04 || h.g R.TIM_STATUS_SERVO = 0 then h else
  let last := h.tim.lastSrc
  let h := h.s R.TIM_STATUS_SRC_USED src
  if src = 0 then
    let sv := h.g R.TIM_STATUS_SERVO
    if sv = 2 ∨ sv = 3 then h.holdover else h
  else
    let moved := last != 0 && last != src
    let h := { h with tim := { h.tim with lastSrc := src, srcUntil := if moved && mark then h.frc + 1000000 else h.tim.srcUntil } }
    if moved then h.raise 0x04 20 else h

end Sys2Proof.Machine
end

