-- ==== Sys2Proof/Machine/Wire.lean ====
section
/-!
DEFINITION. Machine/Wire.lean: what stands around a link frame on its way: the protection of a session (R523, R524), the Ethernet and MACsec
headers of the fabric stream (R51, R52, R126, R524, R530), the words of a culvert, their trailer, lanes and scrambler (R47, R327).
-/
namespace Sys2Proof.Machine

/-! ### Protection (R523, R524) -/

/-- Seal a body under the keys in force: the ciphertext and the 16-byte tag. `dir` tells the two directions apart; the counter is that of the next
frame sent. -/
def Session.seal (s : Session) (dir : Nat) (aad body : List Nat) : List Nat :=
  fit (body.length + 16) (Config.gcmSeal (2 * s.key + dir) (s.sent + 1) aad body)

/-- A culvert's frame under a session (R523): the header is additional data, the padded payload encrypted in place; of a PROBE header and payload are
additional data and nothing is encrypted. -/
def Session.culvertBody (s : Session) (dir kind : Nat) (bs : List Nat) : List Nat :=
  if !s.up then bs
  else if kind = 7 then bs ++ s.seal dir bs []
  else bs.take 16 ++ s.seal dir (bs.take 16) (bs.drop 16)

/-- SecTAG behind the EtherType 0x88E5 (R524): TCI with E and C set and AN, the short length of IEEE 802.1AE, the low half of the packet number. -/
def Session.secTag (s : Session) (n : Nat) : List Nat := [12 + s.gen % 4, if n < 48 then n else 0] ++ be 4 ((s.sent + 1) % 2 ^ 32)

/-- A fabric frame of EtherType 0x88B5 as the stream carries it between MAC addresses `addrs` (R51, R52, R524). -/
def Session.streamBody (s : Session) (dir : Nat) (addrs bs : List Nat) : List Nat :=
  let clear := be 2 0x88B5 ++ bs
  if !s.up then addrs ++ clear else
  let head := addrs ++ be 2 0x88E5 ++ s.secTag clear.length
  head ++ s.seal dir head clear

/-! ### MAC addresses (R126, R530) -/

/-- The address that fabric port `i` sends from (R530). -/
def Hw.macFrom (h : Hw) (i : Nat) : List Nat := (fit 6 h.sec.macBase).take 5 ++ [(nth h.sec.macBase 5 + i) % 256]

/-- The multicast address of the IEEE 802.3 mapping of PTP (R126). -/
def ptpMac : List Nat := [0x01, 0x1B, 0x19, 0x00, 0x00, 0x00]

/-! ### Words and lanes of a culvert (R47, R327) -/

/-- The trailer word: CRC-32C of what stands before it, and zero. -/
def trailer (bs : List Nat) : List Nat := le 4 (crc32c bs) ++ [0, 0, 0, 0]

/-- The words of a frame, with an idle word behind an odd one: a frame begins on lane 0 (log entry 20). -/
def frameWords (bs : List Nat) : List Nat :=
  let n := roundUp bs.length 16 / 8
  (List.range n).map fun i => fld (slice bs (8 * i) 8) 0 8

/-- One bit through the self-synchronous scrambler x^58 + x^39 + 1: the register's new value, the newest bit lowest. -/
def scrambleBit (st d : Nat) : Nat := (2 * st + (d + st / 2 ^ 38 + st / 2 ^ 57) % 2) % 2 ^ 58

/-- A word through the scrambler, bit 0 first: the register after it, and the word sent. -/
def scrambleWord (st w : Nat) : Nat × Nat :=
  (List.range 64).foldl (fun (x : Nat × Nat) i =>
    let s := scrambleBit x.1 (w / 2 ^ i % 2)
    (s, x.2 + s % 2 * 2 ^ i)) (st, 0)

/-- The alignment word of a lane. -/
def alignWord (lane : Nat) : Nat := 0xA5C30F5A00000000 + lane

/-- The words that the two lanes send next, before scrambling: alignment words once every 16,384 words, else those of a frame, else idle words. -/
def Link.nextWords (k : Link) : Nat × Nat :=
  if k.laneCount = 0 then (alignWord 0, alignWord 1) else (nth k.txWords 0, nth k.txWords 1)

/-- The lanes have sent a word each. -/
def Link.afterWords (k : Link) : Link × Nat × Nat :=
  let a := scrambleWord k.lanes.1 k.nextWords.1
  let b := scrambleWord k.lanes.2 k.nextWords.2
  ({ k with lanes := (a.1, b.1), laneCount := (k.laneCount + 1) % 16384, txWords := if k.laneCount = 0 then k.txWords else k.txWords.drop 2 }, a.2, b.2)

end Sys2Proof.Machine
end

