-- ==== Sys2Proof/Machine/Links.lean ====
section
/-!
DEFINITION. Machine/Links.lean: the frames of culverts and fabric ports (R323, R324), the hop reliability protocol (R328), credit and
custody (R361, R370), the liveness of links (R341, R343), failover, replay and its windows (R340–R344), the draws from the random bit
generator (R519) and the state of the sessions (R520–R527). Ports are numbered as in resource class 0x8 (R96): culverts from 0,
fabric ports from 0x200. A received frame stands from its link header on, what Machine/Wire.lean puts around it removed (log entry 20).
-/
namespace Sys2Proof.Machine

/-! ### Ports -/

/-- The port is a culvert. -/
def isCulvert (p : Nat) : Bool := decide (p < 0x200)

/-- The index of a fabric port. -/
def fabIndex (p : Nat) : Nat := p - 0x200

/-- A latency in 2^-4 ns as 2^-16 ns. -/
def fine (v : Nat) : Int := (v : Int) * 4096

/-- The port exists in this profile (R30). -/
def Hw.portExists (h : Hw) (p : Nat) : Bool :=
  if isCulvert p then p < h.culverts else 0x200 ≤ p && p < 0x200 + h.fabrics

/-- The page of a port. -/
def linkPage (p : Nat) : Nat := if isCulvert p then 0x2C else 0x28

/-- The port is in service: INSVC of a culvert, EN of a fabric port, with its page RUNNING or draining (R87). -/
def Hw.inService (h : Hw) (p : Nat) : Bool :=
  let st := h.state (linkPage p)
  h.portExists p && h.pwr.core && (st == 2 || st == 3 || st == 6) &&
    (if isCulvert p then h.on (R.CUL_PORT_CTL_INSVC.at p) else h.on (R.FAB_PORT_CFG_EN.at (fabIndex p)))

/-- CUL_PHY_RST of a culvert port (R47, R49, R94): asserted while INSVC is 0, and while the page is OFF or aborts (log entry 144). -/
def Hw.phyReset (h : Hw) (p : Nat) : Bool :=
  !h.pwr.core || !h.on (R.CUL_PORT_CTL_INSVC.at p) || h.state 0x2C == 0 || h.state 0x2C == 4

/-- The fabric port is a long-haul hop (R344). -/
def Hw.longhaul (h : Hw) (p : Nat) : Bool := !isCulvert p && h.on (R.FAB_PORT_CFG_LONGHAUL.at (fabIndex p))

/-- The window of a class on a link (R361). -/
def Hw.window (h : Hw) (p c : Nat) : Nat :=
  if isCulvert p then (if c < 3 then 4608 else 32768)
  else if h.longhaul p then (if c < 3 then 262144 else 6291456)
  else if c < 3 then 16384 else 262144

/-- The guard around a period boundary (R371), in ns. -/
def Hw.ackGuard (h : Hw) (p : Nat) : Nat := if h.longhaul p then 20000 else 1000

/-- A link that has carried nothing. -/
def Link.blank (p : Nat) : Link :=
  { port := p, up := false, phy := false, txNext := List.replicate 8 0, rxNext := List.replicate 8 0, retained := [], custody := [],
    unack := List.replicate 8 0, lastRx := 0, lastTx := 0, lastHello := 0, upSince := 0, downSince := 0, peerNode := 0,
    peerState := 0, peerIdent := 0, peerServo := 0, peerLost := false, ackDue := false,
    hunting := false, delayNs := 0, probeT := none, probeRx := none, rr := 2, deficit := List.replicate 8 0,
    fresh := List.replicate 8 1, bucket := 524288000, bucketFrc := 0, lastAck := 0, lastProbe := 0, exch := none,
    unackRep := List.replicate 8 0, txEnd := 0, txQueue := 0, sources := [], txWords := [], lanes := (0, 0), laneCount := 0 }

/-- The state of a link. -/
def Hw.link (h : Hw) (p : Nat) : Link := (h.fab.links.find? fun k => k.port == p).getD (Link.blank p)

/-- Store a link's state. -/
def Hw.putLink (h : Hw) (k : Link) : Hw :=
  { h with fab := { h.fab with links := k :: h.fab.links.filter fun x => x.port != k.port } }

/-- Change a link's state. -/
def Hw.onLink (h : Hw) (p : Nat) (f : Link → Link) : Hw := h.putLink (f (h.link p))

/-- LINK of a port (R357, R358): on a culvert 0 absent, 1 out of service, 2 training, 3 up, 4 down; on a fabric port 0 absent, 1 down, 2 up. -/
def Hw.linkState (h : Hw) (p : Nat) : Nat :=
  let k := h.link p
  if isCulvert p then
    if h.absent (0x8000 + p) then 0 else if !h.inService p then 1 else if k.up then 3 else if k.upSince != 0 || !k.phy then 4 else 2
  else if !h.inService p then 0 else if k.up then 2 else 1

/-- Show a link's state in its page (R357, R358). -/
def Hw.showLink (h : Hw) (p : Nat) : Hw :=
  let k := h.link p
  let f := if isCulvert p then R.CUL_PORT_STAT_LINK.at p else R.FAB_PORT_STAT_LINK.at (fabIndex p)
  let st := h.linkState p
  let h := if h.g f = st then h else (h.s f st).blockEvent 7 p st
  if isCulvert p then h else
    let h := h.s (R.FAB_PORT_STAT_NEIGHBOUR.at (fabIndex p)) k.peerNode
    h.s (R.FAB_PORT_STAT_DELAY.at (fabIndex p)) (min (ceilDiv k.delayNs 1000) 0xFFFF)

/-! ### The random bit generator and the root-of-trust port (R72, R519) -/

/-- `n` free values of 64 bits as one number: what the generator draws (log entry 3). -/
def Hw.draw64 : Nat → Hw → Nat × Hw
  | 0, h => (0, h)
  | n + 1, h =>
    let a := h.fresh
    let b := Hw.draw64 n a.2
    (a.1 + 2 ^ 64 * b.1, b.2)

/-- One request to the generator of `n` 64-bit words. -/
def Hw.draw (h : Hw) (n : Nat) : Nat × Hw :=
  let a := Hw.draw64 n h
  (a.1, { a.2 with sec := { a.2.sec with drbgReqs := a.2.sec.drbgReqs + 1 } })

/-- Put a request on the root-of-trust service port: services 0 blob, 1 certificate, 2 signature, 3 verification, 4 entropy. -/
def Hw.rotAsk (h : Hw) (svc : Nat) (bytes : List Nat) (w : RotFor) : Hw :=
  let id := h.sec.rotNext
  Hw.emit { h with sec := { h.sec with rot := h.sec.rot ++ [⟨id, h.frc, w⟩], rotNext := id + 1 } } (.rotRequest svc id bytes)

/-! ### Sessions -/

/-- A port without a session. -/
def Session.blank (p : Nat) : Session :=
  { port := p, up := false, gen := 0, upFrc := 0, key := 0, sent := 0, oldKey := none, oldFrom := none, step := 0, newGen := 0,
    scalar := 0, nonce := [], pub := [], peerOffer := [], sig := [], peerSig := [], offerNext := true, backoffMs := 10,
    retryFrc := none, tagFails := 0 }

def Hw.session (h : Hw) (p : Nat) : Session := (h.sec.sessions.find? fun s => s.port == p).getD (Session.blank p)

/-- The link's session is up (R525). -/
def Hw.sessionUp (h : Hw) (p : Nat) : Bool := (h.session p).up

/-- SEC_PSTAT STATE of a session (R533). -/
def Session.state (s : Session) : Nat :=
  if s.up then (if s.step = 0 then 2 else 3) else if s.step ≠ 0 then 1 else if s.retryFrc.isSome then 4 else 0

/-- Store a session and show it in the SEC page (R533). -/
def Hw.putSession (h : Hw) (s : Session) : Hw :=
  let h := { h with sec := { h.sec with sessions := s :: h.sec.sessions.filter fun x => x.port != s.port } }
  let h := (h.s (R.SEC_PSTAT_STATE.at s.port) s.state).s (R.SEC_PSTAT_GEN.at s.port) (if s.up then s.gen % 256 else 0)
  h.s R.SEC_SESSIONS_UP (h.sec.sessions.filter fun x => x.up).length

/-- Agreements may start: the page RUNNING, the blob accepted, the certificate held, the generator seeded (R519, R527, R531). -/
def Hw.mayAgree (h : Hw) : Bool :=
  h.running 0x50 && h.g R.SEC_STAT_BLOB == 1 && !h.sec.cert.isEmpty && h.sec.seeded && !h.sec.reseedLost

/-- Start an agreement of generation `gen` on a link: a fresh key pair and nonce (R520). -/
def Hw.startAgreement (h : Hw) (p gen : Nat) : Hw :=
  if !h.mayAgree || !h.portExists p then h else
  let a := h.draw 6
  let b := a.2.draw 4
  let s := b.2.session p
  b.2.putSession { s with step := 1, newGen := gen, scalar := a.1, nonce := le 32 b.1, pub := Config.p384Public a.1, peerOffer := [],
                          sig := [], peerSig := [], offerNext := true, retryFrc := none }

/-- The generation of the next agreement on a link (R526). -/
def Session.nextGen (s : Session) : Nat := if s.up then s.gen + 1 else 0

/-! ### The time source of a leaf (R125) -/

/-- Culvert A, else B, where the link is up and the node behind it is LOCKED without TIME_LOST (R124). -/
def Hw.bestCulvert (h : Hw) : Nat :=
  let usable (p : Nat) : Bool := let k := h.link p; k.up && k.peerServo == 3 && !k.peerLost
  if usable 0 then 1 else if usable 1 then 2 else 0

/-- A leaf's source follows its culverts. -/
def Hw.pickCulvert (h : Hw) : Hw := if h.g R.TIM_CFG_SOURCE = 1 then h.useSource h.bestCulvert true else h

/-! ### Link down and up -/

/-- Records of a link's retained frames that no ACK has covered yet. -/
def Link.unracked (k : Link) : Nat := total (k.retained.map fun t => if t.racked then 0 else t.recs.length)

/-- The two homes of a leaf after a change of a culvert (R341, R375): ACTIVE follows, a fall of A fails over with FUNC_IRQ FAILOVER. A leaf that
has rehomed no longer counts as rehomed once either culvert falls: A by R375, B since it sends on A again (log entry 145). -/
def Hw.leafHomes (h : Hw) : Hw :=
  match h.prof with
  | .l =>
    let a := (h.link 0).up
    let b := (h.link 1).up
    let was := h.g R.CUL_LEAF_ACTIVE
    let now := if was = 1 then (if a then 1 else if b && h.on R.CUL_LEAF_REGISTERED then 2 else 0)
      else if was = 2 then (if b then 2 else if a then 1 else 0)
      else if a then 1 else if b && h.on R.CUL_LEAF_REGISTERED then 2 else 0
    let h := h.s R.CUL_LEAF_ACTIVE now
    let h := if was = 1 && now = 2 then h.raise 0x2C 17 else h
    let h := if now != 0 && h.fab.replayMix then
        let h := { h with fab := { h.fab with replayMix := false } }
        if h.flw.held.any fun x => x.keptBy.isSome then h.choice 1 else h
      else h
    if !(a && b) && h.on R.FLW_STAT_REHOMED then h.s R.FLW_STAT_REHOMED 0 else h
  | _ => h

/-- The replay of records taken back from a link changes how the records of a stream lie among those of others (R336): since the first transmission of
one of them, a record of another stream has gone out on the link (log entry 146). -/
def Link.mixes (k : Link) (recs : List HeldRec) : Bool :=
  recs.any fun x => k.sources.any fun s => s.1 != x.r.source && (match x.firstSent with | some t => decide (t ≤ s.2) | none => false)

/-- A failover whose replay changes the interleaving of a stream counts one choice under cause 1 (R281, R336); a leaf without a home has its failover
when it has one again. -/
def Hw.failoverChoice (h : Hw) (mixes : Bool) : Hw :=
  if !mixes then h
  else if h.prof == .l && h.g R.CUL_LEAF_ACTIVE == 0 then { h with fab := { h.fab with replayMix := true } }
  else h.choice 1

/-- The link misses what the trigger path asks of it (R410): it is down, a culvert's PHY latency with the propagation exceeds 60 ns in a
direction, or the fabric hop is a long-haul hop or takes more than 1 µs. -/
def Hw.triggerMiss (h : Hw) (p : Nat) : Bool :=
  let k := h.link p
  !k.up || (if isCulvert p then 960 < max (h.g (R.CUL_LAT_TX.at p)) (h.g (R.CUL_LAT_RX.at p)) + 16 * k.delayNs else h.longhaul p || 1000 < k.delayNs)

/-- The links of this part's trigger path (R409, R411): the culvert in use of a leaf, both while none is; a node's culverts with a registered
leaf, and its fabric links in service that have had a neighbour (log entry 147). -/
def Hw.triggerLinks (h : Hw) : List Nat :=
  match h.prof with
  | .l => if !h.on R.CUL_LEAF_REGISTERED then [] else (match h.g R.CUL_LEAF_ACTIVE with | 1 => [0] | 2 => [1] | _ => [0, 1])
  | _ => (h.fab.links.filter fun k => h.inService k.port &&
      (if isCulvert k.port then h.on (R.CUL_PORT_STAT_REG.at k.port) else k.up || k.peerIdent != 0)).map fun k => k.port

/-- The trigger fan-out guarantee (R26, R410): condition 0x0C while a link of the trigger path misses, or a node lies more
than 14 hops away. -/
def Hw.triggerCond (h : Hw) : Hw :=
  if h.triggerLinks.any h.triggerMiss || h.fab.routes.any fun r => 14 < r.hops then h.breach 10 0x0C 0 else h.restore 10 0x0C

/-- A culvert that is tied off counts as out of service, and never as a lost home (R76). -/
def Hw.homeGone (h : Hw) (p : Nat) : Bool := !(h.link p).up && !h.absent (0x8000 + p)

/-- The conservation guarantee needs one of a leaf's two homes (R26): condition 0x01 while both culverts are down. -/
def Hw.homesCond (h : Hw) : Hw :=
  match h.prof with
  | .l =>
    if h.on R.CUL_LEAF_REGISTERED && h.homeGone 0 && h.homeGone 1 then h.breach 1 0x01 0 else h.restore 1 0x01
  | _ => h

/-- Where the region of a long-haul hop keeps slot `n` of its retained frames (R344, log entry 168). -/
def Hw.slotAddr (h : Hw) (p n : Nat) : Nat :=
  h.g64 (R.FAB_LH_BASE_LO_ADDR.at (fabIndex p)) (R.FAB_LH_BASE_HI_ADDR.at (fabIndex p)) + n * 4608

/-- The lowest slot that no retained frame of a link has. -/
def Link.freeSlot (k : Link) : Nat :=
  ((List.range (k.retained.length + 1)).find? fun n => !(k.retained.any fun t => t.slot == n)).getD 0

/-- A frame that a long-haul hop sends again is read from its region (R344, log entry 168). -/
def Hw.readRetained (h : Hw) (p : Nat) (t : TxFrame) : Hw :=
  if h.longhaul p && t.kind == 4 then h.dmaRead h.operCtx (h.slotAddr p t.slot) t.bytes.length (.longhaul p) else h

/-- A link is declared down (R341, R343, R370): LINK_LOST, LINK_DOWN, the counts; each uncustodied record is taken back in its original
order, those that were counted FORWARDED as RECLAIMED; the records received since the last ACK are counted now (log entry 21). -/
def Hw.linkDown (h : Hw) (p : Nat) : Hw :=
  let k := h.link p
  if !k.up then h.showLink p else
  let h := h.each (List.range 8) fun h c =>
    let back := total ((k.retained.filter fun t => t.cls == c && t.racked).map fun t => t.recs.length)
    let all := total ((k.retained.filter fun t => t.cls == c).map fun t => t.recs.length)
    ((h.ledger c fun l => { l with reclaimed := l.reclaimed + back, received := l.received + nth k.unack c }).occupy c all 0)
  let recs := (k.retained.filter fun t => t.kind == 4).flatMap fun t => t.recs.map fun x => { x with r := { x.r with replay := true }, keptBy := some p }
  let h := { h with flw := { h.flw with held := recs ++ h.flw.held } }
  let h := h.each (k.retained.filter fun t => t.kind == 4) fun h t => h.readRetained p t
  let fall (r : Round) : Round := if r.sent then r else { r with fell := k.peerNode :: r.fell }
  let h := if isCulvert p then h else { h with red := { h.red with rounds := h.red.rounds.map fall } }
  let h := h.putLink { k with up := false, downSince := h.frc, peerServo := 0, probeT := none, probeRx := none, retained := [], custody := [], unack := List.replicate 8 0,
                              unackRep := List.replicate 8 0, ackDue := false, txWords := [], exch := none, txEnd := 0 }
  let h := if isCulvert p then h.inc (R.CUL_DOWNS_COUNT.at p) else h.inc (R.FAB_PORT_DOWNS_COUNT.at (fabIndex p))
  let h := (h.raise (linkPage p) (if isCulvert p then 16 else 22)).event 0x0032 1 (le 2 p)
  let h := { h with fab := { h.fab with lsaDirty := true, dbDirty := true } }
  ((((h.showLink p).leafHomes.failoverChoice (k.mixes recs)).homesCond.triggerCond).levee).pickCulvert

/-- A link comes up: hop sequence numbers begin at 0 at both ends (log entry 22). -/
def Hw.linkUp (h : Hw) (p : Nat) : Hw :=
  let k := h.link p
  if k.up || !h.sessionUp p || !h.inService p then h else
  let h := h.putLink { k with up := true, upSince := h.frc, lastRx := h.frc, lastAck := h.frc, txNext := List.replicate 8 0,
                              rxNext := List.replicate 8 0, retained := [], custody := [], unack := List.replicate 8 0,
                              unackRep := List.replicate 8 0, ackDue := false, sources := [] }
  let h := { h with fab := { h.fab with lsaDirty := true, dbDirty := true } }
  (h.showLink p).leafHomes.homesCond.triggerCond

/-- A session ends: its keys are erased, and the link is down for telemetry (R527). -/
def Hw.endSession (h : Hw) (p : Nat) : Hw :=
  let s := h.session p
  (h.putSession { Session.blank p with tagFails := 0, newGen := s.newGen }).linkDown p

/-! ### Frames -/

/-- The fields of a frame (R323). -/
structure Frame where
  kind : Nat
  cls : Nat
  replay : Bool
  routed : Bool
  src : Nat
  dst : Nat
  hseq : Nat
  pfx : List Nat
  payload : List Nat
deriving DecidableEq, Repr

/-- Read a frame: none where R324 discards it. -/
def parseFrame (bs : List Nat) : Option Frame :=
  let vk := nth bs 0
  let cf := nth bs 1
  let len := fld bs 6 2
  let pl := if bit cf 4 then 34 else 0
  if bs.length < 16 + pl + len ∨ vk % 16 ≠ 1 ∨ 8 < vk / 16 ∨ 32 ≤ cf ∨ 4096 ≤ fld bs 2 2 ∨ 4096 ≤ fld bs 4 2 ∨ fld bs 12 4 ≠ 0
  then none
  else some { kind := vk / 16, cls := cf % 8, replay := bit cf 3, routed := bit cf 4, src := fld bs 2 2, dst := fld bs 4 2,
              hseq := fld bs 8 4, pfx := slice bs 16 pl, payload := slice bs (16 + pl) len }

/-- LEN of a culvert's frame does not fit it: a receiver that finds this hunts (R327). -/
def lenMisfit (bs : List Nat) : Bool := bs.length < 16 + (if bit (nth bs 1) 4 then 34 else 0) + fld bs 6 2

/-- The bytes of a frame. -/
def Frame.bytes (f : Frame) : List Nat :=
  [1 + 16 * f.kind, f.cls + 8 * b2n f.replay + 16 * b2n f.routed] ++ le 2 f.src ++ le 2 f.dst ++ le 2 f.payload.length ++ le 4 f.hseq
    ++ le 4 0 ++ f.pfx ++ f.payload

/-- SRC of the frames built here (R323). -/
def Hw.frameSrc (h : Hw) : Nat := match h.prof with | .l => 0 | _ => h.g R.FAB_ID_NODE

/-- The timestamp state of fabric port `i`. -/
def Hw.ptpPort (h : Hw) (i : Nat) : PtpPort :=
  (h.ptp.ports.find? fun x => x.port == i).getD ⟨i, [], false, false, 0, [], none, 0, none, 0, none, []⟩

def Hw.putPort (h : Hw) (x : PtpPort) : Hw :=
  { h with ptp := { h.ptp with ports := x :: h.ptp.ports.filter fun y => y.port != x.port } }

/-- A frame other than a PTP message leaves: its pulse on a fabric port is the next but for those before it (R53). -/
def Hw.noteSent (h : Hw) (p : Nat) : Hw :=
  if isCulvert p || !h.running 0x05 then h else
  let x := h.ptpPort (fabIndex p)
  h.putPort { x with sent := x.sent ++ [(3, 0, 0)] }

/-- Change the state of a port of the PTP page. -/
def Hw.onPort (h : Hw) (i : Nat) (f : PtpPort → PtpPort) : Hw := h.putPort (f (h.ptpPort i))

/-- The predicted egress of a frame whose first beat is accepted now (R55). -/
def Hw.egress (h : Hw) (i : Nat) : Nat := ((h.nt : Int) + fine (h.g (R.PTP_TX_LAT_LAT.at i))).toNat

/-- Send a PTP frame on port `i`, in clear under its own EtherType (R52, R126, R524); `what` is as in `PtpPort.sent`. -/
def Hw.ptpSend (h : Hw) (i what seq : Nat) (bs : List Nat) : Hw :=
  let t := h.egress i
  (h.onPort i fun x => { x with sent := x.sent ++ [(what, t, seq)] }).emit (.ptpFrame (0x200 + i) 0x88F7 (ptpMac ++ h.macFrom i ++ be 2 0x88F7 ++ bs))

/-- The EtherType before a frame (R52, R323, R525): MACsec's under a session, else that of telemetry; a culvert's frame opens with its header. -/
def Hw.etherType (h : Hw) (p : Nat) : Nat := if isCulvert p then 0 else if h.sessionUp p then 0x88E5 else 0x88B5

/-- The direction of this end's frames on a link (R522): from lo to hi, or from hi to lo. -/
def Hw.sendDir (h : Hw) (p : Nat) : Nat := b2n (h.fab.ident < (h.link p).peerIdent)

/-- The words that something sent puts on a culvert's lanes (R327, R523); a probe's payload has an open layout (log entry 62). -/
def Hw.laneWords (h : Hw) (p : Nat) (o : Out) : List Nat :=
  if !isCulvert p then [] else
  match o with
  | .frame _ _ bs => frameWords bs
  | .probe _ hdr fs =>
    let bs := (h.session p).culvertBody (h.sendDir p) 7 (padMul 8 (hdr ++ fit (Config.probeLen % 4096) (Config.probeBody fs)))
    frameWords (bs ++ trailer bs)
  | _ => []

/-- Something leaves a port: its words wait for the lanes of a culvert, the frame counter of its session grows, and at 2^62 a new agreement
starts (R526). -/
def Hw.sendOut (h : Hw) (p : Nat) (o : Out) : Hw :=
  let ws := h.laneWords p o
  let h := Hw.emit ((h.onLink p fun k => { k with lastTx := h.frc, txWords := k.txWords ++ ws }).noteSent p) o
  let s := h.session p
  if s.up then
    let h := h.putSession { s with sent := s.sent + 1 }
    if s.sent + 1 = 2 ^ 62 then h.startAgreement p (s.gen + 1) else h
  else h

/-- Frames of a kind pass at the port: in service, or KEEPALIVE frames on the links that an abort of the FAB page left up (R94). -/
def Hw.carries (h : Hw) (p kind : Nat) : Bool :=
  h.inService p || (kind == 1 && !isCulvert p && h.portExists p && h.pwr.core && h.on (R.FAB_PORT_CFG_EN.at (fabIndex p)) &&
    (h.state 0x28 == 0 || h.state 0x28 == 4 || h.state 0x28 == 1) && (h.link p).up)

/-- A frame as it leaves the port: on a culvert padded, protected and with its trailer (R327, R523), on a fabric port with its Ethernet header and
under MACsec (R51, R52, R524). Which address a fabric frame goes to no rule gives (log entry 20). -/
def Hw.wireFrame (h : Hw) (p : Nat) (f : Frame) : List Nat :=
  let s := h.session p
  if isCulvert p then
    let bs := s.culvertBody (h.sendDir p) f.kind (padMul 8 f.bytes)
    bs ++ trailer bs
  else s.streamBody (h.sendDir p) (fit 6 (Config.macTo p) ++ h.macFrom (fabIndex p)) f.bytes

/-- A frame leaves the port (R525): nothing but HELLO before the first session. -/
def Hw.sendFrame (h : Hw) (p : Nat) (f : Frame) : Hw :=
  let k := h.link p
  if !h.carries p f.kind || (isCulvert p && !k.phy) || (f.kind != 0 && !h.sessionUp p) then h else
  h.sendOut p (.frame p (h.etherType p) (h.wireFrame p f))

/-- The lanes of a culvert send a word each, every second tick (R47): the words that wait, alignment and idle words. -/
def Hw.laneTick (h : Hw) : Hw :=
  if h.frc % 2 = 1 then h else
  h.each (h.fab.links.filter fun k => isCulvert k.port && k.phy && h.inService k.port) fun h k =>
    let a := k.afterWords
    (h.putLink a.1).emit (.lanes k.port a.2.1 a.2.2)

/-- Send a frame of the hop reliability protocol (R328): it takes the next HSEQ of its class and is retained. -/
def Hw.sendRel (h : Hw) (p kind cls dst : Nat) (recs : List HeldRec) (f : Frame) : Hw :=
  let k := h.link p
  if !k.up then h else
  let f := { f with kind := kind, cls := cls, dst := dst, hseq := nth k.txNext cls }
  let t : TxFrame := { cls := cls, hseq := f.hseq, kind := kind, bytes := f.bytes, recs := recs, sentFrc := h.frc, racked := false,
                       replay := f.replay, slot := k.freeSlot }
  (h.putLink { k with txNext := setAt k.txNext cls (succ32 f.hseq), retained := k.retained ++ [t] }).sendFrame p f

/-- A plain frame of a kind and payload to the link peer. -/
def Hw.plainFrame (h : Hw) (kind cls : Nat) (payload : List Nat) : Frame :=
  { kind := kind, cls := cls, replay := false, routed := false, src := h.frameSrc, dst := 0xFFF, hseq := 0, pfx := [], payload := payload }

/-- Flood a class 1 message of a kind on every fabric port that is up, but one. -/
def Hw.flood (h : Hw) (kind : Nat) (payload : List Nat) (but : Option Nat) : Hw :=
  h.each ((h.fab.links.filter fun (k : Link) => !isCulvert k.port && k.up && some k.port != but).map fun k => k.port) fun h p =>
    h.sendRel p kind 1 0xFFF [] (h.plainFrame kind 1 payload)

/-- A discarded frame counts in the port's error count (R324). -/
def Hw.discard (h : Hw) (p : Nat) : Hw := if isCulvert p then h.inc (R.CUL_CRC_COUNT.at p) else h.inc R.FAB_FRAME_DISC_COUNT

/-- The generation that an OFFER's GEN names (R520, R525): 0, or while a session is up one above the current generation, of which GEN holds the
remainder modulo 256: 1 to 127 above (log entry 191). None where it lies above neither. -/
def Session.genOf (s : Session) (gen : Nat) : Option Nat :=
  let d := (gen + 256 - s.gen % 256) % 256
  if !s.up || gen == 0 then some gen else if 1 ≤ d ∧ d < 128 then some (s.gen + d) else none

/-- A HELLO that carries an OFFER of GEN 0, or of a GEN above the current one, is taken in clear (R525). -/
def Session.clearHello (s : Session) (f : Frame) : Bool :=
  f.kind == 0 && nth f.payload 13 == 1 && (s.genOf (nth f.payload 14)).isSome

/-! ### Receive timestamps of fabric ports (R53, R54) -/

/-- A frame arrives on a fabric port: it takes the oldest pulse. One that finds none, or that arrives while the queue has overflowed, has
no timestamp and counts; the first frame after 2 µs without traffic aligns the queue again. -/
def Hw.takeStamp (h : Hw) (p : Nat) : Option Nat × Hw :=
  if isCulvert p || !h.portExists p || !h.running 0x05 then (none, h) else
  let x := h.ptpPort (fabIndex p)
  let x := if (x.beyond || x.astray) && x.lastRx + 2000 ≤ h.frc then { x with stamps := x.stamps.drop (x.stamps.length - 1), beyond := false, astray := false }
    else x
  let x := { x with lastRx := h.frc }
  match x.stamps with
  | t :: l =>
    if x.beyond then (none, (h.putPort { x with stamps := l }).inc (R.PTP_TS_MISS_COUNT.at x.port)) else (some t, h.putPort { x with stamps := l })
  | [] => (none, (h.putPort { x with astray := true }).inc (R.PTP_TS_MISS_COUNT.at x.port))

/-- Bytes of a fabric frame around its link frame while MACsec is in force (R51, R524): two MAC addresses, a SecTAG of 8 bytes without SCI, the
EtherType and the ICV. -/
def fabricCover : Nat := 6 + 6 + 8 + 2 + 16

/-- The bytes of a received frame from the destination MAC address to the end of the payload (R51): 14 of a header in clear, or with the SecTAG
and the ICV of MACsec. -/
def wireBytes (sec n : Nat) : Nat := n + (if sec = 0 then 14 else fabricCover)

/-- Reception of a frame, by port and protection: `sec` is 0 in clear, 1 under the keys in force, 2 with a failed tag, 3 under
the keys that they replaced, 4 for a frame that ends with FRX_ERR (R51). A frame passes to `k` where R51, R324, R523 and R525 let it (log entry 20). -/
def Hw.receive (h : Hw) (p sec : Nat) (bs : List Nat) (kind : Nat) (k : Frame → Hw → Hw) : Hw :=
  let h := (h.takeStamp p).2
  let l := h.link p
  let s := h.session p
  if !h.carries p kind || (isCulvert p && (!l.phy || l.hunting)) then h
  else if !isCulvert p && (sec = 4 || 9216 < wireBytes sec bs.length) then h.discard p
  else if sec = 2 then
    if !s.up then h else
    let h := (h.inc (R.SEC_TAG_FAIL_COUNT.at p)).putSession { s with tagFails := s.tagFails + 1 }
    if isCulvert p && s.tagFails + 1 == 16 then
      ((h.putSession { s with tagFails := 0 }).linkDown p).startAgreement p (s.gen + 1)
    else h
  else match parseFrame bs with
  | none => (if isCulvert p && lenMisfit bs then h.onLink p fun k => { k with hunting := true } else h).discard p
  | some f =>
    if f.kind ≠ kind then h
    else if sec = 0 ∧ s.up then
      if s.clearHello f then k f (h.onLink p fun x => { x with lastRx := h.frc }) else h.inc (R.SEC_CLEAR_DISC_COUNT.at p)
    else if sec = 0 then (if kind = 0 then k f (h.onLink p fun x => { x with lastRx := h.frc }) else h)
    else if !s.up || (sec = 3 && s.oldKey.isNone) then h
    else
      let from_ := if sec = 1 && s.oldKey.isSome && s.oldFrom.isNone then some h.frc else s.oldFrom
      let h := h.putSession { s with tagFails := 0, oldFrom := from_, sig := if sec = 1 && s.step == 0 then [] else s.sig }
      k f (h.onLink p fun x => { x with lastRx := h.frc })

/-- The receiving side of R328 for a reliable frame carrying `n` records to answer for, `got` of them to be counted as received: in
order it passes, and an ACK is due; one received before is acknowledged again; one beyond a hole is discarded. -/
def Hw.acceptRel (h : Hw) (p : Nat) (f : Frame) (left got : Nat) : Hw × Bool :=
  let k := h.link p
  let want := nth k.rxNext f.cls
  if f.hseq ≠ want then (h.putLink { k with ackDue := true }, false)
  else (h.putLink { k with rxNext := setAt k.rxNext f.cls (succ32 want), ackDue := true, unack := bump k.unack f.cls got,
                           unackRep := if f.replay then bump k.unackRep f.cls got else k.unackRep,
                           custody := k.custody ++ [⟨f.cls, f.hseq, left, if f.kind = 4 then f.bytes.length else 0⟩] }, true)

/-! ### KEEPALIVE and ACK -/

/-- The last HSEQ received in a class. -/
def Link.lastSeq (k : Link) (c : Nat) : Nat := (nth k.rxNext c + 2 ^ 32 - 1) % 2 ^ 32

/-- CACK of a class: the last frame before the first that this hop still answers for (R328). -/
def Link.cack (k : Link) (c : Nat) : Nat :=
  match k.custody.find? fun x => x.cls == c && x.left != 0 with
  | some x => (x.hseq + 2 ^ 32 - 1) % 2 ^ 32
  | none => k.lastSeq c

/-- KEEPALIVE_TX (R324): every 10 µs on a fabric port and 4 µs on a culvert when no other frame has gone. -/
def execKeepaliveTx (p : Nat) (s : State) : Result := s.go fun h =>
  let k := h.link p
  if k.up && k.lastTx + (if isCulvert p then 4000 else 10000) ≤ h.frc then
    h.sendFrame p (h.plainFrame 1 1 ((List.range 8).flatMap fun c => le 4 (k.lastSeq c)))
  else h

/-- Resend the frames of a class from the first that RACK does not cover (R328), once a round trip has passed since it was sent. -/
def Hw.goBack (h : Hw) (p c rack : Nat) : Hw :=
  let k := h.link p
  let open_ := k.retained.filter fun t => t.cls == c && !t.racked && !ahead32 rack t.hseq
  match open_.head? with
  | none => h
  | some t0 =>
    if t0.sentFrc + 2 * k.delayNs < h.frc then
      let h := h.putLink { k with retained := k.retained.map fun t => if open_.contains t then { t with sentFrc := h.frc } else t }
      let h := if isCulvert p then h else h.add (R.FAB_PORT_RETX_COUNT.at (fabIndex p)) open_.length
      h.each open_ fun h t => match parseFrame t.bytes with | some f => (h.readRetained p t).sendFrame p f | none => h
    else h

/-- KEEPALIVE_RX: liveness, and the peer's last HSEQ of each class, which shows a lost tail (R324, R328). -/
def execKeepaliveRx (p sec : Nat) (bs : List Nat) (s : State) : Result := s.go fun h =>
  h.receive p sec bs 1 fun f h =>
    if f.payload.length = 32 then h.each (List.range 8) fun h c => h.goBack p c (fld f.payload (4 * c) 4) else h.discard p

/-- NT[79:16] lies within G of a boundary of the running ledger period (R371). -/
def Hw.nearBoundary (h : Hw) (g : Nat) : Bool :=
  let per := h.g R.FLW_CFG_PERIOD_MS * 1000000
  let x := h.ns % per
  h.timed && (x < g || per < x + g)

/-- ACK_TX (R324, R371): every 2 µs while a frame of the peer is unacknowledged, held in the guard window. RECEIVED counts the records whose
frames this ACK's RACK first covers (R370). -/
def execAckTx (p : Nat) (s : State) : Result := s.go fun h =>
  let k := h.link p
  if h.carries p 2 && k.up && (k.ackDue || !k.custody.isEmpty) && k.lastAck + 2000 ≤ h.frc && !h.nearBoundary (h.ackGuard p) then
    let h := h.each (List.range 8) fun h c => h.ledger c fun l => { l with received := l.received + nth k.unack c }
    let h := h.sendFrame p (h.plainFrame 2 1 ((List.range 8).flatMap fun c => le 4 (k.lastSeq c) ++ le 4 (k.cack c)))
    h.onLink p fun k => { k with unack := List.replicate 8 0, unackRep := List.replicate 8 0, ackDue := false, lastAck := h.frc,
                                 custody := k.custody.filter fun x => !ahead32 (k.cack x.cls) x.hseq }
  else h

/-- Count `n` records FORWARDED by an ACK that arrives now on a link (R370, R371): in the period of its send instant, the arrival less the delay. -/
def Hw.forwarded (h : Hw) (p c n : Nat) (replay : Bool) : Hw :=
  let add (l : LedRow) : LedRow := { l with forwarded := l.forwarded + n }
  if h.pastEnd && h.ns < h.periodEnd + (h.link p).delayNs then
    let h := h.ledgerOld c add
    if replay then { h with flw := { h.flw with replayEnd := h.flw.replayEnd.map fun l => setAt l c (nth l c - n) } } else h
  else h.ledger c add

/-- What RACK and CACK of one class do (R328, R361, R370): the frames covered count FORWARDED and settle their records upstream, the
custodied ones leave the retention store, and frames beyond RACK are resent. -/
def Hw.ackClass (h : Hw) (p c rack cack : Nat) : Hw :=
  let k := h.link p
  let now := k.retained.filter fun t => t.cls == c && !t.racked && ahead32 rack t.hseq
  let marked := k.retained.map fun t => if now.contains t then { t with racked := true } else t
  let h := h.putLink { k with retained := marked.filter fun t => !(t.cls == c && t.racked && ahead32 cack t.hseq) }
  let h := h.each now fun h t =>
    let h := h.forwarded p c t.recs.length t.replay
    h.each t.recs fun h x => h.settleRec x
  h.goBack p c rack

/-- ACK_RX (R328): 8 pairs of RACK and CACK. -/
def execAckRx (p sec : Nat) (bs : List Nat) (s : State) : Result := s.go fun h =>
  h.receive p sec bs 2 fun f h =>
    if f.payload.length = 64 then
      h.each (List.range 8) fun h c => h.ackClass p c (fld f.payload (8 * c) 4) (fld f.payload (8 * c + 4) 4)
    else h.discard p

/-! ### Liveness of culverts and fabric links -/

/-- CULVERT_FRAME_CRC_ERROR (R327): the frame is discarded and counted, and the receiver hunts for the next alignment word. -/
def execCulvertFrameCrcError (p : Nat) (s : State) : Result := s.go fun h =>
  if isCulvert p && h.inService p && (h.link p).phy then
    (h.inc (R.CUL_CRC_COUNT.at p)).onLink p fun k => { k with hunting := true }
  else h

/-- CULVERT_ALIGNMENT_WORD_RX (R327): a hunting receiver finds the alignment word 0xA5C3_0F5A_0000_0000 | lane. -/
def execCulvertAlignmentWordRx (p lane word : Nat) (s : State) : Result := s.go fun h =>
  if isCulvert p && h.inService p && lane < 2 && word == 0xA5C30F5A00000000 + lane then
    h.onLink p fun k => { k with hunting := false }
  else h

/-- CULVERT_PHY_DOWN (R49): a fall of CUL_PHY_RDY declares the culvert down at once. -/
def execCulvertPhyDown (p : Nat) (s : State) : Result := s.go fun h =>
  if isCulvert p && h.portExists p then ((h.onLink p fun k => { k with phy := false }).linkDown p).showLink p else h

/-- CUL_PHY_RDY_RISE (R49): the port trains, and HELLO at link start follows. A PHY held in reset is not ready. -/
def execCulPhyRdyRise (p : Nat) (s : State) : Result := s.go fun h =>
  if isCulvert p && h.portExists p && !h.absent (0x8000 + p) && !h.phyReset p then
    let h := h.onLink p fun k => { k with phy := true, hunting := true, lastRx := h.frc, lastHello := 0, upSince := 0 }
    let h := h.showLink p
    if h.inService p && (h.session p).step == 0 then h.startAgreement p (h.session p).nextGen else h
  else h

/-- CULVERT_RX_TIMEOUT (R341): no frame for 20 µs. -/
def execCulvertRxTimeout (p : Nat) (s : State) : Result := s.go fun h =>
  let k := h.link p
  if isCulvert p && k.up && k.lastRx + 20000 ≤ h.frc then h.linkDown p else h

/-- CULVERT_FAILBACK (R341): culvert A has stayed up for FAILBACK_MS; new records go on A again. -/
def execCulvertFailback (s : State) : Result := s.go fun h =>
  let k := h.link 0
  if h.prof = .l ∧ h.g R.CUL_LEAF_ACTIVE = 2 ∧ !h.on R.FLW_STAT_REHOMED ∧ k.up ∧
      k.upSince + h.g R.CUL_CFG_FAILBACK_MS * 1000000 ≤ h.frc then h.s R.CUL_LEAF_ACTIVE 1 else h

/-! ### Replay windows (R340, R344) -/

/-- Drop every uncustodied record of a retained frame (R340): the frame leaves the retention store. A record already counted FORWARDED
is taken back first, so that the hop's equation holds (R372). -/
def Hw.dropFrame (h : Hw) (p : Nat) (t : TxFrame) (reason error : Nat) : Hw :=
  let h := h.onLink p fun k => { k with retained := k.retained.filter fun x => x != t }
  h.each t.recs fun h x =>
    let h := if t.racked then h.ledger x.r.cls fun l => { l with reclaimed := l.reclaimed + 1 } else h
    h.dropHeld x reason error

/-- A leaf has lost both its homes (R22). -/
def Hw.homesLost (h : Hw) : Bool := h.prof == .l && h.homeGone 0 && h.homeGone 1

/-- REPLAY_WINDOW_EXPIRY (R22, R340): a leaf's record uncustodied 2 ms after it was first sent is dropped, with the reason HOMES_LOST where it
has lost both homes; else with REPLAY_EXCEEDED, its FUNC_IRQ and condition 0x02 of guarantee 1, paired once the window holds again. -/
def execReplayWindowExpiry (s : State) : Result := s.go fun h =>
  if h.prof ≠ .l then h else
  let old (x : HeldRec) : Bool := match x.firstSent with | some f => decide (f + 2000000 ≤ h.frc) | none => false
  let reason := if h.homesLost then 5 else 4
  let error := if h.homesLost then 0 else E.replayExceeded
  let frames := h.fab.links.flatMap fun k => (k.retained.filter fun t => t.recs.any old).map fun t => (k.port, t)
  let back := h.flw.held.filter old
  if frames.isEmpty && back.isEmpty then h.restore 1 0x02 else
  let h := h.each frames fun h pt => h.dropFrame pt.1 pt.2 reason error
  let h := h.each back fun h x => (h.release x).dropHeld x reason error
  if reason = 5 then h else ((h.raise 0x2C 21).err 0x2C E.replayExceeded).breach 1 0x02 0

/-- LONGHAUL_REPLAY_EXPIRY (R344): a frame uncustodied 8 ms after its first transmission. -/
def execLonghaulReplayExpiry (p : Nat) (s : State) : Result := s.go fun h =>
  if !h.longhaul p then h else
  let old (x : HeldRec) : Bool := match x.firstSent with | some f => decide (f + 8000000 ≤ h.frc) | none => false
  let frames := (h.link p).retained.filter fun t => t.recs.any old
  let back := h.flw.held.filter fun x => x.keptBy == some p && old x
  if frames.isEmpty && back.isEmpty then h.restore 1 0x02 else
  let h := h.each frames fun h t => h.dropFrame p t 4 E.replayExceeded
  let h := h.each back fun h x => (h.release x).dropHeld x 4 E.replayExceeded
  (h.err 0x28 E.replayExceeded).breach 1 0x02 0

/-! ### CUL_PORT_CTL INSVC (R49, R362) -/

/-- The class 0–2 windows of every link in service, in KiB (R362): `extra` culverts and fabric ports are counted as if in service. -/
def Hw.resvNeed (h : Hw) (culs fabs : List Nat) : Nat :=
  ceilDiv (3 * (4608 * culs.length + total (fabs.map fun p => h.window p 0))) 1024

/-- The culvert ports with INSVC set. -/
def Hw.culsIn (h : Hw) : List Nat := (List.range h.culverts).filter fun p => h.on (R.CUL_PORT_CTL_INSVC.at p)

/-- The fabric ports with EN set. -/
def Hw.fabsIn (h : Hw) : List Nat :=
  ((List.range h.fabrics).filter fun p => h.on (R.FAB_PORT_CFG_EN.at p)).map fun p => 0x200 + p

/-- Show FLW_RESV NEED: over the ports that the CUL and FAB pages have in service. -/
def Hw.showNeed (h : Hw) : Hw :=
  h.s R.FLW_RESV_NEED (h.resvNeed (if h.off 0x2C then [] else h.culsIn) (if h.off 0x28 then [] else h.fabsIn))

/-- CULVERT_INSVC_WRITE (R49, R97, R362): 0 takes the port out of service and holds CUL_PHY_RST; 1 returns it after the claim of its port
and the reserved-buffer check. -/
def Hw.insvcWrite (h : Hw) (p v : Nat) : Tried :=
  if h.culverts ≤ p then .error E.badValue
  else if v % 2 = 0 then
    let h := h.linkDown p
    let h := (h.endSession p).s (R.CUL_PORT_CTL_INSVC.at p) 0
    .ok ((h.onLink p fun k => { k with phy := false }).showLink p).showNeed
  else if h.absent (0x8000 + p) then .error (E.held (0x8000 + p))
  else if h.off 0x2C then .ok (h.s (R.CUL_PORT_CTL_INSVC.at p) 1)
  else if h.g R.FLW_RESV_AVAIL < h.resvNeed (p :: h.culsIn.filter (· != p)) (if h.off 0x28 then [] else h.fabsIn) then
    .error E.bufferTooSmall
  else match h.claim 0x2C [0x8000 + p] 0 with
  | .error r => .error (E.held r)
  | .ok h => .ok (((h.s (R.CUL_PORT_CTL_INSVC.at p) 1).liveUpdate 5 p (h.g (R.CUL_LAT_TX.at p) + 2 ^ 16 * h.g (R.CUL_LAT_RX.at p)) 0).showLink p).showNeed

/-- CULVERT_INSVC_WRITE (R362). -/
def execCulvertInsvcWrite (a : Acc) (v : Nat) (s : State) : Result := s.go fun h =>
  h.operWrite a 0x2C 0x054 fun h => h.insvcWrite (h.g R.CUL_SEL_PORT) v

end Sys2Proof.Machine
end

