-- ==== Sys2Proof/Machine/Sessions.lean ====
section
/-!
DEFINITION. Machine/Sessions.lean: link sessions and their agreements (R519–R527), and HELLO (R324, R325).
-/
namespace Sys2Proof.Machine

/-- OFFER (R520). -/
def Session.offer (s : Session) (cert : List Nat) : List Nat :=
  [1, s.newGen % 256] ++ le 2 cert.length ++ fit 32 s.nonce ++ fit 97 s.pub ++ [0, 0, 0] ++ cert

/-- FINISH (R520). -/
def Session.finish (s : Session) : List Nat := [2, s.newGen % 256, 0, 0] ++ fit 96 s.sig

/-- This instance's STATE in HELLO: 3 on a leaf (R325). -/
def Hw.helloState (h : Hw) : Nat := match h.prof with | .l => 3 | _ => h.g R.FAB_ID_STATE

/-- An agreement is under way on a link, or the peer has not used its keys yet. -/
def Session.busy (s : Session) : Bool := s.step != 0 || !s.sig.isEmpty

/-- The payload of a HELLO: OFFER until this end's FINISH is ready, then the two in turn (log entry 23). -/
def Hw.hello (h : Hw) (p : Nat) : List Nat :=
  let s := h.session p
  le 8 h.fab.ident ++ le 2 (if h.prof == .l || h.g R.FAB_ID_STATE == 0 then 0 else h.g R.FAB_ID_NODE) ++ [h.helloState, 0, h.prof.sel 0 1 2] ++
    (if !s.busy then [] else if s.sig.isEmpty || (s.offerNext && s.step != 0) then s.offer h.sec.cert else s.finish)

/-- Send a HELLO. -/
def Hw.sendHello (h : Hw) (p : Nat) : Hw :=
  let h := h.sendFrame p (h.plainFrame 0 1 (h.hello p))
  let h := h.onLink p fun k => { k with lastHello := h.frc }
  h.putSession { h.session p with offerNext := !(h.session p).offerNext }

/-- HELLO_TX (R324, R520): every 1 ms on a fabric port; on a culvert at link start, and every 100 µs while it agrees. -/
def execHelloTx (p : Nat) (s : State) : Result := s.go fun h =>
  let k := h.link p
  let due := if isCulvert p then
      ((h.session p).busy && k.lastHello + 100000 ≤ h.frc) || (!k.up && (k.lastHello == 0 || k.lastHello + 1000000 ≤ h.frc))
    else k.lastHello == 0 || k.lastHello + 1000000 ≤ h.frc
  if h.inService p && due then h.sendHello p else h

/-- An agreement fails (R521, R527): its code in PAGE_ERR, SEC_FAILS, SESSION_FAIL, and a retry after a delay that doubles. -/
def Hw.agreeFail (h : Hw) (p code : Nat) : Hw :=
  let s := h.session p
  let h := ((h.err 0x50 code).inc (R.SEC_FAILS_COUNT.at p)).raise 0x50 17
  h.putSession { s with step := 0, sig := [], peerOffer := [], peerSig := [], retryFrc := some (h.frc + s.backoffMs * 1000000),
                        backoffMs := min (2 * s.backoffMs) 1024 }

/-- One end's part of the transcript (R520). -/
def transcriptEnd (ident : Nat) (offer : List Nat) : List Nat :=
  le 8 ident ++ slice offer 4 32 ++ slice offer 36 97 ++ Config.sha384 (slice offer 136 (fld offer 2 2))

/-- T of an agreement (R520): the end with the lower IDENTITY first. -/
def Hw.transcript (h : Hw) (p : Nat) : List Nat :=
  let s := h.session p
  let own := transcriptEnd h.fab.ident (s.offer h.sec.cert)
  let peer := transcriptEnd (h.link p).peerIdent s.peerOffer
  Config.sha384 (ascii "BOLDAL-KX" ++ [if isCulvert p then 0 else 1, s.newGen % 256] ++
    (if h.fab.ident < (h.link p).peerIdent then own ++ peer else peer ++ own))

/-- This end is lo (R519). -/
def Hw.isLo (h : Hw) (p : Nat) : Bool := h.fab.ident < (h.link p).peerIdent

/-- Ask the root of trust to verify the peer's FINISH (R521). -/
def Hw.askFinish (h : Hw) (p : Nat) : Hw :=
  let s := h.session p
  let cert := slice s.peerOffer 136 (fld s.peerOffer 2 2)
  (h.putSession { s with step := 5 }).rotAsk 3
    (Config.sha384 (h.transcript p ++ [if h.isLo p then 1 else 0]) ++ Config.certKey cert ++ s.peerSig) (.finish p)

/-- IDENTITY of a certificate (R329). -/
def identityOf (cert : List Nat) : Nat := ofLe ((cshake256 [] (ascii "BOLDAL-NODE") cert 32).take 8)

/-- A peer's OFFER (R521): the checks that need no service, then the anchors of the blob through the root of trust. A generation
other than the one under way restarts the agreement with it; one that is not above the current one is a repeat, and is ignored (log entry 191). -/
def Hw.offerRx (h : Hw) (p : Nat) (o : List Nat) : Hw :=
  let gen := nth o 1
  let n := fld o 2 2
  let s := h.session p
  match s.genOf gen with
  | none => h
  | some g =>
  let h := if s.step = 0 && !(s.busy && gen = s.newGen % 256) then h.startAgreement p g
    else if s.step ≠ 0 ∧ s.newGen % 256 ≠ gen then h.startAgreement p g else h
  let s := h.session p
  if s.step ≠ 1 then h
  else if o.length ≠ 136 + n ∨ n = 0 ∨ 1024 < n ∨ !zeros o 133 3 then h.discard p
  else
    let cert := slice o 136 n
    if !Config.certWellFormed cert || identityOf cert != (h.link p).peerIdent || h.sec.deny.contains (identityOf cert) then
      h.agreeFail p E.authFail
    else
      match h.sec.anchors with
      | a :: _ => (h.putSession { s with peerOffer := o, step := 2 }).rotAsk 3 (cert ++ a) (.peerCert p 0)
      | [] => h.agreeFail p E.authFail

/-- A peer's FINISH (R522): kept until this end may verify it. -/
def Hw.finishRx (h : Hw) (p : Nat) (m : List Nat) : Hw :=
  let s := h.session p
  if m.length ≠ 100 ∨ !zeros m 2 2 then h.discard p
  else if s.step = 0 ∨ nth m 1 ≠ s.newGen % 256 ∨ s.step = 5 then h
  else
    let h := h.putSession { s with peerSig := slice m 4 96 }
    if s.step = 4 then h.askFinish p else h

/-- The root of trust has checked the peer's certificate against anchor `a` (R521). -/
def Hw.peerCertAnswer (h : Hw) (p a : Nat) (ok : Bool) : Hw :=
  let s := h.session p
  if s.step ≠ 2 then h
  else if ok then
    (h.putSession { s with step := 3 }).rotAsk 2 (Config.sha384 (h.transcript p ++ [if h.isLo p then 0 else 1])) (.sign p)
  else
    match h.sec.anchors[a + 1]? with
    | some k => h.rotAsk 3 (slice s.peerOffer 136 (fld s.peerOffer 2 2) ++ k) (.peerCert p (a + 1))
    | none => h.agreeFail p E.authFail

/-- The signature of T has come: FINISH is sent (R520). -/
def Hw.signAnswer (h : Hw) (p : Nat) (sig : List Nat) : Hw :=
  let s := h.session p
  if s.step ≠ 3 then h else
  let h := (h.putSession { s with sig := fit 96 sig, step := 4, offerNext := false }).sendHello p
  if s.peerSig.isEmpty then h else h.askFinish p

/-- The peer's FINISH has been verified (R522, R526): the keys are derived, the private scalar erased, the session is up. -/
def Hw.finishAnswer (h : Hw) (p : Nat) (ok : Bool) : Hw :=
  let s := h.session p
  if s.step ≠ 5 then h
  else if !ok then h.agreeFail p E.authFail
  else
    let key := Config.sessionKeys s.scalar (slice s.peerOffer 36 97) (h.transcript p)
    let old := if s.up then some s.key else none
    let h := h.putSession { s with up := true, gen := s.newGen, upFrc := h.frc, key := key, sent := 0, oldKey := old, oldFrom := none,
                                   step := 0, scalar := 0, peerOffer := [], peerSig := [], backoffMs := 10, retryFrc := none }
    let h := h.s64 (R.SEC_PEER_LO_ID.at p) (R.SEC_PEER_HI_ID.at p) (h.link p).peerIdent
    (h.raise 0x50 16).linkUp p

/-- AGREEMENT_RETRY (R527). -/
def execAgreementRetry (p : Nat) (s : State) : Result := s.go fun h =>
  let x := h.session p
  match x.retryFrc with
  | some t => if t ≤ h.frc then h.startAgreement p x.nextGen else h
  | none => h

/-- REKEY_TIMER (R526): the lo end, REKEY_S after the last agreement. -/
def execRekeyTimer (p : Nat) (s : State) : Result := s.go fun h =>
  let x := h.session p
  if x.up && x.step == 0 && h.isLo p && x.upFrc + h.g R.SEC_CFG_REKEY_S * 1000000000 ≤ h.frc then h.startAgreement p (x.gen + 1)
  else h

/-- SEC_REKEY (R526): SEC_CMD REKEY on the port of SEC_SEL. -/
def Hw.rekeyCmd (h : Hw) : Tried := .ok (h.startAgreement (h.g R.SEC_SEL_PORT) (h.session (h.g R.SEC_SEL_PORT)).nextGen)

/-- SEC_REKEY (R526). -/
def execSecRekey (a : Acc) (s : State) : Result := s.go fun h => h.operWrite a 0x50 0x04C Hw.rekeyCmd

/-- OLD_KEY_ERASE (R526): 10 ms after the first frame under the new keys. -/
def execOldKeyErase (p : Nat) (s : State) : Result := s.go fun h =>
  let x := h.session p
  match x.oldFrom with
  | some t => if t + 10000000 ≤ h.frc then h.putSession { x with oldKey := none, oldFrom := none } else h
  | none => h

/-- SESSION_KEY_EXPIRY (R526): keys not replaced within 2 × REKEY_S end the session, and a new agreement starts. -/
def execSessionKeyExpiry (p : Nat) (s : State) : Result := s.go fun h =>
  let x := h.session p
  if x.up && x.upFrc + 2 * h.g R.SEC_CFG_REKEY_S * 1000000000 ≤ h.frc then (h.endSession p).startAgreement p 0 else h

/-- DRBG_RESEED (R519): after 65,536 requests or 60 s. -/
def execDrbgReseed (s : State) : Result := s.go fun h =>
  if h.pwr.core && (65536 ≤ h.sec.drbgReqs || h.sec.drbgFrc + 60000000000 ≤ h.frc) && !(h.sec.rot.any fun r => r.what == .entropy)
  then h.rotAsk 4 [] .entropy else h

/-- Entropy has come: 48 bytes seed the generator; a reseed counts in RESEEDS (R519, R533). -/
def Hw.entropyAnswer (h : Hw) : Hw :=
  let n := h.g R.SEC_SESSIONS_RESEEDS
  let h := if h.sec.seeded then h.s R.SEC_SESSIONS_RESEEDS (n + 1) else h
  { h with sec := { h.sec with seeded := true, reseedLost := false, drbgReqs := 0, drbgFrc := h.frc } }

/-- Start agreements on every port in service that has no session (R520, R527). -/
def Hw.agreeAll (h : Hw) : Hw :=
  h.each (h.culsIn ++ h.fabsIn) fun h p =>
    if h.inService p && !h.sessionUp p && (h.session p).step == 0 && (!isCulvert p || (h.link p).phy) then h.startAgreement p 0 else h

/-- Every session ends and its keys are erased (R94, R527). -/
def Hw.endSessions (h : Hw) : Hw :=
  let h := h.each (h.sec.sessions.map fun s => s.port) fun h p => h.endSession p
  { h with sec := { h.sec with rot := h.sec.rot.filter fun r => match r.what with
      | .peerCert _ _ | .sign _ | .finish _ => false | _ => true } }

/-- The SEC page has left RUNNING by a fault (R527): its sessions end as at an abort. -/
def Hw.secLeft (h : Hw) (p : Nat) : Hw := if p = 0x50 ∧ h.state p = 5 then h.endSessions else h

end Sys2Proof.Machine
end

