-- ==== Sys2Proof/Machine/Peek.lean ====
section
/-!
DEFINITION. Machine/Peek.lean: what a register shows (R9, R10, R578) without the effects of a read: the registers whose value is a function
of other state, the words of the page header (R80) and the image of a page (R416).
-/
namespace Sys2Proof.Machine

/-- Diagnostics that run all the time: SAF_DRUNS counts ACLK cycles, 10 ns each, for them (R537, R556). -/
def continuousDiag (d : Nat) : Bool := d == 1 || d == 2 || d == 7 || d == 11 || d == 13

/-- The segments of proxy leaf `p` that are in use: number, COUNT (R205). -/
def Hw.segments (h : Hw) (p : Nat) : List (Nat × Nat) :=
  ((List.range 16).map fun s => (s, h.g (R.PRX_SEG_COUNT.at (p * 16 + s)))).filter fun x => x.2 != 0

/-- The segment that fills a slot of proxy leaf `p` (R205). -/
def Hw.slotSeg (h : Hw) (p slot : Nat) : Option Nat := ((h.segments p).flatMap fun x => List.replicate x.2 x.1)[slot]?

/-- CNT_SRC of a slot of a proxy leaf (R171, R211): CLASS 8, its segment, the width code; GAUGE as the segment gives. -/
def Hw.proxySrc (h : Hw) (p slot : Nat) : Nat :=
  match h.slotSeg p slot with
  | some s => 8 + 16 * s + 2 ^ 16 * h.g (R.PRX_SEG_WIDTH.at (p * 16 + s)) + 2 ^ 20 * h.g (R.PRX_SEG_GAUGE.at (p * 16 + s))
  | none => 0

/-- CNT_SRC of a slot (R211). -/
def Hw.srcWord (h : Hw) (slot : Nat) : Nat :=
  match h.prof with
  | .t => h.proxySrc (slot / 256) (slot % 256)
  | _ =>
    let c := h.g (R.CNT_SRC_CLASS.at slot)
    let m := h.g (R.CNT_SRC_MODE.at slot)
    c + 16 * h.g (R.CNT_SRC_INDEX.at slot) + 2 ^ 16 * m + 2 ^ 20 * b2n (c == 3 && (m == 1 || m == 3 || m == 4))

/-- The source of a counter slot gives a gauge (R171, R211). -/
def Hw.gauge (h : Hw) (slot : Nat) : Bool := bit (h.srcWord slot) 20

/-- Busy ticks of a slot that are not counted yet. -/
def Hw.busyTicks (h : Hw) (slot : Nat) : Nat :=
  match h.liveSlots.find? fun s => s.num == slot && s.cls == 1 && s.mode == 2 with
  | some s => (match h.cnt.busy.find? fun b => b.1 == s.index with
    | some b => if 0 < b.2.1 ∧ h.counting then h.frc - b.2.2 else 0
    | none => 0)
  | none => 0

/-- A proxy leaf's state. -/
def Hw.proxy (h : Hw) (p : Nat) : Option Proxy := h.prx.proxies.find? fun x => x.num == p

/-- The value of a slot: the leaf's own counters, or on a Boldal T value `slot % 256` of proxy leaf `slot / 256` (R211). -/
def Hw.slotNow (h : Hw) (slot : Nat) : Nat :=
  match h.prof with
  | .t => match h.proxy (slot / 256) with | some x => nth x.vals (slot % 256) | none => 0
  | _ => (h.slotVal slot + h.busyTicks slot) % 2 ^ 64

/-- Bytes in the leaf's replay store (R340, R358). -/
def Hw.replayBytes (h : Hw) : Nat :=
  total (h.fab.links.map fun k => total ((k.retained.filter fun t => t.kind == 4).map fun t => t.bytes.length)) +
    total (h.flw.held.map fun x => match x.keptBy with | some q => if isCulvert q then x.r.size else 0 | none => 0)

/-- Age of the oldest uncustodied record in µs (R358). -/
def Hw.replayAge (h : Hw) : Nat :=
  let old (a : Nat) (x : HeldRec) : Nat := match x.firstSent with | some f => max a ((h.frc - f) / 1000) | none => a
  (h.flw.held.filter fun x => x.keptBy.isSome).foldl old (h.fab.links.foldl (fun a k => k.retained.foldl (fun a t => t.recs.foldl old a) a) 0)

/-- The timer with a number, where one is claimed. -/
def Hw.timer (h : Hw) (t : Nat) : Option Timer := h.tim.timers.find? fun x => x.num == t

/-- Accumulator of an account that ACC_IDX names, as 96 bits (R251). -/
def Hw.accShown (h : Hw) (a : Nat) : Nat :=
  match h.gar.accounts.find? fun x => x.num == a with
  | some x => unsigned 96 (x.acc.getD (h.g R.ACC_IDX_INDEX) 0)
  | none => 0

/-- The collective bound of a check entry, as 96 bits (R283). -/
def Hw.boundShown (h : Hw) (e : Nat) : Nat :=
  match h.chk.entries.find? fun x => x.num == e with
  | some x => if x.defn.kind = 0 then x.defn.bound else 0
  | none => 0

/-- The bytes of a row of the entity table (R303). -/
def Hw.rowShown (h : Hw) (r : Nat) : List Nat := match h.agt.rows.find? fun x => x.1 == r with | some x => x.2 | none => []

/-- The word of the trace buffer at an offset (R407). -/
def Hw.traceWord (h : Hw) (off : Nat) : Nat :=
  match h.trc.buf.find? fun x => x.1 == off / 16 * 16 with
  | some x => fld x.2 (off % 16) 4
  | none => 0

/-- The word of the retention ring at an offset (R489, R506) where an entry covers it; an entry may wrap. -/
def Hw.ringCover (h : Hw) (off : Nat) : Option Nat :=
  (h.evr.ring.find? fun e => (off + h.evrSize - e.off) % h.evrSize < e.len).map fun e =>
    fld e.bytes ((off + h.evrSize - e.off) % h.evrSize) 4

/-- The word of the retention ring at an offset: one that no entry covers is open (log entry 66). -/
def Hw.ringWord (h : Hw) (off : Nat) : Nat := (h.ringCover off).getD ((Config.free h.freeCtr).toNat % 2 ^ 32)

/-- The value that a field shows. -/
def Hw.shown (h : Hw) (f : Field) : Nat :=
  let i := f.idx
  let b := f.at 0
  if b = R.TIM_NT0_NT then bits h.nt 0 32
  else if b = R.TIM_NT1_NT then bits h.nt 32 32
  else if b = R.TIM_NT2_NT then bits h.nt 64 16
  else if b = R.TIM_FRC_LO_FRC then bits h.frc 0 32
  else if b = R.TIM_FRC_HI_FRC then bits h.frc 32 32
  else if b = R.TIM_BOUND_BOUND then h.timBound
  else if b = R.TIM_BOUND_HOLD_MS then
    (if h.g R.TIM_STATUS_SERVO = 4 then min ((h.frc - h.tim.holdFrc) / 1000000) 0xFFFF else 0)
  else if b = R.TMR_OWNER_PAGE then (h.holder (0x3000 + i)).getD 0xFF
  else if b = R.TMR_NEXT_LO_NS then (match h.timer i with | some t => bits t.next 0 32 | none => 0)
  else if b = R.TMR_NEXT_HI_NS then (match h.timer i with | some t => bits t.next 32 32 | none => 0)
  else if b = R.TRK_POS_LO_SP then bits (h.position i) 0 32
  else if b = R.TRK_POS_HI_SP then bits (h.position i) 32 32
  else if b = R.TRK_PERIOD_PERIOD then
    (match h.tracker i with | some k => min (k.pPred.toNat / 2 ^ 24) 0xFFFFFFFF | none => 0)
  else if b = R.CNT_SRC_GAUGE then bits (h.srcWord i) 20 1
  else if b = R.CNT_SRC_CLASS then bits (h.srcWord i) 0 4
  else if b = R.CNT_SRC_INDEX then bits (h.srcWord i) 4 12
  else if b = R.CNT_SRC_MODE then bits (h.srcWord i) 16 4
  else if b = R.CNT_VAL_LO_VAL then bits (h.slotNow i) 0 32
  else if b = R.CNT_VAL_HI_VAL then bits (h.slotNow i) 32 32
  else if b = R.CNT_SETSZ_SIZE then min (h.members i).length 2047
  else if b = R.ACC_VAL0_VAL then bits (h.accShown i) 0 32
  else if b = R.ACC_VAL1_VAL then bits (h.accShown i) 32 32
  else if b = R.ACC_VAL2_VAL then bits (h.accShown i) 64 32
  else if b = R.CHK_BOUND0_BOUND then bits (h.boundShown i) 0 32
  else if b = R.CHK_BOUND1_BOUND then bits (h.boundShown i) 32 32
  else if b = R.CHK_BOUND2_BOUND then bits (h.boundShown i) 64 32
  else if b = R.AGT_ROW_KEY_KEY then fld (h.rowShown i) 0 4 % 2 ^ 19
  else if b = R.AGT_ROW_KEY_VALID then fld (h.rowShown i) 0 4 / 2 ^ 31
  else if b = R.AGT_ROW_TYPES_TYPEMASK then fld (h.rowShown i) 4 4
  else if b = R.AGT_ROW_VAL_VAL then fld (h.rowShown i) (8 + 4 * h.g R.AGT_ROW_IDX_FEAT) 4
  else if b = R.CUL_REPLAY_KIB then (match h.prof with | .l => min (h.replayBytes / 1024) 4095 | _ => 0)
  else if b = R.CUL_REPLAY_AGE then (match h.prof with | .l => min h.replayAge 0xFFFF | _ => 0)
  else if b = R.FAB_ID_NODE then (if h.g R.FAB_ID_STATE = 0 then 0 else h.g f)
  else if b = R.CUL_PORT_STAT_LINK then h.linkState i
  else if b = R.FAB_PORT_STAT_LINK then h.linkState (0x200 + i)
  else if b = R.RED_STAT_OPEN then min (h.red.rounds.filter fun r => r.group == i && !r.sent).length 7
  else if b = R.FLW_LED_COUNT then
    let r := h.flw.lastLed.getD (i / 10) LedRow.zero
    nth [r.heldStart, r.produced, r.received, r.reclaimed, r.forwarded, r.delivered, r.duplicates, r.dropped, r.heldEnd, r.heldReplay]
      (i % 10) % 2 ^ 32
  else if b = R.FLW_DROP_COUNT then nth h.flw.lastDrops (i % 13) % 2 ^ 32
  else if b = R.TRC_STAT_LP then b2n h.trc.lpReq
  else if b = R.TRC_RD_DATA_DATA then h.traceWord (h.g R.TRC_RD_OFF_OFF)
  else if b = R.EVR_RD_DATA_DATA then h.ringWord (h.g R.EVR_RD_OFF_OFF)
  else if b = R.CTX_STAT_KEY then b2n (h.keys.any fun k => k.ctx == i)
  else if b = R.CTX_STAT_QUEUES then
    ((List.range h.queueCount).filter fun q => h.g (R.Q_CFG_CTX.at q) == i && h.g (R.Q_CFG_ENGINE.at q) != 0).length
  else if b = R.SEC_PSTAT_AGE_S then
    (if h.sessionUp i then min ((h.frc - (h.session i).upFrc) / 1000000000) 0xFFFF else 0)
  else if b = R.SAF_DRUNS_COUNT then (if continuousDiag i then h.frc / 10 % 2 ^ 32 else h.g f)
  else if b = R.PWR_QUEUE_DEPTH then h.pwr.wakeQueue.length
  else h.g f

/-- The item that a selector names (R578). -/
def Hw.bankIdx (h : Hw) (b : Bank) : Nat :=
  match b with
  | .none => 0
  | .cntSel => h.g R.CNT_SEL_SLOT
  | .prxSel => h.g R.PRX_SEL_PROXY
  | .bindSel => h.g R.BIND_SEL_BIND
  | .accSel => h.g R.ACC_SEL_ACCOUNT
  | .chkSel => h.g R.CHK_SEL_ENTRY
  | .agtMsel => h.g R.AGT_MSEL_SLOT
  | .agtMap => h.g R.AGT_MAP_SEL_NODE
  | .agtRow => h.g R.AGT_ROW_SEL_ROW
  | .fabPort => h.g R.FAB_PORT_SEL_PORT
  | .culSel => h.g R.CUL_SEL_PORT
  | .redSel => h.g R.RED_SEL_GROUP
  | .flwLsel => h.g R.FLW_LSEL_CLASS
  | .shpPort => h.g R.SHP_PORT_SEL_PORT
  | .polSel => h.g R.POL_SEL_PORT * 8 + h.g R.POL_SEL_CLASS
  | .hltWs => h.g R.HLT_WS_SEL_WS
  | .optL => h.g R.OPT_LSEL_LANE
  | .optH => h.g R.OPT_HSEL_GRP
  | .optHIdx => h.g R.OPT_HSEL_GRP * 64 + h.g (R.HG_IDX_IDX.at (h.g R.OPT_HSEL_GRP)) % 64
  | .vrdE => h.g R.VRD_ESEL_ENTRY
  | .secSel => h.g R.SEC_SEL_PORT
  | .safD => h.g R.SAF_DSEL_DIAG

/-- The profile has this field. -/
def Row.inProf (r : Row) (p : Profile) : Bool := bit r.prof (p.sel 0 1 2)

/-- The array element of a row that lies at offset `off` of page `p`, the upper half of a 64-bit field included. -/
def Row.hit (r : Row) (p off : Nat) : Option Nat :=
  let q := r.f.page
  if !(q = p || (q = 2 && p = 3)) || off < r.f.off || (q = 0x4D && r.f.width = 64 && 0x40 ≤ off % 0x80) then none else
  let d := off - r.f.off
  if q = 0x4D ∧ r.f.width = 64 then (if d < 0x800 ∧ d % 4 = 0 then some (d / 0x80 * 8 + d % 0x80 / 8) else none) else
  let inner := if 32 < r.f.width then 4 else 0
  if r.f.stride = 0 then (if d = 0 ∨ (inner = 4 ∧ d = 4) then some 0 else none)
  else
    let i := d / r.f.stride
    let e := d % r.f.stride
    if i < r.count && (e == 0 || (inner == 4 && e == 4)) then some i else none

/-- The number in the register file of a row's element, for the item that its selector names: queue registers of page 3 follow those of
page 2 (R101). -/
def Hw.elem (h : Hw) (r : Row) (p i : Nat) : Nat :=
  match r.bank with
  | .none => if r.f.page = 2 then i + (p - 2) * r.count else i
  | b => h.bankIdx b * r.count + i

/-- A word of the page header (R80). HELD and NEEDED are 8 bits wide: a count beyond 255, as of a Boldal G's GAR page, shows modulo 256 (DESIGN
CHOICE, log entry 158). -/
def Hw.header (h : Hw) (p off : Nat) : Nat :=
  match off with
  | 0x00 => h.g (R.PAGE_ID_MINOR p) + 2 ^ 8 * h.g (R.PAGE_ID_MAJOR p) + 2 ^ 16 * h.g (R.PAGE_ID_INST p) +
      2 ^ 24 * h.g (R.PAGE_ID_FUNC p)
  | 0x04 => h.g (R.PAGE_CAP_ABORTABLE p) + 2 * h.g (R.PAGE_CAP_SAVE p) + 4 * h.g (R.PAGE_CAP_TENANT p) +
      2 ^ 16 * h.g (R.PAGE_CAP_FUNC_CAP p)
  | 0x08 => h.g (R.PAGE_CTL_ENABLE p) + 4 * h.g (R.PAGE_CTL_IRQ_MEN p)
  | 0x0C => h.state p
  | 0x10 => h.g (R.PAGE_ERR_FIRST p) + 2 ^ 16 * h.g (R.PAGE_ERR_COUNT p)
  | 0x14 => h.irqStat p
  | 0x18 => h.g (R.PAGE_IRQ_EN_EN p)
  | 0x1C => h.g (R.PAGE_OWNER_OWNER p)
  | 0x20 => (h.claims.filter fun c => c.2 == p).length % 256 + 2 ^ 8 * (((h.needs p).length + h.needTimers p) % 256)
  | 0x24 => h.g (R.PAGE_CLAIM_FAIL_RES p) + 2 ^ 16 * h.g (R.PAGE_CLAIM_FAIL_HOLDER p) + 2 ^ 24 * h.g (R.PAGE_CLAIM_FAIL_HCTX p)
  | 0x28 => h.g (R.PAGE_ABORT_BOUND_BOUND p)
  | 0x2C => h.g (R.PAGE_SEQ_SEQ p)
  | _ => 0

/-- The element of an arrayed register exists in the profile. -/
def Hw.hasElem (h : Hw) (p off i : Nat) : Bool :=
  match p with
  | 0x05 => off < 0x80 || i < h.fabrics
  | 0x06 => (off < 0x200 || (0x400 ≤ off && off < 0x800)) || i < h.trackerCount
  | 0x11 => off < 0x100 || 0x200 ≤ off || i < h.taps
  | 0x38 => !(0x80 ≤ off && off < 0x280) || i == 0x7F || (i < 0x32 && (h.prof == .l || (0x10 ≤ i && i < 0x30 && (i < 0x20 || h.prof == .t)) || i == 0x31))
  | 0x3A => off < 0x100 || i < h.contexts
  | 0x48 => off < 0x100 || ((1 ≤ i && i < 4) && !(i == 2 && (0x104 ≤ off && (off - 0x100) % 0x20 < 0x18 && (off - 0x100) % 0x20 ≠ 0)))
  | _ => true

/-- The word at offset `off` of page `p`: write-only and reserved bits read 0 (R10). -/
def Hw.peek (h : Hw) (p off : Nat) : Nat :=
  if off < 0x40 then h.header p off else
  regTable.foldl (fun v r =>
    match r.hit p off with
    | none => v
    | some i =>
      if r.acc = .wo ∨ !r.inProf h.prof ∨ !h.hasElem p off i then v
      else
        let x := h.shown (r.f.at (h.elem r p i))
        let upper := 32 < r.f.width && (off - r.f.off) % 8 == 4
        v + (if upper then x / 2 ^ 32 else if 32 < r.f.width then x % 2 ^ 32 else x * 2 ^ r.f.lo)) 0 % 2 ^ 32

/-- The 4 KiB image of a page (R416). -/
def Hw.pageImage (h : Hw) (p : Nat) : List Nat := (List.range 1024).flatMap fun i => le 4 (h.peek p (4 * i))

end Sys2Proof.Machine
end

