-- ==== Sys2Proof/Machine/Routes.lean ====
section
/-!
DEFINITION. Machine/Routes.lean: the shortest-path trees that every node derives from the link-state database (R334), backup paths (R335),
the destinations of records (R337), the launch tree (R352) and sending toward a node.
-/
namespace Sys2Proof.Machine

/-- An edge of the topology: from, to, cost (µs). -/
abbrev Edge := Nat × Nat × Nat

/-- The links that both ends advertise, each of several between two nodes as an edge of its own (R333, R334). -/
def edgesOf (db : List Lsa) : List Edge :=
  db.flatMap fun a =>
    (a.ports.filter fun e => db.any fun l => l.node == e.1 && l.ports.any fun x => x.1 == a.node).map fun e => (a.node, e.1, e.2.2.2)

/-- Take the cheapest edge from `a` to `b` out of the list: the link that a path through the two uses. -/
def takeEdge (es : List Edge) (a b : Nat) : List Edge :=
  let costs := (es.filter fun e => e.1 == a && e.2.1 == b).map fun e => e.2.2
  es.erase (a, b, costs.foldl min (costs.headD 0))

/-- A distance table: (node, distance). -/
abbrev Dists := List (Nat × Nat)

/-- The distance of a node, none where it is not reached. -/
def distOf (t : Dists) (n : Nat) : Option Nat :=
  match t.find? fun e => e.1 == n with | some e => some e.2 | none => none

/-- One round of relaxation toward the destination. -/
def relax (es : List Edge) (t : Dists) : Dists :=
  es.foldl (fun t e =>
    match distOf t e.2.1 with
    | none => t
    | some d =>
      match distOf t e.1 with
      | none => (e.1, d + e.2.2) :: t
      | some o => if d + e.2.2 < o then (e.1, d + e.2.2) :: t.filter (fun x => x.1 != e.1) else t) t

/-- Distances toward `d`, after `n` rounds. -/
def distsTo (es : List Edge) (d : Nat) : Nat → Dists
  | 0 => [(d, 0)]
  | n + 1 => relax es (distsTo es d n)

/-- The neighbour of `a` that minimises the neighbour's distance plus the link cost, ties to the lowest node ID (R334). -/
def parentOf (es : List Edge) (t : Dists) (a : Nat) : Option Nat :=
  let c := (es.filter fun e => e.1 == a).filterMap fun e =>
    match distOf t e.2.1 with | some d => some (d + e.2.2, e.2.1) | none => none
  match c with
  | [] => none
  | x :: r => some (r.foldl (fun b y => if y.1 < b.1 || (y.1 == b.1 && y.2 < b.2) then y else b) x).2

/-- The path from `a` to `d` by parents: the nodes after `a`. -/
def pathTo (es : List Edge) (t : Dists) (d : Nat) : Nat → Nat → List Nat
  | 0, _ => []
  | n + 1, a => if a = d then [] else
    match parentOf es t a with
    | none => []
    | some b => b :: pathTo es t d n b

/-- The lexicographically smallest least-cost path from `a` to `d`: the nodes after `a`. -/
def lexPath (es : List Edge) (t : Dists) (d : Nat) : Nat → Nat → List Nat
  | 0, _ => []
  | n + 1, a => if a = d then [] else
    match distOf t a with
    | none => []
    | some da =>
      let c := (es.filter fun e => e.1 == a && distOf t e.2.1 == some (da - e.2.2) && e.2.2 ≤ da).map fun e => e.2.1
      match c with
      | [] => []
      | x :: r => let b := r.foldl min x; b :: lexPath es t d n b

/-- The links of a path that begins at `a`. -/
def linksOf : Nat → List Nat → List (Nat × Nat)
  | _, [] => []
  | a, b :: t => (a, b) :: linksOf b t

/-- The backup path of `a` toward `d` beside a primary path (R335): no interior node and no link in common, at most 16 hops. A parallel link of one
that the primary path uses is another link (log entry 112). -/
def backupPath (es : List Edge) (n a d : Nat) (primary : List Nat) : List Nat :=
  let inner := primary.filter (· != d)
  let rest := (linksOf a primary).foldl (fun es l => takeEdge (takeEdge es l.1 l.2) l.2 l.1) es
  let es' := rest.filter fun e => !inner.contains e.1 && !inner.contains e.2.1
  let p := lexPath es' (distsTo es' d n) d n a
  if p.getLast? = some d ∧ p.length ≤ 16 then p else []

/-- The cost that this node gives a fabric port (R334): the measured one-way delay in µs rounded up, HOP_COST and COST_ADD. -/
def Hw.portCost (h : Hw) (p : Nat) : Nat :=
  ceilDiv (h.link p).delayNs 1000 + h.g R.FAB_CFG_HOP_COST + h.g (R.FAB_PORT_CFG_COST_ADD.at (fabIndex p))

/-- The fabric port that is up toward a neighbour: the cheapest, the lowest of several (log entry 112). -/
def Hw.portTo (h : Hw) (n : Nat) : Option Nat :=
  let ps := ((List.range h.fabrics).map (0x200 + ·)).filter fun p => (h.link p).up && (h.link p).peerNode == n
  ps.foldl (fun (b : Option Nat) p => match b with
    | some q => if h.portCost p < h.portCost q then some p else b
    | none => some p) none

/-- The routes of this node over its database (R334, R335). -/
def Hw.computeRoutes (h : Hw) : List Route :=
  let me := h.g R.FAB_ID_NODE
  let es := edgesOf h.fab.lsdb
  let n := h.fab.lsdb.length
  (h.fab.lsdb.filter fun l => l.node != me).filterMap fun l =>
    let t := distsTo es l.node n
    match distOf t me, parentOf es t me with
    | some _, some nx => let path := pathTo es t l.node n me
      some ⟨l.node, nx, backupPath es n me l.node path, (h.portTo nx).getD 0x200, path.length⟩
    | _, _ => none

/-- The route toward a node. -/
def Hw.route (h : Hw) (d : Nat) : Option Route := h.fab.routes.find? fun r => r.dst == d

/-- Where a frame for node `d` leaves: the port, and the rest of the path where it travels by a route prefix (R335). -/
def Hw.wayTo (h : Hw) (d : Nat) (rest : List Nat) : Option (Nat × List Nat) :=
  match rest with
  | n :: _ => match h.portTo n with | some p => some (p, rest) | none => none
  | [] =>
    match h.route d with
    | none => none
    | some r =>
      if (h.link r.port).up && (h.link r.port).peerNode == r.next then some (r.port, []) else
      match r.backup with
      | [] => (h.portTo r.next).map fun p => (p, [])
      | n :: _ => match h.portTo n with
        | some p => some (p, r.backup)
        | none => (h.portTo r.next).map fun p => (p, [])

/-- The route prefix of a path (R335): hop count, the index of the hop after the receiver, the node IDs (log entry 24). -/
def routePrefix (path : List Nat) : List Nat :=
  match path with
  | [] => []
  | _ => fit 34 ([path.length, 1] ++ (path.flatMap fun n => le 2 n))

/-- The hops that a prefix still holds for the node that received it. -/
def restOf (pfx : List Nat) : List Nat :=
  match pfx with
  | [] => []
  | _ => ((List.range 16).map fun i => fld pfx (2 + 2 * i) 2).take (nth pfx 0) |>.drop (nth pfx 1)

/-- The destination that the flow entries give a record (R337): none where it is delivered at the node that first receives it. -/
def Hw.flowDst (h : Hw) (r : Rec) : Option Nat :=
  let loc := localOf r.source
  let hit := (List.range 64).find? fun e =>
    h.on (R.FAB_FLOW_A_EN.at e) && h.g (R.FAB_FLOW_A_LSRC_LO.at e) ≤ loc && loc ≤ h.g (R.FAB_FLOW_A_LSRC_HI.at e) &&
      (h.g (R.FAB_FLOW_B_TYPE.at e) == 0xFF || h.g (R.FAB_FLOW_B_TYPE.at e) == r.typ)
  match hit with
  | some e => some (h.g (R.FAB_FLOW_B_DST.at e))
  | none => none

/-- The destination of a held record. -/
def Hw.dstOf (h : Hw) (x : HeldRec) : Nat :=
  match x.dst with
  | some d => d
  | none => (h.flowDst x.r).getD (h.g R.FAB_ID_NODE)

/-- The record has reached its destination: this node (R337). A leaf delivers nothing. -/
def Hw.arrived (h : Hw) (x : HeldRec) : Bool :=
  match h.prof with
  | .l => false
  | _ => h.dstOf x == h.g R.FAB_ID_NODE

/-! ### The launch tree (R352) -/

/-- Node `a` comes before node `b` in the order by distance to the root, ties to the lower node ID. -/
def before (t : Dists) (a b : Nat) : Bool :=
  match distOf t a, distOf t b with
  | some x, some y => decide (x < y) || (x == y && decide (a < b))
  | _, _ => false

/-- The two parents of a node in the tree of a root: the second is none for a node with one parent. -/
def Hw.parents (h : Hw) (root a : Nat) : Option Nat × Option Nat :=
  let es := edgesOf h.fab.lsdb
  let t := distsTo es root h.fab.lsdb.length
  if a = root then (none, none) else
  let p1 := parentOf es t a
  let c := ((es.filter fun e => e.1 == a).map fun e => e.2.1).filter fun b => some b != p1 && before t b a
  match c with
  | [] => (p1, none)
  | x :: r => (p1, some (r.foldl (fun b y => if before t y b then y else b) x))

/-- The nodes of which this node is a parent in the tree of a root. -/
def Hw.launchChildren (h : Hw) (root : Nat) : List Nat :=
  let me := h.g R.FAB_ID_NODE
  (h.fab.lsdb.map fun l => l.node).filter fun a =>
    a != me && (let p := h.parents root a; p.1 == some me || p.2 == some me)

/-- Send a class 1 message to a neighbouring node. -/
def Hw.sendTo (h : Hw) (n kind : Nat) (payload : List Nat) : Hw :=
  match h.portTo n with
  | some p => h.sendRel p kind 1 0xFFF [] (h.plainFrame kind 1 payload)
  | none => h

/-- The culvert ports of this node with a leaf registered on them or a standby mapping (R338, R339), that are up. -/
def Hw.leafPorts (h : Hw) : List Nat :=
  match h.prof with
  | .l => []
  | _ => (List.range h.culverts).filter fun p => h.on (R.CUL_PORT_STAT_REG.at p) && (h.link p).up

/-- Send a class 1 message on each registered leaf's culvert. -/
def Hw.sendLeaves (h : Hw) (kind : Nat) (payload : List Nat) : Hw :=
  h.each h.leafPorts fun h p => h.sendRel p kind 1 0xFFF [] (h.plainFrame kind 1 payload)

/-- The culvert port in use of a leaf. -/
def Hw.activeHome (h : Hw) : Option Nat :=
  match h.g R.CUL_LEAF_ACTIVE with | 1 => some 0 | 2 => some 1 | _ => none

end Sys2Proof.Machine
end

