-- ==== Sys2Proof/Machine/Compression.lean ====
section
/-!
DEFINITION. Machine/Compression.lean: DEFLATE streams and cuts (R467–R474), the privileged channels and their chunks (R475–R477), the
tensor packer (R481) and the descriptors of both engines (R482, R483).
-/
namespace Sys2Proof.Machine

/-! ### Slots -/

/-- The stream of a slot, none where the slot is free. -/
def Hw.slot (h : Hw) (n : Nat) : Option CmpSlot := h.cmp.slots.find? fun s => s.num == n

/-- Show the slots in CMP_SLOTS. -/
def Hw.showSlots (h : Hw) : Hw :=
  let mask (l : List CmpSlot) : Nat := total ((List.range 16).map fun i => if l.any fun s => s.num == i then 2 ^ i else 0)
  (h.s R.CMP_SLOTS_OPEN (mask h.cmp.slots)).s R.CMP_SLOTS_CHAN (mask (h.cmp.slots.filter fun s => s.chan != 0))

/-- Store the stream of a slot. -/
def Hw.putSlot (h : Hw) (s : CmpSlot) : Hw :=
  Hw.showSlots { h with cmp := { h.cmp with slots := s :: h.cmp.slots.filter fun x => x.num != s.num } }

/-- Free a slot. -/
def Hw.freeSlot (h : Hw) (n : Nat) : Hw :=
  Hw.showSlots { h with cmp := { h.cmp with slots := h.cmp.slots.filter fun x => x.num != n } }

/-- The slot a queue's descriptor may use: an ordinary stream of the entry's context (R471). -/
def Hw.ownSlot (h : Hw) (q n : Nat) : Except Nat CmpSlot :=
  match h.slot n with
  | none => .error E.badState
  | some s => if s.chan ≠ 0 ∨ s.ctx ≠ h.qCtx q then .error E.accessDenied else .ok s

/-- A cut of a slot is running on a queue other than `q` (R472). -/
def Hw.slotBusy (h : Hw) (q n : Nat) : Bool :=
  h.queueList.any fun p => p != q && h.descBusy p && (match h.current p 4 0x51 with
    | some d => dw d 0 16 4 == n
    | none => false)

/-- The window after more input (R467). -/
def windowAfter (hist input : List Nat) : List Nat := let l := hist ++ input; l.drop (l.length - 32768)

/-- Book bytes taken and written. -/
def Hw.bookCmp (h : Hw) (i o : Nat) : Hw :=
  let h := { h with cmp := { h.cmp with inBytes := h.cmp.inBytes + i, outBytes := h.cmp.outBytes + o } }
  (h.s R.CMP_IN_KIB_KIB (h.cmp.inBytes / 1024)).s R.CMP_OUT_KIB_KIB (h.cmp.outBytes / 1024)

/-- A RESULT (R483). -/
def resultBytes (out inp flags more : Nat) : List Nat := le 8 out ++ le 4 inp ++ [flags] ++ le 3 more

/-! ### State images (R473, R518) -/

/-- The key of a context (R518). -/
def Hw.ctxKey (h : Hw) (c : Nat) : Option CtxKey := h.keys.find? fun k => k.ctx == c

/-- Bytes 0–23 of an image and its SAVE_NO. -/
def Hw.imageHead (h : Hw) (s : CmpSlot) (crc save : Nat) : List Nat :=
  ascii "BDS1" ++ le 4 (h.g R.BLK_SILICON_REV) ++ [s.depth - 1, 0, 0, 0] ++ le 4 s.cuts ++ le 8 s.bytesIn ++ le 4 crc ++ le 4 save

/-- The image of a slot under its context's key, whose counter goes on; none where the key is absent or its counter is spent. The
CRC covers the tag, so the additional data holds 0 in its place (log entry 26). -/
def Hw.slotImage (h : Hw) (s : CmpSlot) : Option (List Nat × Hw) :=
  match h.ctxKey (if s.chan = 0 then s.ctx else h.operCtx) with
  | none => none
  | some k =>
    if 0xFFFFFFFF ≤ k.saves then none else
    let body := fit 49120 (Config.gcmSeal k.key k.saves (h.imageHead s 0 k.saves) (fit 49104 (le 4 s.hist.length ++ s.hist)))
    some (h.imageHead s (crc32c body) k.saves ++ body,
      { h with keys := h.keys.map fun x => if x.ctx = k.ctx then { x with saves := k.saves + 1 } else x })

/-! ### Compressor descriptors (R471–R473, R482) -/

/-- OPEN. -/
def Hw.descCmpOpen (h : Hw) (q : Nat) (d : DescWords) : Hw :=
  let n := dw d 0 16 4
  let depth := dw d 0 20 9
  if depth = 0 ∨ 256 < depth then h.descFail q E.badDescriptor
  else if (h.slot n).isSome then h.descFail q E.stateFull
  else (h.putSlot ⟨n, h.qCtx q, 0, depth, [], 0, 0⟩).descDone q

/-- DEFLATE: the input is read; a cut of the slot that still runs is waited for (R472). -/
def Hw.descDeflate (h : Hw) (q : Nat) (d : DescWords) : Hw :=
  let n := dw d 0 16 4
  let len := dw d 2 0 17
  if len = 0 ∨ 65536 < len ∨ nth d 4 % 16 ≠ 0 then h.descFail q E.badDescriptor
  else match h.ownSlot q n, h.started q with
    | .error e, _ => h.descFail q e
    | .ok _, some r => if h.slotBusy q n then h else h.dmaRead (h.qCtx q) (nth d 1) len (.payload q r.index)
    | .ok _, none => h

/-- Mark the started entry to fail with a code once its writes are done. -/
def Hw.failLater (h : Hw) (q code : Nat) : Hw :=
  match h.started q with
  | none => h
  | some r => h.onRun q r.index fun r => { r with code := code }

/-- The input of a DEFLATE has arrived (R468, R469): the output and its RESULT are written, or, without gain, the RESULT alone and the
stream stays as it was. -/
def Hw.deflateArrived (h : Hw) (q : Nat) (d : DescWords) (bs : List Nat) : Hw :=
  let n := dw d 0 16 4
  let fin := bit (nth d 0) 20
  match h.ownSlot q n, h.started q with
  | .error e, _ => h.descFail q e
  | .ok s, some r =>
    let out := cutBytes s.hist bs s.depth fin
    if bs.length ≤ out.length then
      ((h.inc R.CMP_NOGAIN_COUNT).failLater q E.noGain).dmaWrite (h.qCtx q) (nth d 4)
        (resultBytes out.length bs.length (1 + 2 * b2n fin) (s.cuts % 2 ^ 24)) (.result q r.index)
    else
      let h := if fin then h.freeSlot n
        else h.putSlot { s with hist := windowAfter s.hist bs, cuts := (s.cuts + 1) % 2 ^ 32, bytesIn := s.bytesIn + bs.length }
      ((h.bookCmp bs.length out.length).dmaWrite (h.qCtx q) (nth d 3) out (.payload q r.index)).dmaWrite (h.qCtx q) (nth d 4)
        (resultBytes out.length bs.length (2 * b2n fin) (s.cuts % 2 ^ 24)) (.result q r.index)
  | .ok _, none => h

/-- CLOSE. -/
def Hw.descCmpClose (h : Hw) (q : Nat) (d : DescWords) : Hw :=
  match h.ownSlot q (dw d 0 16 4) with
  | .error e => h.descFail q e
  | .ok s => if h.slotBusy q s.num then h else (h.freeSlot s.num).descDone q

/-- SAVE: the image is written and the slot freed. -/
def Hw.descSave (h : Hw) (q : Nat) (d : DescWords) : Hw :=
  if nth d 1 % 64 ≠ 0 then h.descFail q E.badDescriptor
  else match h.ownSlot q (dw d 0 16 4), h.started q with
    | .error e, _ => h.descFail q e
    | .ok s, some r =>
      if h.slotBusy q s.num then h else
      match h.slotImage s with
      | none => h.descFail q E.badState
      | some (img, h) => (h.freeSlot s.num).dmaWrite (h.qCtx q) (nth d 1) img (.payload q r.index)
    | .ok _, none => h

/-- RESTORE: the image is read into a free slot. -/
def Hw.descRestore (h : Hw) (q : Nat) (d : DescWords) : Hw :=
  if nth d 1 % 64 ≠ 0 then h.descFail q E.badDescriptor
  else if (h.slot (dw d 0 16 4)).isSome then h.descFail q E.stateFull
  else match h.started q with
    | some r => h.dmaRead (h.qCtx q) (nth d 1) 49152 (.payload q r.index)
    | none => h

/-- The image of a RESTORE has arrived (R473, R518). -/
def Hw.restoreArrived (h : Hw) (q : Nat) (d : DescWords) (bs : List Nat) : Hw :=
  let n := dw d 0 16 4
  if slice bs 0 4 ≠ ascii "BDS1" ∨ fld bs 4 4 ≠ h.g R.BLK_SILICON_REV ∨ fld bs 24 4 ≠ crc32c (bs.drop 32) then
    h.descFail q E.badDescriptor
  else if (h.slot n).isSome then h.descFail q E.stateFull
  else match h.ctxKey (h.qCtx q) with
  | none => h.descFail q E.authFail
  | some k =>
    match Config.gcmOpen k.key (fld bs 28 4) (bs.take 24 ++ [0, 0, 0, 0] ++ slice bs 28 4) (bs.drop 32) with
    | none => h.descFail q E.authFail
    | some body =>
      (h.putSlot ⟨n, h.qCtx q, 0, nth bs 8 + 1, slice body 4 (min 32768 (fld body 0 4)), fld bs 12 4, fld bs 16 8⟩).descDone q

/-- INFLATE: the stream is read. -/
def Hw.descInflate (h : Hw) (q : Nat) (d : DescWords) : Hw :=
  if dw d 2 0 32 = 0 ∨ nth d 5 % 16 ≠ 0 then h.descFail q E.badDescriptor
  else match h.started q with
    | some r => h.dmaRead (h.qCtx q) (nth d 1) (dw d 2 0 32) (.payload q r.index)
    | none => h

/-- The stream of an INFLATE has arrived (R482): one that breaks RFC 1951 or exceeds DSTMAX writes nothing. -/
def Hw.inflateArrived (h : Hw) (q : Nat) (d : DescWords) (bs : List Nat) : Hw :=
  match inflate bs, h.started q with
  | none, _ => h.descFail q E.badDescriptor
  | some out, some r =>
    if nth d 4 < out.length then h.descFail q E.badDescriptor
    else ((h.bookCmp bs.length out.length).dmaWrite (h.qCtx q) (nth d 3) out (.payload q r.index)).dmaWrite (h.qCtx q) (nth d 5)
      (resultBytes out.length bs.length 0 0) (.result q r.index)
  | some _, none => h

/-- PACK: the raw data is read. -/
def Hw.descPack (h : Hw) (q : Nat) (d : DescWords) : Hw :=
  let w := dw d 0 16 2
  let n := dw d 2 0 40
  if w = 3 ∨ n = 0 ∨ n % packW w ≠ 0 ∨ nth d 3 % 64 ≠ 0 ∨ nth d 4 % 16 ≠ 0 then h.descFail q E.badDescriptor
  else match h.started q with
    | some r => h.dmaRead (h.qCtx q) (nth d 1) n (.payload q r.index)
    | none => h

/-- The raw data of a PACK has arrived (R481, R483). -/
def Hw.packArrived (h : Hw) (q : Nat) (d : DescWords) (bs : List Nat) : Hw :=
  match h.started q with
  | none => h
  | some r =>
    let p := packAll (dw d 0 16 2) (ceilDiv bs.length 4096) bs
    let h := { h with cmp := { h.cmp with packIn := h.cmp.packIn + bs.length, packOut := h.cmp.packOut + p.1.length } }
    let h := (h.s R.PCK_IN_KIB_KIB (h.cmp.packIn / 1024)).s R.PCK_OUT_KIB_KIB (h.cmp.packOut / 1024)
    let h := (h.add R.PCK_PACKED_COUNT p.2.1).add R.PCK_RAW_COUNT p.2.2
    (h.dmaWrite (h.qCtx q) (nth d 3) p.1 (.payload q r.index)).dmaWrite (h.qCtx q) (nth d 4)
      (resultBytes p.1.length (bs.length % 2 ^ 32) 0 (p.2.2 % 2 ^ 24)) (.result q r.index)

/-! ### Privileged channels (R475–R477) -/

/-- A channel's state. -/
def Hw.chan (h : Hw) (c : Nat) : CmpChan := (h.cmp.chans.find? fun x => x.num == c).getD ⟨c, [], 0, 0, 0, 0, false⟩

/-- Store a channel's state. -/
def Hw.putChan (h : Hw) (x : CmpChan) : Hw :=
  { h with cmp := { h.cmp with chans := x :: h.cmp.chans.filter fun y => y.num != x.num } }

/-- The channel takes inputs. -/
def Hw.chanOn (h : Hw) (c : Nat) : Bool := h.running 0x48 && h.on (R.CH_CFG_EN.at c)

/-- The page enters RUNNING: the channels take their slots, and their streams begin (R471, R475). -/
def Hw.cmpStart (h : Hw) : Hw :=
  let h := { h with cmp := { h.cmp with slots := [], chans := [], archive := none } }
  h.each ([1, 2, 3].filter fun c => h.on (R.CH_CFG_EN.at c)) fun h c =>
    h.putSlot ⟨h.g (R.CH_CFG_SLOT.at c), h.operCtx, c, h.g (R.CH_CFG_DEPTH.at c) + 1, [], 0, 0⟩

/-- Two channels name one slot (R471). -/
def Hw.slotsClash (h : Hw) : Bool :=
  let l := ([1, 2, 3].filter fun c => h.on (R.CH_CFG_EN.at c)).map fun c => h.g (R.CH_CFG_SLOT.at c)
  l.eraseDups.length != l.length

/-- The page reaches OFF: what it still held is discarded. -/
def Hw.cmpOff (h : Hw) : Hw := Hw.showSlots { h with cmp := { h.cmp with slots := [], chans := [], archive := none } }

/-- The slots of a drain or an abort are saved (R474): the images, and no slot is open after it. -/
def Hw.saveSlots (h : Hw) : Hw :=
  let base := h.g64 R.CMP_SAVE_LO_ADDR R.CMP_SAVE_HI_ADDR
  let h := if h.on R.CMP_CFG_ABORT_SAVE && base != 0 then
      h.each h.cmp.slots fun h s =>
        match h.slotImage s with
        | none => h
        | some (img, h) => h.dmaWrite h.operCtx (base + 49152 * s.num) img (.slotSave s.num)
    else h
  h.cmpOff

/-- PAGE_ABORT_BOUND of the CMP page follows its configuration (R474). -/
def Hw.cmpBound (h : Hw) : Hw :=
  h.s (R.PAGE_ABORT_BOUND_BOUND 0x48)
    (if h.on R.CMP_CFG_ABORT_SAVE && h.g64 R.CMP_SAVE_LO_ADDR R.CMP_SAVE_HI_ADDR != 0 then 80 else 20)

/-- Compress a cut of channel `c` whose input closed at `ns` (R469, R475, R476): its chunk, and the block with the stream gone on.
`fin` asks for a final cut; `restart` begins a new stream. -/
def Hw.chunkOf (h : Hw) (c : Nat) (input : List Nat) (fin restart : Bool) (ns : Nat) : List Nat × Hw :=
  let x := h.chan c
  let s := (h.cmp.slots.find? fun s => s.chan == c).getD ⟨h.g (R.CH_CFG_SLOT.at c), h.operCtx, c, h.g (R.CH_CFG_DEPTH.at c) + 1, [], 0, 0⟩
  let s := if restart then { s with hist := [], cuts := 0, bytesIn := 0 } else s
  let hist := s.hist
  let packed := cutBytes hist input s.depth fin
  let stored := decide (input.length ≤ packed.length)
  let out := if stored then storedBlocks 2 input fin else packed
  let flags := b2n stored + 2 * b2n fin + 4 * b2n restart + 8 * b2n x.loss
  let bs := le 4 out.length ++ le 4 input.length ++ [c, flags, 0, 0] ++ le 4 (x.seq % 2 ^ 32) ++ le 8 (ns % 2 ^ 64) ++ le 8 0 ++ out
  let h := if stored then (h.inc R.CMP_NOGAIN_COUNT).inc (R.CH_STORED_COUNT.at c) else h
  let h := h.putSlot { s with hist := windowAfter hist input, cuts := (s.cuts + 1) % 2 ^ 32, bytesIn := s.bytesIn + input.length }
  let h := h.putChan { x with seq := (x.seq + 1) % 2 ^ 32, n := if fin then 0 else x.n + 1, loss := false }
  (padMul 64 bs, h.bookCmp input.length out.length)

/-- Write a chunk to the ring of a channel: none while the ring lacks room (R476, R477). -/
def Hw.ringChunk (h : Hw) (c : Nat) (r : List Nat × Hw) : Option Hw :=
  let size := 1024 * h.g (R.CH_SIZE_KIB.at c)
  let base := h.g64 (R.CH_BASE_LO_BASE.at c) (R.CH_BASE_HI_BASE.at c)
  match ringPlace size (h.g (R.CH_HEAD_HEAD.at c)) (h.g (R.CH_TAIL_TAIL.at c)) r.1.length with
  | none => none
  | some (fill, at_, _) =>
    let h := r.2
    let h := if fill = 0 then h else h.dmaWrite h.operCtx (base + h.g (R.CH_TAIL_TAIL.at c)) (le 4 (fill - 32) ++ List.replicate 28 0) (.filler 0x48)
    some (h.dmaWrite h.operCtx (base + at_) r.1 (.chunk c))

/-- A chunk of the channel has no write response yet. -/
def Hw.chunkOut (h : Hw) (c : Nat) : Bool := h.dma.any fun d => d.purpose == .chunk c

/-- No cut that a channel has closed waits, and no chunk is on its way (R87, R474). -/
def Hw.cmpDrained (h : Hw) : Bool := h.cmp.archive.isNone && (h.chan 3).closed == 0 && !h.chunkOut 1 && !h.chunkOut 3

/-- The write response of a chunk at `addr` (R46, R378): the tail goes on; the end of an archive raises ARCHIVE_DONE (R485). -/
def Hw.chunkWritten (h : Hw) (c addr len : Nat) : Hw :=
  let base := h.g64 (R.CH_BASE_LO_BASE.at c) (R.CH_BASE_HI_BASE.at c)
  let h := h.s (R.CH_TAIL_TAIL.at c) ((addr + len - base) % max 1 (1024 * h.g (R.CH_SIZE_KIB.at c)))
  if c = 1 ∧ h.cmp.archive = some [] then ({ h with cmp := { h.cmp with archive := none } }).raise 0x48 16 else h

/-- The input of an archive (R407, R475): the buffer from TRC_BUF_START to TRC_BUF_WR. -/
def Hw.archiveInput (h : Hw) : List Nat :=
  (h.trc.buf.dropWhile fun x => x.1 != h.g R.TRC_BUF_START_OFF).flatMap fun x => x.2

/-- An archive begins on channel 1, with a new stream. -/
def Hw.archiveStart (h : Hw) : Hw :=
  let i := h.archiveInput
  let h := h.putChan { h.chan 1 with n := 0 }
  if i.isEmpty then h.raise 0x48 16 else { h with cmp := { h.cmp with archive := some i } }

/-- CMP_CMD ARCHIVE (R475). -/
def Hw.archiveCmd (h : Hw) : Tried :=
  if !h.chanOn 1 || h.cmp.archive.isSome then .error E.badState else .ok h.archiveStart

/-- The entry to FROZEN with AUTO set (R475). -/
def Hw.archiveAuto (h : Hw) : Hw :=
  if h.chanOn 1 && h.on (R.CH_CFG_AUTO.at 1) && h.cmp.archive.isNone then h.archiveStart else h

/-- Bytes that wait in a channel's input buffer. -/
def CmpChan.size (x : CmpChan) : Nat := total (x.buf.map fun e => e.2.length)

/-- Channel 3 takes a verdict-log entry (R475, R477): one that finds the 64 KiB buffer full is lost. -/
def Hw.archiveVerdict (h : Hw) (e : List Nat) : Hw :=
  if !h.chanOn 3 then h else
  let x := h.chan 3
  if 65536 < x.size + e.length then ((h.inc (R.CH_LOST_COUNT.at 3)).raise 0x48 17).putChan { x with loss := true }
  else
    let x := { x with buf := x.buf ++ [(h.frc, e)] }
    h.putChan (if x.closed = 0 ∧ x.size = 65536 then { x with closed := x.buf.length, closedNs := h.ns } else x)

/-- VERDICT_ARCHIVE_CUT_TIMER (R475): 1 s after its first entry, channel 3 closes its cut. -/
def execVerdictArchiveCutTimer (s : State) : Result := s.go fun h =>
  let x := h.chan 3
  match x.buf with
  | [] => h
  | e :: _ =>
    if h.chanOn 3 && x.closed == 0 && e.1 + 1000000000 ≤ h.frc then h.putChan { x with closed := x.buf.length, closedNs := h.ns } else h

/-- The next chunk of channel 1: 65,536 bytes of the archive, or its end, which is final. -/
def Hw.archiveChunk (h : Hw) : Hw :=
  match h.cmp.archive with
  | none => h
  | some i =>
    if i.isEmpty then h else
    let b := i.take 65536
    match h.ringChunk 1 (h.chunkOf 1 b (decide (i.length ≤ 65536)) ((h.chan 1).n == 0) h.ns) with
    | none => h
    | some h => { h with cmp := { h.cmp with archive := some (i.drop 65536) } }

/-- The next chunk of channel 3: its closed cut; every sixteenth is final, and a loss restarts the stream. -/
def Hw.verdictChunk (h : Hw) : Hw :=
  let x := h.chan 3
  if x.closed = 0 then h else
  let n := if x.loss then 0 else x.n
  let b := (x.buf.take x.closed).flatMap fun e => e.2
  match (h.putChan { x with n := n }).ringChunk 3 ((h.putChan { x with n := n }).chunkOf 3 b (n == 15) (n == 0) x.closedNs) with
  | none => h
  | some h =>
    let y := h.chan 3
    h.putChan { y with buf := y.buf.drop x.closed, closed := 0 }

/-- CHUNK_RING_WRITE (R476, R477): the next chunk of a channel, once its ring has room. A drain still writes the cuts it accepted (R474). -/
def execChunkRingWrite (c : Nat) (s : State) : Result := s.go fun h =>
  if !h.works 0x48 || !h.on (R.CH_CFG_EN.at c) || h.chunkOut c then h else
  match c with
  | 1 => h.archiveChunk
  | 3 => h.verdictChunk
  | _ => h

/-! ### Meanings of the descriptors -/

/-- CMP_OPEN (R471, R482). -/
def execCmpOpen (q : Nat) (s : State) : Result :=
  s.go fun h => h.withDesc q 4 0x50 [(0, 16, 13)] fun h d => h.descCmpOpen q d

/-- CMP_DEFLATE (R469, R482). -/
def execCmpDeflate (q : Nat) (s : State) : Result :=
  s.go fun h => h.withDesc q 4 0x51 [(0, 16, 5), (1, 0, 64), (2, 0, 17), (3, 0, 64), (4, 0, 64)] fun h d => h.descDeflate q d

/-- CMP_CLOSE (R471, R482). -/
def execCmpClose (q : Nat) (s : State) : Result :=
  s.go fun h => h.withDesc q 4 0x52 [(0, 16, 4)] fun h d => h.descCmpClose q d

/-- CMP_SAVE (R473, R482). -/
def execCmpSave (q : Nat) (s : State) : Result :=
  s.go fun h => h.withDesc q 4 0x53 [(0, 16, 4), (1, 0, 64)] fun h d => h.descSave q d

/-- CMP_RESTORE (R473, R482). -/
def execCmpRestore (q : Nat) (s : State) : Result :=
  s.go fun h => h.withDesc q 4 0x54 [(0, 16, 4), (1, 0, 64)] fun h d => h.descRestore q d

/-- CMP_INFLATE (R482). -/
def execCmpInflate (q : Nat) (s : State) : Result :=
  s.go fun h => h.withDesc q 4 0x55 [(1, 0, 64), (2, 0, 32), (3, 0, 64), (4, 0, 64), (5, 0, 64)] fun h d => h.descInflate q d

/-- PCK_PACK (R481, R482). -/
def execPckPack (q : Nat) (s : State) : Result :=
  s.go fun h => h.withDesc q 5 0x60 [(0, 16, 2), (1, 0, 64), (2, 0, 40), (3, 0, 64), (4, 0, 64)] fun h d => h.descPack q d

/-- CMP_ARCHIVE (R475, R485): operator only. -/
def execCmpArchive (a : Acc) (s : State) : Result := s.go fun h => h.operWrite a 0x48 0x064 Hw.archiveCmd

end Sys2Proof.Machine
end

