-- ==== Sys2Proof/Machine/Trace.lean ====
section
/-!
DEFINITION. Machine/Trace.lean: trace packets and their sinks (R394–R407), watchpoints and trigger lines (R408–R411) and the beginning of
a global stop (R414).
-/
namespace Sys2Proof.Machine

/-! ### Packets -/

/-- CCLK cycles in nanoseconds, rounded down. -/
def Hw.cclkNs (h : Hw) (cycles : Nat) : Nat := cycles * 1000 / max 1 (h.g R.BLK_CCLK_MHZ)

/-- DT on the port and in the buffer (R395). -/
def Hw.traceDt (h : Hw) : Nat := if h.timed then ((h.ns : Int) - h.trc.lastSync).toNat % 2 ^ 32 else (h.frc - h.trc.lastSyncFrc) % 2 ^ 32

/-- An event packet (R395). -/
def packet (id kind sub dt data : Nat) : List Nat := [id % 128, kind] ++ le 2 sub ++ le 4 dt ++ le 8 data

/-- Bytes of the buffer in use. -/
def Hw.traceSize (h : Hw) : Nat := h.g R.TRC_BUF_KIB * 1024

/-- Count a packet lost at a sink (R398). -/
def Hw.tracedrop (h : Hw) (id n : Nat) (port : Bool) : Hw :=
  let had := match h.trc.lost.find? fun x => x.1 == id with | some x => x.2 | none => 0
  let h := { h with trc := { h.trc with lost := (id, had + n) :: h.trc.lost.filter fun x => x.1 != id } }
  let h := { h with trc := { h.trc with portLost := h.trc.portLost + if port then n else 0 } }
  (h.add (R.TRC_DROP_COUNT.at id) n).raise 0x38 18

/-- The port FIFO of 64 KiB has no room for `bytes` more for a packet of an ID (R402): with BUF_MODE STREAM the buffer extends it, and dropping
starts only when both are full. -/
def Hw.portRefuses (h : Hw) (id bytes : Nat) : Bool :=
  let used := 16 * h.trc.fifo.length
  let stream := h.g R.TRC_CFG_BUF_MODE == 0
  let size := 65536 + (if stream then h.traceSize else 0)
  (!h.on (R.TRC_ID_PRIO.at id) && !stream && h.g R.TRC_CFG_LOW_LEVEE * 256 < used) || size < used + bytes

/-- Put a packet of an ID in the port FIFO, 16 bytes kept for the next sync packet (R396, R402). -/
def Hw.portPut (h : Hw) (id : Nat) (pkt : List Nat) : Hw :=
  if h.portRefuses id 32 then h.tracedrop id 1 true
  else { h with trc := { h.trc with fifo := h.trc.fifo ++ [pkt] } }

/-- The offset of the first sync packet of a list of packets. -/
def firstSync (l : List (Nat × List Nat)) : Option Nat :=
  match l.find? fun x => nth x.2 0 == 0xFF with | some x => some x.1 | none => none

/-- Write a packet to the ring of RING and TRIGGER modes (R403, R404): where it would overwrite the packet at START, START goes on to the
next sync packet. -/
def Hw.bufWrite (h : Hw) (pkt : List Nat) : Hw :=
  let at_ := h.g R.TRC_BUF_WR_OFF
  let beyond := h.trc.buf.any fun x => x.1 == at_
  let rest := h.trc.buf.filter fun x => x.1 != at_
  let after := match h.trc.buf.dropWhile fun x => x.1 != h.g R.TRC_BUF_START_OFF with | _ :: t => t | [] => []
  let h := if beyond && at_ == h.g R.TRC_BUF_START_OFF then
      h.s R.TRC_BUF_START_OFF ((firstSync (after ++ [(at_, pkt)])).getD at_) else h
  let h := { h with trc := { h.trc with buf := rest ++ [(at_, pkt)] } }
  h.s R.TRC_BUF_WR_OFF ((at_ + 16) % max 16 h.traceSize)

/-- Put a packet of an ID in the buffer (R403, R405, R406). -/
def Hw.bufPut (h : Hw) (id : Nat) (pkt : List Nat) : Hw :=
  if h.g R.TRC_CFG_BUF_MODE = 0 then h
  else if h.on R.TRC_STAT_FROZEN || (h.on R.TRC_STAT_FILLING && h.trc.postLeft < 16) then h.tracedrop id 1 false
  else
    let h := h.bufWrite pkt
    if h.on R.TRC_STAT_FILLING then { h with trc := { h.trc with postLeft := h.trc.postLeft - 16 } } else h

/-- Close the TRACE record of an ID (R397): DT of each packet counts from the record's event time. -/
def Hw.closeTrace (h : Hw) (id : Nat) : Hw :=
  match h.trc.open_.find? fun o => o.id == id with
  | none => h
  | some o =>
    let h := { h with trc := { h.trc with open_ := h.trc.open_.filter fun x => x.id != id } }
    let t0 := o.stamp.nt / 65536
    let pay := o.packets.flatMap fun p => p.2.take 4 ++ le 4 (p.1 - t0) ++ p.2.drop 8
    h.handOver [h.mkRec 0x38 (if h.on (R.TRC_ID_PRIO.at id) then 5 else 6) (0x0100 + id) h.ownGrade o.stamp pay]

/-- Put a packet in the TRACE record of its ID (R397): closed at 255 packets. Nothing is stamped with NT before the first step (R117). -/
def Hw.recPut (h : Hw) (id : Nat) (pkt : List Nat) : Hw :=
  if !h.timed then h else
  let o := (h.trc.open_.find? fun o => o.id == id).getD ⟨id, [], h.frc, h.stampOwn⟩
  let o := { o with packets := o.packets ++ [(h.ns, pkt)] }
  let h := { h with trc := { h.trc with open_ := o :: h.trc.open_.filter fun x => x.id != id } }
  if o.packets.length = 255 then h.closeTrace id else h

/-- The funnel regime that R399 asks for now. -/
def Hw.funnelNow (h : Hw) : Bool :=
  h.saf.testMode || (match h.prof with | .l => !h.on R.CUL_LEAF_REGISTERED | _ => h.g R.FAB_ID_STATE != 2) || !h.running 0x30

/-- A sync packet (R396, R400): the regime changes with it, the port FIFO and the buffer always have room for it. -/
def Hw.syncPacket (h : Hw) : Hw :=
  let h := h.s R.TRC_STAT_FUNNEL (b2n h.funnelNow)
  let pkt := [0xFF, h.tstat + 32 * b2n (!h.timed)] ++ le 2 (min h.trc.portLost 0xFFFF) ++
    (if h.timed then le 10 h.nt else le 10 (h.frc % 2 ^ 64)) ++ le 2 (h.trc.syncNo % 65536)
  let h := { h with trc := { h.trc with syncNo := h.trc.syncNo + 1, portLost := 0, lastSync := h.ns, lastSyncFrc := h.frc } }
  let h := if h.g R.TRC_CFG_PORT_MODE = 0 then h else { h with trc := { h.trc with fifo := h.trc.fifo ++ [pkt] } }
  let h := if h.g R.TRC_CFG_BUF_MODE = 0 then h
    else if h.on R.TRC_STAT_FROZEN || (h.on R.TRC_STAT_FILLING && h.trc.postLeft < 16) then h.tracedrop 0x7F 1 false else
    let first := h.trc.buf.isEmpty
    let at_ := h.g R.TRC_BUF_WR_OFF
    let h := h.bufWrite pkt
    let h := if first then h.s R.TRC_BUF_START_OFF at_ else h
    if h.on R.TRC_STAT_FILLING then { h with trc := { h.trc with postLeft := h.trc.postLeft - 16 } } else h
  h.inc R.TRC_SYNCS_COUNT

/-- Packets were lost at the port, and it has room again: a sync packet ends the interval (R396). -/
def Hw.portRecovers (h : Hw) (id : Nat) : Bool := 0 < h.trc.portLost && !h.portRefuses id 48

/-- An event of a trace ID goes to its sinks, with the funnel regime in force (R397, R399): `buf` is false where the packet has been written
to the buffer already (R405). -/
def Hw.traceTo (h : Hw) (id kind sub data : Nat) (buf : Bool) : Hw :=
  if !h.running 0x38 || !h.on (R.TRC_ID_EN.at id) then h else
  let toPort (h : Hw) : Bool := h.g R.TRC_CFG_PORT_MODE != 0 && (h.on R.TRC_STAT_FUNNEL || h.on (R.TRC_ID_PORT.at id))
  let h := if toPort h && h.portRecovers id then h.syncPacket else h
  let fun_ := h.on R.TRC_STAT_FUNNEL
  let pkt := packet id kind sub h.traceDt data
  let h := if toPort h then h.portPut id pkt else h
  let h := if buf && (fun_ || h.on (R.TRC_ID_BUF.at id)) then h.bufPut id pkt else h
  if !fun_ && h.on (R.TRC_ID_REC.at id) then h.recPut id pkt else h

/-- TRACE_SYNC_TIMER (R396, R398): every 4,096 CCLK cycles, after one KIND 9 packet for each ID that lost packets in the
interval; both take their place in the tick's stream (R400). -/
def execTraceSyncTimer (s : State) : Result := s.go fun h =>
  if h.running 0x38 && decide (h.trc.lastSyncFrc + h.cclkNs 4096 ≤ h.frc) && !h.trc.blk.any fun e => e.id == 0x7F then
    let lost := h.trc.lost
    let h := { h with trc := { h.trc with lost := [] } }
    (h.each lost fun h x => h.trace 0x31 9 x.1 x.2).traceLater ⟨0x7F, 0, 0, 0, 0⟩
  else h

/-- TRACE_RECORD_CLOSE_TIMER (R397): 10 µs after its first packet. -/
def execTraceRecordCloseTimer (id : Nat) (s : State) : Result := s.go fun h => if h.faulted 0x38 then h else
  match h.trc.open_.find? fun o => o.id == id with
  | some o => if o.firstFrc + 10000 ≤ h.frc then h.closeTrace id else h
  | none => h

/-- Empty the buffer (R406, R407). -/
def Hw.bufEmpty (h : Hw) : Hw :=
  let h := { h with trc := { h.trc with buf := [], postLeft := 0 } }
  let h := ((h.s R.TRC_STAT_FROZEN 0).s R.TRC_STAT_FILLING 0).s R.TRC_BUF_WR_OFF 0
  (h.s R.TRC_BUF_START_OFF 0).s R.TRC_TRIG_POS_OFF 0

/-- TRC_REARM (R406). -/
def Hw.rearm (h : Hw) : Tried :=
  if h.on R.TRC_STAT_FILLING then .error E.badState
  else .ok (if h.running 0x38 then h.bufEmpty.syncPacket else h.bufEmpty)

/-- TRC_REARM (R406). -/
def execTrcRearm (a : Acc) (s : State) : Result := s.go fun h => h.hostWrite a 0x38 0x04C false Hw.rearm

/-- TRACE_BUFFER_FROZEN (R405): the post-trigger part is full. -/
def execTraceBufferFrozen (s : State) : Result := s.go fun h => if h.faulted 0x38 then h else
  if h.on R.TRC_STAT_FILLING && h.trc.postLeft < 16 then
    (((h.s R.TRC_STAT_FROZEN 1).s R.TRC_STAT_FILLING 0).raise 0x38 16).archiveAuto
  else h

/-! ### Triggers -/

/-- FREEZE on the buffer (R405, R406): the KIND 8 packet at TRIG_POS, and the post-trigger part begins. -/
def Hw.freeze (h : Hw) (sub data : Nat) : Hw × Bool :=
  if h.g R.TRC_CFG_BUF_MODE ≠ 2 || h.on R.TRC_STAT_FROZEN || h.on R.TRC_STAT_FILLING then (h.inc R.TRC_TRIG_EXTRA_COUNT, false)
  else
    let h := h.s R.TRC_TRIG_POS_OFF (h.g R.TRC_BUF_WR_OFF)
    let h := (h.bufWrite (packet 0x31 8 sub h.traceDt data)).s R.TRC_STAT_FILLING 1
    ({ h with trc := { h.trc with postLeft := h.traceSize / 16 * (16 - h.g R.TRC_CFG_PRE) - 16 } }, true)

/-- SOURCE[31:13] of this instance: its entity key (R302). -/
def Hw.entityKey (h : Hw) : Nat := h.source 0 / 2 ^ 13

/-- The TRIGGER message of a firing (R353, R411): `root` is the node that spreads it. -/
def triggerMsg (line root origin ns seq : Nat) : List Nat :=
  [3, line] ++ le 2 root ++ le 4 origin ++ le 8 ns ++ le 4 seq ++ le 4 0 ++ le 8 0

/-- The register block of a queue, 0x60 bytes (R101, R416). -/
def Hw.queueBlock (h : Hw) (q : Nat) : List Nat :=
  (List.range 24).flatMap fun i => le 4 (h.peek (quePage q) (0x400 + 0x60 * (q % 32) + 4 * i))

/-- The page images and queue blocks of a dump (R416). -/
def Hw.dumpSections (h : Hw) (pages queues : List Nat) : List (Nat × Nat × List Nat) :=
  (pages.map fun p => (1, p, h.pageImage p)) ++ queues.map fun q => (2, q, h.queueBlock q)

/-- One section with its header (R416). -/
def sectionBytes (s : Nat × Nat × List Nat) : List Nat :=
  [s.1, 0] ++ le 2 s.2.1 ++ le 4 s.2.2.length ++ le 8 0 ++ s.2.2

/-- The sections that fit in `room` bytes, whole; true where one did not (R415). -/
def fitSections (room : Nat) : List (Nat × Nat × List Nat) → List Nat × Bool
  | [] => ([], false)
  | s :: t =>
    if room < 16 + s.2.2.length then ([], true)
    else let r := fitSections (room - 16 - s.2.2.length) t; (sectionBytes s ++ r.1, r.2)

/-- A dump (R416). -/
def dumpBytes (limit flags nt cause ctx frc : Nat) (secs : List (Nat × Nat × List Nat)) : List Nat × Bool :=
  let b := fitSections (limit - 64) secs
  (le 4 (64 + b.1.length) ++ le 4 (flags + 2 * b2n b.2) ++ le 10 nt ++ le 2 cause ++ le 4 ctx ++ le 8 (frc % 2 ^ 64) ++
    List.replicate 32 0 ++ b.1, b.2)

/-- Write the dump of a global stop (R415, R416). -/
def Hw.writeDump (h : Hw) (absent : Bool) : Hw :=
  let host := if absent then [] else [(3, 0, h.trc.hostScan)]
  let from_ := h.trc.buf.dropWhile fun x => x.1 != h.g R.TRC_BUF_START_OFF
  let buf := if h.on R.DBG_CFG_TRACE && h.on R.TRC_STAT_FROZEN then [(4, 0, from_.flatMap fun x => x.2)] else []
  let d := dumpBytes (h.g R.DBG_DUMP_KIB_KIB * 1024) (b2n absent) h.trc.stopNt h.trc.stopCause h.operCtx h.trc.stopFrc
    (h.trc.stopSecs ++ host ++ buf)
  let h := ((h.s R.DBG_STAT_STATE 3).s R.DBG_STAT_HOST_ABSENT (b2n absent)).s R.DBG_STAT_TRUNCATED (b2n d.2)
  let h := { h with trc := { h.trc with scnReq := false } }
  (h.s R.DBG_DUMP_LEN_BYTES d.1.length).dmaWrite h.operCtx (h.g64 R.DBG_DUMP_LO_ADDR R.DBG_DUMP_HI_ADDR) d.1 .dump

/-- The scan-out starts (R415): SCN_REQ with SCAN_HOST, or block state alone. -/
def Hw.startScan (h : Hw) : Hw :=
  if h.on R.DBG_CFG_SCAN_HOST then
    { h with trc := { h.trc with scnReq := true, scnFrc := h.frc } }.s R.DBG_STAT_STATE 2
  else h.writeDump true

/-- A stop that comes now is carried out, and with DBG_CFG FREEZE it freezes the trace buffer (R414). -/
def Hw.stopFreezes (h : Hw) : Bool :=
  h.running 0x3A && h.g R.DBG_STAT_STATE == 0 && !h.trc.stopReq && h.on R.DBG_CFG_FREEZE && h.running 0x38

/-- A qualifying stop (R68, R69, R414): the snapshot, STOP_REQ on a Boldal L, which TEST_MODE holds low; elsewhere the scan-out starts at
once. While STOP_REQ is still high after an abort of the page a trigger adds nothing. -/
def Hw.globalStop (h : Hw) (cause : Nat) : Hw :=
  if !h.running 0x3A then h
  else if h.g R.DBG_STAT_STATE ≠ 0 then h.inc R.DBG_STOP_EXTRA_COUNT
  else if h.trc.stopReq then h
  else
    let secs := h.dumpSections h.pageList (List.range h.queueCount)
    let h := { h with trc := { h.trc with stopCause := cause, stopNt := h.nt, stopFrc := h.frc, stopSecs := secs, hostScan := [] } }
    let h := (h.s R.DBG_STAT_STATE 1).raise 0x3A 16
    match h.prof with
    | .l => { h with trc := { h.trc with stopReq := !h.saf.testMode } }
    | _ => h.startScan

/-- TRIG_OUT[n] pulses (R66): a trigger that comes while it is high extends the pulse. -/
def Hw.pulseOut (h : Hw) (n : Nat) : Hw :=
  let fall := h.frc + h.g (R.TL_CTL_WIDTH.at n)
  let high := h.trc.trigOut.any fun x => x.1 == n
  let h := { h with trc := { h.trc with trigOut := (n, fall) :: h.trc.trigOut.filter fun x => x.1 != n } }
  if high then h else h.emit (.trigOut n)

/-- Line `n` fires (R409): `msg` is the message of a received trigger, which goes no further from here (R411). -/
def Hw.fireLine (h : Hw) (n : Nat) (remote : Option (Nat × Nat)) : Hw :=
  if !h.running 0x38 then h else
  let origin := match remote with | some r => r.1 | none => h.entityKey
  let seq := match remote with | some r => r.2 | none => h.fab.trigSeq
  let data := origin + 2 ^ 32 * seq
  let h := if remote.isSome then h else { h with fab := { h.fab with trigSeq := succ32 h.fab.trigSeq } }
  let h := (h.inc (R.TL_COUNT_COUNT.at n)).raise 0x38 17
  let stops := bit (h.g R.DBG_CFG_STOP_LINES) n
  let h := h.traceLater ⟨0x31, 8, n, data, b2n (h.on (R.TL_CTL_FREEZE.at n) || (stops && h.stopFreezes))⟩
  let h := if h.on (R.TL_CTL_OUT.at n) then h.pulseOut n else h
  let h := if remote.isSome then h else { h with fab := { h.fab with trigSeen := (origin, seq) :: h.fab.trigSeen } }
  let msg := triggerMsg n (match h.prof with | .l => 0 | _ => h.g R.FAB_ID_NODE) origin (h.ns % 2 ^ 64) seq
  let h := if remote.isNone && h.on (R.TL_CTL_TRAY.at n) then
      match h.activeHome with
      | some p => if h.prof = .l then h.sendRel p 6 1 0xFFF [] (h.plainFrame 6 1 msg) else h
      | none => h.sendLeaves 6 msg
    else h
  let h := if remote.isNone && h.on (R.TL_CTL_FABRIC.at n) && h.prof ≠ .l then
      h.each (h.launchChildren (h.g R.FAB_ID_NODE)) fun h c => h.sendTo c 6 msg
    else h
  if stops then h.globalStop (n + 1) else h

/-- One comparison of watchpoint `w` with its slot's live value (R408): a crossing lies between two values of one slot, the threshold being the
present one. -/
def Hw.compareWp (h : Hw) (w : Nat) : Hw :=
  if h.prof = .g || 16 ≤ w || !h.on (R.WP_CTL_EN.at w) || !h.running 0x38 then h else
  let slot := h.g (R.WP_CTL_SLOT.at w)
  let v := h.slotNow slot
  let thr := h.g64 (R.WP_THR_LO_THR.at w) (R.WP_THR_HI_THR.at w)
  let atLeast (v : Nat) : Bool := if h.gauge slot then decide (signed 64 thr ≤ signed 64 v) else decide (thr ≤ v)
  let now := atLeast v
  let was := match h.trc.wpAt.find? fun x => x.1 == w && x.2.1 == slot with | some x => atLeast x.2.2 | none => now
  let last := match h.trc.wpFrc.find? fun x => x.1 == w with | some x => some x.2 | none => none
  let fires := match h.g (R.WP_CTL_CMP.at w) with
    | 0 => !was && now
    | 1 => was && !now
    | _ => now && (match last with | some f => decide (f + 1024 ≤ h.frc) | none => true)
  let h := { h with trc := { h.trc with wpAt := (w, slot, v) :: h.trc.wpAt.filter fun x => x.1 != w } }
  if !fires then h else
  let h := { h with trc := { h.trc with wpFrc := (w, h.frc) :: h.trc.wpFrc.filter fun x => x.1 != w } }
  let h := (h.inc (R.WP_HITS_COUNT.at w)).trace (0x20 + w) 3 slot v
  let n := h.g (R.WP_CTL_LINE.at w)
  if h.on (R.WP_CTL_TRIG.at w) && h.on (R.TL_CTL_WP.at n) then h.fireLine n none else h

/-- The comparisons of a tick (R408): every watchpoint of a leaf, on a Boldal T those of the proxy leaves polled in it. -/
def Hw.watchTick (h : Hw) : Hw :=
  let ws := (List.range 16).filter fun w => h.on (R.WP_CTL_EN.at w) &&
    (h.prof == .l || h.trc.polled.contains (h.g (R.WP_CTL_SLOT.at w) / 256))
  let h := h.each ws fun h w => h.compareWp w
  { h with trc := { h.trc with polled := [] } }

/-- WATCHPOINT_CROSSING (R408). -/
def execWatchpointCrossing (w : Nat) (s : State) : Result := s.go fun h => h.compareWp w

/-- TRIG_IN_EDGE (R64, R66, R409): a rising edge on TRIG_IN[n]; it counts in the slots that name the pin (R171). -/
def execTrigInEdge (n : Nat) (s : State) : Result := s.go fun h =>
  if 4 ≤ n || !h.pwr.core then h else
  let h := h.count 5 n 0 1
  if h.on (R.TL_CTL_IN.at n) then h.fireLine n none else h

/-- TRIG_OUT_PULSE_END (R66). -/
def execTrigOutPulseEnd (n : Nat) (s : State) : Result := s.go fun h =>
  { h with trc := { h.trc with trigOut := h.trc.trigOut.filter fun x => !(x.1 == n && decide (x.2 ≤ h.frc)) } }

/-- TRC_TRIGGER (R409): TRC_CMD TRIGGER fires a line whose SOFT source is enabled. -/
def Hw.softTrigger (h : Hw) (n : Nat) : Tried :=
  .ok (if h.on (R.TL_CTL_SOFT.at (n % 4)) then h.fireLine (n % 4) none else h)

/-- TRC_TRIGGER (R409). -/
def execTrcTrigger (a : Acc) (line : Nat) (s : State) : Result := s.go fun h =>
  h.hostWrite a 0x38 0x04C false fun h => h.softTrigger line

/-- TRIGGER_FRAME_RX (R411): applied once per origin and sequence; a node sends it on to its leaves, along the launch tree of the root it names where
it came over the fabric, and to the fabric with itself as root where it came from a leaf and the line has FABRIC. -/
def execTriggerFrameRx (p sec : Nat) (bs : List Nat) (s : State) : Result := s.go fun h =>
  h.receive p sec bs 6 fun f h =>
    if f.payload.length ≠ 32 then h.discard p
    else if nth f.payload 0 ≠ 3 then h
    else
      let got := h.acceptRel p f 0 0
      let h := got.1
      let origin := fld f.payload 4 4
      let seq := fld f.payload 16 4
      let line := nth f.payload 1
      if !got.2 || h.fab.trigSeen.contains (origin, seq) then h else
      let h := { h with fab := { h.fab with trigSeen := (origin, seq) :: h.fab.trigSeen } }
      let h := if h.prof = .l then h
        else if isCulvert p then
          let me := h.g R.FAB_ID_NODE
          let msg := f.payload.take 2 ++ le 2 me ++ f.payload.drop 4
          if line < 4 && h.running 0x38 && h.on (R.TL_CTL_FABRIC.at line) then
            (h.each (h.launchChildren me) fun h c => h.sendTo c 6 msg).sendLeaves 6 msg
          else h.sendLeaves 6 f.payload
        else (h.each (h.launchChildren (fld f.payload 2 2)) fun h c => h.sendTo c 6 f.payload).sendLeaves 6 f.payload
      if line < 4 && h.on (R.TL_CTL_REMOTE.at line) then h.fireLine line (some (origin, seq)) else h

/-! ### Software markers, readout, the command tap -/

/-- TRC_SWMARK_WRITE (R418): the operator, or the ID's context. -/
def Hw.swmark (h : Hw) (a : Acc) (m v : Nat) : Hw :=
  if !h.powered 0x38 0x700 || !h.admits a then h.busError
  else if a.oper || h.g (R.TRC_ID_CTX.at (0x10 + m)) = a.ctx then
    (h.reply 0).finish 0x38 (.ok ((h.reply 0).trace (0x10 + m) 2 0 (v % 2 ^ 64)))
  else (h.err 0x38 E.accessDenied).busError

/-- TRC_SWMARK_WRITE (R418). -/
def execTrcSwmarkWrite (a : Acc) (m v : Nat) (s : State) : Result := s.go fun h => if m < 16 then h.swmark a m v else h

/-- TRC_RD_DATA_READ (R407, R418): the word at TRC_RD_OFF, which advances by 4 and wraps at the buffer's end. -/
def Hw.rdTrace (h : Hw) : Hw :=
  let off := h.g R.TRC_RD_OFF_OFF
  (h.reply (h.traceWord off)).s R.TRC_RD_OFF_OFF ((off + 4) % max 4 h.traceSize)

/-- TRC_RD_DATA_READ (R418). -/
def execTrcRdDataRead (a : Acc) (s : State) : Result := s.go fun h => h.access a 0x38 0x064 false Hw.rdTrace

/-- CMT_EVENT (R59, R171): an event of the command tap is stamped, and enters the buffer of 64, or is counted as a trace drop of its
engine's ID; the counters of the engine count it either way, busy ticks apart. -/
def execCmtEvent (ch engine kind tag : Nat) (s : State) : Result := s.go fun h =>
  if h.prof ≠ .l || !h.pwr.core || 2 ≤ ch || 256 ≤ engine then h else
  let kind := kind % 2
  if 64 ≤ h.trc.cmt.length then (h.tracedrop (engine / 16) 1 false).count 1 engine 3 1
  else
    let h := h.count 1 engine kind 1
    let h := h.countBusy
    let b := (h.cnt.busy.find? fun x => x.1 == engine).getD (engine, 0, h.frc)
    let n := if kind = 0 then b.2.1 + 1 else b.2.1 - 1
    let h := { h with cnt := { h.cnt with busy := (engine, n, h.frc) :: h.cnt.busy.filter fun x => x.1 != engine } }
    { h with trc := { h.trc with cmt := h.trc.cmt ++ [⟨ch, engine, kind, tag % 2 ^ 32, h.frc⟩] } }

/-- An event of the tick goes to its sinks (R397, R405). -/
def Hw.traceEvent (h : Hw) (e : TraceEv) : Hw :=
  if e.id = 0x7F then h.syncPacket else
  match e.sink with
  | 0 => h.traceTo e.id e.kind e.sub e.data true
  | 1 => let f := h.freeze e.sub e.data; f.1.traceTo e.id e.kind e.sub e.data (!f.2)
  | _ => (h.freeze e.sub e.data).1

/-- Insert an event in ascending ID, after those of its own. -/
def insertEvent (e : TraceEv) : List TraceEv → List TraceEv
  | [] => [e]
  | x :: t => if e.id < x.id then e :: x :: t else x :: insertEvent e t

/-- The events of the tick, of the command tap and of the block, go on as one stream, the lower ID first (R394, R400). -/
def Hw.drainEvents (h : Hw) : Hw :=
  let taps := h.trc.cmt.map fun e => (⟨e.engine / 16, e.kind, e.engine, e.tag, 0⟩ : TraceEv)
  let es := (taps ++ h.trc.blk).foldl (fun l e => insertEvent e l) []
  Hw.each { h with trc := { h.trc with cmt := [], blk := [] } } es fun h e => h.traceEvent e

/-- The transfers of a packet (R401): 16 bits each in parallel mode, else one word of each lane. -/
def transfers (mode : Nat) (pkt : List Nat) : List Nat :=
  if mode = 1 then (List.range 8).map fun i => fld pkt (2 * i) 2 else (List.range 4).map fun i => fld pkt (4 * i) 4

/-- One transfer of the port (R401): TRACE_DATA with TRACE_CTL high, or a word on each lane with TRS_K 0, the first word of a packet on lane 0; idle
without a packet. -/
def Hw.portUnit (h : Hw) : Hw :=
  let new := h.trc.line.isEmpty
  let l := if new then (match h.trc.fifo.head? with | some pkt => transfers (h.g R.TRC_CFG_PORT_MODE) pkt | none => []) else h.trc.line
  let go (rest : List Nat) (o : Out) : Hw :=
    Hw.emit { h with trc := { h.trc with line := rest, fifo := if new then h.trc.fifo.drop 1 else h.trc.fifo } } o
  match l with
  | [] => h.emit .traceIdle
  | [a] => go [] (.traceData a)
  | a :: b :: t => if h.g R.TRC_CFG_PORT_MODE = 1 then go (b :: t) (.traceData a) else go t (.traceLanes a b)

/-- One tick of the trace port (R401; log entry 25): four transfers in 5 ns in parallel mode, one word of each lane in 2.56 ns in serial mode. A
packet under way is finished when the page stops (R94). -/
def Hw.portTick (h : Hw) : Hw :=
  let mode := h.g R.TRC_CFG_PORT_MODE
  if mode = 0 || (!h.running 0x38 && h.trc.line.isEmpty && h.trc.fifo.isEmpty) then h else
  let rate := if mode = 1 then (4, 5) else (25, 64)
  let c := h.trc.portCredit + rate.1
  if c < rate.2 then { h with trc := { h.trc with portCredit := c } }
  else Hw.portUnit { h with trc := { h.trc with portCredit := c - rate.2 } }

/-! ### Global stop and dumps -/

/-- DBG_STOP (R414): DBG_CMD STOP. What the packet at TRIG_POS names is free, since no trigger comes with it (log entry 185). -/
def Hw.stopCmd (h : Hw) : Tried :=
  let h := if h.stopFreezes then
      let line := h.fresh
      let data := line.2.fresh
      data.2.traceLater ⟨0x31, 8, line.1 % 2 ^ 16, data.1 % 2 ^ 64, 2⟩
    else h
  .ok (h.globalStop 0)

/-- DBG_STOP (R414). -/
def execDbgStop (a : Acc) (s : State) : Result := s.go fun h => h.operWrite a 0x3A 0x044 Hw.stopCmd

/-- STOP_ACK_RISE (R68, R415): STOP_REQ falls, and the scan-out starts. -/
def execStopAckRise (s : State) : Result := s.go fun h => if h.faulted 0x3A then h else
  if h.prof = .l && h.trc.stopReq then
    let h := { h with trc := { h.trc with stopReq := false } }
    if h.g R.DBG_STAT_STATE = 1 then h.startScan else h
  else h

/-- STOP_ACK_TIMEOUT (R415): 1 ms after STOP_REQ rose. -/
def execStopAckTimeout (s : State) : Result := s.go fun h => if h.faulted 0x3A then h else
  if h.g R.DBG_STAT_STATE = 1 && h.trc.stopFrc + 1000000 ≤ h.frc then h.startScan else h

/-- SCN_ACK_RISE (R69): the surroundings deliver host scan data, which the scan-out takes into its dump. -/
def execScnAckRise (data : List Nat) (s : State) : Result := s.go fun h => if h.faulted 0x3A then h else
  if h.g R.DBG_STAT_STATE = 2 && h.trc.scnReq then
    { h with trc := { h.trc with hostScan := data.map (· % 256) } }.writeDump false
  else h

/-- SCAN_ACK_TIMEOUT (R69): without SCN_ACK within 1 ms the host part is absent. -/
def execScanAckTimeout (s : State) : Result := s.go fun h => if h.faulted 0x3A then h else
  if h.g R.DBG_STAT_STATE = 2 && h.trc.scnReq && h.trc.scnFrc + 1000000 ≤ h.frc then h.writeDump true else h

/-- DUMP_COMPLETE (R415): the dump is written and STOP_REQ is low. -/
def execDumpComplete (s : State) : Result := s.go fun h => if h.faulted 0x3A then h else
  if h.g R.DBG_STAT_STATE = 3 && !h.trc.stopReq && !(h.dma.any fun d => d.purpose == .dump) then
    (h.s R.DBG_STAT_STATE 0).raise 0x3A 17
  else h

/-- HANG_WATCHDOG_EXPIRY (R417): an entry of queue `q` fetched and not completed for DBG_WDOG_MS. -/
def execHangWatchdogExpiry (q : Nat) (s : State) : Result := s.go fun h =>
  let ms := h.g R.DBG_WDOG_MS_MS
  let c := h.qCtx q
  if ms = 0 || !h.running 0x3A || h.on (R.DBG_HANG_STAT_DONE.at c) then h else
  match (h.queue q).runs.find? fun r => r.bornFrc + ms * 1000000 ≤ h.frc with
  | none => h
  | some _ =>
    let addr := h.g64 (R.DBG_HANG_LO_ADDR.at c) (R.DBG_HANG_HI_ADDR.at c)
    let pages := h.pageList.filter fun p => h.g (R.PAGE_OWNER_OWNER p) == c
    let queues := (List.range h.queueCount).filter fun q => h.qCtx q == c
    let d := dumpBytes (2 ^ 30) 4 h.nt 5 c h.frc (h.dumpSections pages queues)
    let h := if addr = 0 then h else h.dmaWrite c addr d.1 (.hang c)
    (((h.setBits (R.DBG_HANG_STAT_DONE.at c) 1).s (R.DBG_HANG_STAT_QUEUE.at c) q).raise 0x3A 18)

/-- DBG_HANG_DONE_CLEAR (R417): a W1C write of DBG_HANG_STAT by the context or the operator. -/
def execDbgHangDoneClear (a : Acc) (c v : Nat) (s : State) : Result := s.go fun h =>
  if c < 64 then
    h.hostWrite a 0x3A (0x108 + 0x10 * c) (!a.oper && a.ctx == c) fun h =>
      .ok (if bit v 0 then h.clrBits (R.DBG_HANG_STAT_DONE.at c) 1 else h)
  else h

end Sys2Proof.Machine
end

