-- ==== Sys2Proof/Machine/Verdicts.lean ====
section
/-!
DEFINITION. Machine/Verdicts.lean: verdicts (R441–R446), action entries (R447–R450, R463), the start and the count of ballots (R453, R455,
R464), standing orders (R457–R459), the budget and the floor (R460, R461), and what a release does to an optical lane (R431, R432).
-/
namespace Sys2Proof.Machine

/-! ### Optical lanes and heater groups -/

/-- Payload of a HEALTH record (R438). -/
def health (kind flags index : Nat) (body : List Nat) : List Nat := [kind, flags] ++ le 2 index ++ le 4 0 ++ fit 40 body

/-- Hand over a HEALTH record in stream 0x0900. -/
def Hw.healthRec (h : Hw) (kind flags index : Nat) (body : List Nat) : Hw :=
  h.handOver [h.mkRec 0x48 3 0x0900 h.ownGrade h.stampOwn (health kind flags index body)]

/-- A heater group's state. -/
def Hw.heatGroup (h : Hw) (g : Nat) : HeatGroup :=
  (h.opt.groups.find? fun x => x.num == g).getD ⟨g, [], [], List.replicate 64 0, [], false, none, none, 0⟩

/-- Store a heater group's state, with its codes in HG_CODE. -/
def Hw.putGroup (h : Hw) (x : HeatGroup) : Hw :=
  let h := { h with opt := { h.opt with groups := x :: h.opt.groups.filter fun y => y.num != x.num } }
  h.each (List.range 64) fun h j => h.s (R.HG_CODE_CODE.at (64 * x.num + j)) (nth x.codes j)

/-- A HEALTH record of kind 5 (R438): the outcome of a calibration. -/
def Hw.heatHealth (h : Hw) (g cal : Nat) : Hw :=
  h.healthRec 5 0 g (le 4 (h.g (R.HG_STAT_MISSED.at g)) ++ [cal, 0, 0, 0] ++ le 4 (h.heatGroup g).done)

/-- The outcome of a calibration (R436): HG_STAT CAL, a HEALTH record, CAL_DONE. -/
def Hw.calOutcome (h : Hw) (g cal : Nat) : Hw :=
  let h := h.putGroup { h.heatGroup g with cal := none, result := none }
  let h := (h.s (R.HG_STAT_CAL.at g) cal).s (R.HG_STAT_CAL_RUN.at g) 0
  (h.heatHealth g cal).raise 0x42 20

/-- A calibration in progress is abandoned (R437): a code that is raised, from period 4 to 7, is restored, and the active bank stays. -/
def Hw.abandonCal (h : Hw) (g : Nat) : Hw :=
  let x := h.heatGroup g
  match x.cal with
  | some c => (if 4 < c.period ∧ c.period ≤ 8 then h.putGroup { x with codes := setAt x.codes c.j c.code } else h).calOutcome g 3
  | none => if x.result.isSome then h.calOutcome g 3 else h

/-- Clear the HOLD bit of a lane's spare heater (R431, R432). -/
def Hw.armSpare (h : Hw) (lane : Nat) : Hw :=
  if !h.on (R.LN_SPARE_EN.at lane) then h else
  let g := h.g (R.LN_SPARE_GRP.at lane)
  let c := h.g (R.LN_SPARE_CH.at lane)
  (h.dropBits (R.HG_HOLD_HOLD.at (2 * g + c / 32)) (2 ^ (c % 32))).abandonCal g

/-- Show a release in OPT_SW_LANE. -/
def Hw.swLane (h : Hw) (lane kind : Nat) : Hw :=
  ((h.s R.OPT_SW_LANE_LANE lane).s R.OPT_SW_LANE_KIND kind).inc R.OPT_SW_LANE_COUNT

/-! ### Issue (R442–R446) -/

/-- What a source reports (R441). `audit` holds the three full digests, or nothing for a block event; `slot` is 8 × slot + output of an
Agate candidate; `advice` is 4 or 5 for an optical offer. -/
structure Report where
  kind : Nat
  cls : Nat
  subject : Nat
  origin : Nat
  flags : Nat
  grade : Nat
  score : Nat
  ns : Nat
  sp : Nat
  ref : Nat
  audit : List Nat
  model : List Nat
  frame : List Nat
  slot : Option Nat
  advice : Nat
  stamp : Stamp
deriving DecidableEq, Repr

/-- The payload of a verdict before its supersession is known (R444). -/
def Report.payload (r : Report) (rec entry vflags reason param : Nat) : List Nat :=
  [r.kind, r.cls, vflags, rec] ++ le 4 r.subject ++ le 2 r.origin ++ le 2 entry ++ [reason, r.grade, 0, 0] ++ le 8 r.score ++
    le 8 (r.ns % 2 ^ 64) ++ le 8 r.sp ++ List.replicate 8 0 ++ le 8 r.ref ++ le 8 param ++
    (if r.audit.length = 96 then slice r.audit 0 16 ++ slice r.audit 32 16 ++ slice r.audit 64 16 else List.replicate 48 0)

/-- The verdict in force of a subject, kind and origin. -/
def Hw.inForce (h : Hw) (subject kind origin : Nat) : Option Force :=
  h.vrd.force.find? fun f => f.subject == subject && f.kind == kind && f.origin == origin

/-- Issue a verdict (R442, R444): it names the one it supersedes, by its ticket where this node issued it or by SEQ and node, and is in force
from now on. A verdict that is SUSPENDED in VFLAGS is so in FLAGS (R28). Answers its ticket. -/
def Hw.issueRaw (h : Hw) (payload audit : List Nat) (grade : Nat) (st : Stamp) (sup : Option (Nat × Nat × Nat)) : Nat × Hw :=
  let t := h.vrd.nextTicket
  let p := match sup with
    | some (_, seq, node) => payload.take 40 ++ le 4 seq ++ le 2 node ++ payload.drop 46
    | none => payload
  let ref := match sup with | some (tk, _, _) => if tk = 0 then none else some (40, tk) | none => none
  let r := { h.mkRec 0x30 1 0x1002 (grade + 32 * b2n (bit (nth payload 2) 1)) st p with ticket := t, refAt := ref, audit := audit }
  let f : Force := ⟨fld p 4 4, nth p 0, fld p 8 2, nth p 1, p, audit, t, h.ns, h.ns⟩
  let old := h.vrd.force.filter fun x => !(x.subject == f.subject && x.kind == f.kind && x.origin == f.origin)
  (t, ({ h with vrd := { h.vrd with nextTicket := t + 1, force := f :: old } }.inc R.VRD_VERDICTS_COUNT).handOver [r])

/-! ### Action entries (R447, R463) -/

def Hw.vEntry (h : Hw) (n : Nat) : Option VEntry := h.vrd.entries.find? fun e => e.num == n

/-- Votes of one kind. -/
def VEntry.count (e : VEntry) (v : Nat) : Nat := (e.votes.filter fun x => x.vote == v).length

/-- AUTH of an entry (R463). -/
def VEntry.authBits (e : VEntry) : Nat := e.auth + 16 * b2n e.held

/-- Store an entry and show it (R466). -/
def Hw.putEntry (h : Hw) (e : VEntry) : Hw :=
  let h := { h with vrd := { h.vrd with entries := e :: h.vrd.entries.filter fun x => x.num != e.num } }
  let h := ((h.s (R.VRD_ESTAT_STATE.at e.num) e.state).s (R.VRD_ESTAT_AKIND.at e.num) e.kind).s (R.VRD_ESTAT_REASON.at e.num) e.reason
  let h := ((h.s (R.VRD_ESTAT_YES.at e.num) (e.count 1)).s (R.VRD_ESTAT_NO.at e.num) (e.count 0)).s (R.VRD_ESTAT_AUTH.at e.num) e.authBits
  let h := h.s (R.VRD_ESUBJ_SUBJECT.at e.num) e.subject
  h.s R.VRD_STAT_WITHHELD (h.vrd.entries.filter fun x => x.state == 1).length

/-- Insert a vote by ascending warden. -/
def insertVote (v : Vote) : List Vote → List Vote
  | [] => [v]
  | x :: t => if v.node < x.node then v :: x :: t else x :: insertVote v t

/-- The payload of an ACTION record (R463). -/
def VEntry.action (e : VEntry) : List Nat :=
  fit 72 ([e.kind, e.state, e.authBits, e.reason] ++ le 4 e.subject ++ le 2 e.num ++ le 2 e.order ++ le 4 e.serial ++ le 4 e.seq ++
    le 2 e.node ++ [e.count 1, e.count 0] ++ le 8 (e.execNs % 2 ^ 64) ++
    (auditDigest "BOLDAL-QUORUM" (e.votes.flatMap fun v => v.bytes)).take 16 ++
    ((e.votes.filter fun v => v.vote == 1).take 9).flatMap fun v => le 2 v.node)

/-- Hand over an ACTION record. -/
def Hw.actionRec (h : Hw) (e : VEntry) : Hw :=
  h.handOver [{ h.mkRec 0x32 1 0x1002 h.ownGrade h.stampNode e.action with
    refAt := if e.ticket = 0 then none else some (16, e.ticket) }]

/-- An entry changes: it is stored, and an ACTION record is handed over (R447). -/
def Hw.moveEntry (h : Hw) (e : VEntry) : Hw := (h.putEntry e).actionRec e

/-- A state that is final (R447). -/
def finalState (s : Nat) : Bool := 4 ≤ s

/-- Headroom of the spare pool (R460). -/
def Hw.headroom (h : Hw) : Int :=
  ((h.g R.VRD_SPARE_POOL : Nat) : Int) - ((h.g R.VRD_SPARE_STAT_TAKEN : Nat) : Int) - ((h.g R.VRD_SPARE_FLOOR : Nat) : Int)

/-- The allowance of expulsions in an hour (R460). -/
def Hw.allowance (h : Hw) : Nat := max 1 (h.g R.VRD_JOB_SIZE_SIZE * h.g R.VRD_BUDGET_BUDGET / 10000)

/-- Show HOUR. -/
def Hw.showHour (h : Hw) : Hw := h.s R.VRD_SPARE_STAT_HOUR h.vrd.hour.length

/-- The FSTATE of a lane. -/
def Hw.setFstate (h : Hw) (lane st : Nat) : Hw := h.s (R.LN_STAT_FSTATE.at lane) st

/-- The entry of a subject and kind that is not final (R449). -/
def Hw.liveEntry (h : Hw) (subject kind : Nat) : Option VEntry :=
  h.vrd.entries.find? fun e => e.subject == subject && e.kind == kind && !finalState e.state

/-- Change the SWITCH entry of a subject that is not final, if there is one. -/
def Hw.onSwitch (h : Hw) (subject : Nat) (f : VEntry → VEntry) : Hw :=
  match h.liveEntry subject 2 with
  | some x => h.putEntry (f x)
  | none => h

/-- The release of an entry at its execution instant (R431, R432, R447, R460). A lane that a SWITCH already waits for is PREARMED for it from now
on. -/
def Hw.releaseEntry (h : Hw) (e : VEntry) : Hw :=
  let lane := e.subject % 512
  let h := match e.kind with
    | 0 => ({ h with vrd := { h.vrd with hour := h.vrd.hour ++ [h.ns] } }.inc R.VRD_SPARE_STAT_TAKEN).showHour
    | 1 => (((h.armSpare lane).swLane lane 0).setFstate lane 2).onSwitch e.subject fun x => if x.state < 3 then { x with prior := 2 } else x
    | _ => ((h.swLane lane 1).setFstate lane 4).raise 0x42 19
  (h.moveEntry { e with state := 4, execNs := h.ns, due := true }).raise 0x44 18

/-- The execution instant of an authorised entry has come (R448): a HELD entry stays AUTHORISED. -/
def Hw.atInstant (h : Hw) (e : VEntry) : Hw := if e.held then h.putEntry { e with due := true } else h.releaseEntry e

/-- An authority for an entry that is not final (R24, R448): `bits` as in AUTH. The execution instant of an EXPEL or PREARM entry is its
authorisation; that of a SWITCH waits for its gate, and for 60 s where the lane is not PREARMED, whose spare's HOLD clears unless the host holds the
entry (R24, R432, R433). -/
def Hw.authorise (h : Hw) (e : VEntry) (bits order : Nat) : Hw :=
  if finalState e.state then h
  else if e.state = 3 then h.putEntry { e with auth := e.auth ||| bits, order := if order = 0xFFFF then e.order else order }
  else
    let e := { e with state := 3, reason := 0, auth := e.auth ||| bits, order := order, authFrc := h.frc }
    let h := h.moveEntry e
    if e.kind ≠ 2 then h.atInstant e
    else
      let lane := e.subject % 512
      let armed := e.prior == 2
      let h := if armed || e.held then h else h.armSpare lane
      if armed && h.g R.OPT_CFG_SW_LIST == 0 then h.atInstant e else h

/-- The FSTATE before an offer comes back when its entry lapses or is refused (R450); under a SWITCH offer made since, it is the one that comes back
with that. -/
def Hw.unoffer (h : Hw) (e : VEntry) : Hw :=
  match e.kind with
  | 0 => h
  | 1 => if (h.liveEntry e.subject 2).isSome then h.onSwitch e.subject fun x => { x with prior := e.prior } else h.setFstate (e.subject % 512) e.prior
  | _ => h.setFstate (e.subject % 512) e.prior

/-! ### Standing orders (R457–R459) -/

/-- An order matches an entry now (R459). -/
def Hw.orderMatches (h : Hw) (o : Order) (e : VEntry) : Bool :=
  let b := o.header
  let f := nth b 3
  let m := fld b 12 4
  nth b 2 == e.kind && (nth b 4 == 0xFF || nth b 4 == e.vkind) && nth b 5 ≤ e.cls && e.grade ≤ nth b 6 &&
    (e.subject &&& m) == (fld b 8 4 &&& m) && (fld b 16 4 == 0xFFFFFFFF || fld b 16 4 == h.g R.VRD_JOB_ID_JOB) &&
    fld b 20 8 ≤ h.ns && h.ns ≤ fld b 28 8 && (zeros b 36 16 || slice b 36 16 == e.dmodel) &&
    (!bit e.vflags 1 || bit f 1) && (!bit e.vflags 0 || bit f 2)

/-- The lowest-numbered order that matches; `lift` asks for LIFT. -/
def Hw.orderFor (h : Hw) (e : VEntry) (lift : Bool) : Option Order :=
  match (List.range 32).find? fun i => h.vrd.orders.any fun o => o.slot == i && h.orderMatches o e && (!lift || bit (nth o.header 3) 0) with
  | some i => h.vrd.orders.find? fun o => o.slot == i
  | none => none

/-- Show the valid orders. -/
def Hw.showOrders (h : Hw) : Hw :=
  let m := total ((List.range 32).map fun i => if h.vrd.orders.any fun o => o.slot == i then 2 ^ i else 0)
  (h.s R.VRD_ORD_VALID_MASK m).s R.VRD_STAT_ORDERS h.vrd.orders.length

/-! ### Ballots (R453, R455, R464) -/

/-- The wardens of the blob. -/
def Hw.wardenIds (h : Hw) : List Nat := h.sec.wardens.map fun w => w.1

/-- Bytes 0–15 of a BALLOT record. -/
def ballotHead (kind question arbiter entry serial seq : Nat) : List Nat :=
  [kind, question] ++ le 2 arbiter ++ le 2 entry ++ le 4 serial ++ le 4 seq ++ [0, 0]

/-- An entry enters BALLOT: a REQUEST to each warden. -/
def Hw.startBallot (h : Hw) (e : VEntry) (question : Nat) : Hw :=
  let e := { e with state := 2, reason := 0, ballotFrc := h.frc, votes := [], question := question }
  let h := h.moveEntry e
  let req := ballotHead 0 question h.nodeId e.num e.serial e.seq ++ le 8 ((h.ns + h.g R.VRD_CFG_BALLOT_MS * 1000000) % 2 ^ 64) ++
    fit 16 e.model ++ fit 16 e.dmodel ++ e.frame
  h.each h.wardenIds fun h w =>
    h.handOver [{ h.mkRec 0x31 1 0x1002 h.ownGrade h.stampNode req with
      dest := some w, refAt := if e.ticket = 0 then none else some (10, e.ticket) }]

/-- A ballot that failed (R455): REFUSED with QUORUM_SHORT. -/
def Hw.refuseEntry (h : Hw) (e : VEntry) : Hw :=
  ((h.err 0x44 E.quorumShort).moveEntry { e with state := 6, reason := E.quorumShort % 256 }).unoffer e

/-- The count of the votes held (R455): a quorum authorises; NO and ABSTAIN votes that make it unreachable refuse. -/
def Hw.countVotes (h : Hw) (e : VEntry) : Hw :=
  let q := h.g R.VRD_CFG_QUORUM
  let n := h.g R.VRD_CFG_WARDENS
  if e.state ≠ 2 then h
  else if q ≤ e.count 1 then h.authorise e (2 + 8 * e.question) 0xFFFF
  else if n < q + e.count 0 + e.count 2 then h.refuseEntry e
  else h.putEntry e

/-! ### The floor and the budget (R461) -/

/-- An entry becomes WITHHELD: a verdict on the same sample, with its NT and SP, supersedes the expulsion verdict, and WITHHELD is raised. -/
def Hw.withhold (h : Hw) (e : VEntry) (reason : Nat) : Hw :=
  if e.state = 1 then h.putEntry { e with reason := reason } else
  let h := h.moveEntry { e with state := 1, reason := reason }
  let p := e.payload.take 2 ++ [nth e.payload 2 ||| 4] ++ slice e.payload 3 9 ++ [reason] ++ e.payload.drop 13
  (h.issueRaw p e.audit e.grade h.stampNode (some (e.ticket, e.seq, e.node))).2.raise 0x44 17

/-- The releases of the last 3,600 s of NT (R460). -/
def Hw.hourNow (h : Hw) : List Nat := h.vrd.hour.filter fun t => h.ns < t + 3600000000000

/-- The checks of an EXPEL entry in their order (R461, R462): the floor, the budget, then a matching order or a ballot. -/
def Hw.checkExpel (h : Hw) (e : VEntry) : Hw :=
  let beyond := decide (h.allowance ≤ h.hourNow.length)
  if h.headroom < 1 then h.withhold e 1
  else match h.orderFor e beyond with
    | some o => h.authorise e (4 + 8 * b2n (beyond && bit (nth o.header 3) 0)) (fld o.header 0 2)
    | none => if beyond then h.withhold e 2 else h.startBallot e 0

/-- WITHHELD entries are checked again, the oldest first (R461). -/
def Hw.recheck (h : Hw) : Hw :=
  let old := h.vrd.entries.filter fun e => e.state == 1
  let sorted := old.foldl (fun l e => insertOld e l) []
  h.each sorted fun h e => match h.vEntry e.num with | some e => h.checkExpel e | none => h
where
  insertOld (e : VEntry) : List VEntry → List VEntry
    | [] => [e]
    | x :: t => if e.openFrc < x.openFrc then e :: x :: t else x :: insertOld e t

/-- Action entries of the profile (R447). -/
def Hw.entryCount (h : Hw) : Nat := h.prof.sel 0 64 256

/-- A free entry, the lowest. -/
def Hw.freeEntry (h : Hw) : Option Nat := (List.range h.entryCount).find? fun n => (h.vEntry n).isNone

/-- Open entry `n` (R447, R448): OFFERED, then what its kind asks. -/
def Hw.openEntry (h : Hw) (e0 : VEntry) : Hw :=
  let n := e0.num
  let ser := match h.vrd.serials.find? fun x => x.1 == n with | some x => (x.2 + 1) % 2 ^ 32 | none => 1
  let h := { h with vrd := { h.vrd with serials := (n, ser) :: h.vrd.serials.filter fun x => x.1 != n } }
  let e := { e0 with serial := ser }
  let h := (h.moveEntry e).raise 0x44 16
  if e.kind = 0 then h.checkExpel e
  else match h.orderFor e false with
    | some o => h.authorise e 4 (fld o.header 0 2)
    | none => h

/-- An entry of a kind on a verdict's payload. -/
def Hw.newEntry (h : Hw) (n kind : Nat) (p audit model frame : List Nat) (ticket seq node prior : Nat) : VEntry :=
  { num := n, serial := 0, kind := kind, subject := fld p 4 4, state := 0, reason := 0, held := false, auth := 0, order := 0xFFFF,
    ticket := ticket, seq := seq, node := node, vkind := nth p 0, cls := nth p 1, vflags := nth p 2, grade := nth p 13,
    origin := fld p 8 2, dmodel := slice p 80 16, model := model, frame := frame, payload := p, audit := audit, openFrc := h.frc,
    ballotFrc := 0, authFrc := 0, shut := false, execNs := 0, due := false, question := 0, votes := [], prior := prior }

/-- A further recommendation updates the verdict reference of a live entry (R449). -/
def VEntry.renew (e : VEntry) (p audit : List Nat) (ticket seq node : Nat) : VEntry :=
  { e with ticket := ticket, seq := seq, node := node, payload := p, audit := audit, cls := nth p 1, vflags := nth p 2, grade := nth p 13 }

/-! ### Reports (R441, R442, R445) -/

/-- The recommendation of a report and its parameter (R445). -/
def Hw.recommend (h : Hw) (r : Report) : Nat × Nat :=
  let pol := match r.slot with | some i => h.g (R.VRD_POL_EXPEL_CLASS.at i) | none => 0
  if r.advice ≠ 0 then (r.advice, 0)
  else if pol ≠ 0 && pol ≤ r.cls then (1, 0)
  else if r.kind ≠ 1 ∨ r.slot.isNone then (0, 0)
  else if h.g R.VRD_JOB_SIZE_SIZE < h.g R.VRD_STRAG_LIMIT then
    match h.vrd.lags.find? fun e => e.1 == r.subject with
    | some e => (2, max 1 (2 ^ 32 / (65536 + min e.2.1 (2 ^ 32 - 65536))))
    | none => (0, 0)
  else if r.sp = noPosition then (0, 0)
  else
    let d := max 1 (h.g R.VRD_STRAG_DIV_DIV)
    (3, roundUp (r.sp / 65536 + 2) d * 65536 % 2 ^ 64)

/-- The action kind of a recommendation. -/
def actionKind (rec : Nat) : Nat := match rec with | 1 => 0 | 4 => 1 | _ => 2

/-- Issue the verdict of a report with its entry (R444, R447, R449, R452). -/
def Hw.newVerdict (h : Hw) (r : Report) : Hw :=
  let rp := h.recommend r
  let sup := (h.inForce r.subject r.kind r.origin).map fun f => (f.ticket, 0, h.nodeId)
  let plain (h : Hw) (entry flags reason : Nat) : (Nat × Hw) :=
    h.issueRaw (r.payload rp.1 entry (r.flags + flags) reason rp.2) r.audit r.grade r.stamp sup
  let acts := rp.1 == 4 || rp.1 == 5 || (rp.1 == 1 && h.on R.VRD_ARBITER_HERE)
  if !acts then (plain h 0xFFFF 0 0).2 else
  let kind := actionKind rp.1
  match h.liveEntry r.subject kind with
  | some e =>
    let t := plain h e.num 0 0
    t.2.putEntry (e.renew (r.payload rp.1 e.num r.flags 0 rp.2) r.audit t.1 0 h.nodeId)
  | none =>
    match h.freeEntry with
    | none => (plain (h.incSat R.VRD_ENTRY_FULL_COUNT) 0xFFFF 4 3).2
    | some n =>
      let t := plain h n 0 0
      let p := r.payload rp.1 n r.flags 0 rp.2
      let prior := if kind = 0 then 0 else h.g (R.LN_STAT_FSTATE.at (r.subject % 512))
      t.2.openEntry (t.2.newEntry n kind p r.audit r.model r.frame t.1 0 h.nodeId prior)

/-- A source's report (R442): a new verdict, or one more of the verdict in force. -/
def Hw.report (h : Hw) (r : Report) : Hw :=
  if !h.running 0x44 then h else
  match h.inForce r.subject r.kind r.origin with
  | none => h.newVerdict r
  | some f =>
    if f.cls = r.cls ∧ h.ns < f.issued + h.g R.VRD_TIMES_HOLD_S * 1000000000 then
      { h with vrd := { h.vrd with force := h.vrd.force.map fun x => if x = f then { x with reported := h.ns } else x } }.inc
        R.VRD_REPEATS_COUNT
    else h.newVerdict r

/-- The report of a block event (R441): class 1 unless another is named (log entry 31). -/
def Hw.blockReport (h : Hw) (kind cls subject rec : Nat) : Hw :=
  h.report { kind := kind, cls := cls, subject := subject, origin := 0xFFFF, flags := 0, grade := h.ownGrade, score := 0, ns := h.ns,
             sp := noPosition, ref := 0, audit := [], model := [], frame := [], slot := none, advice := rec, stamp := h.stampNode }

/-- An advisory verdict on an entity, a lane or a node. -/
def Hw.advise (h : Hw) (subject : Nat) : Hw := h.blockReport 0 1 subject 0

/-- A PREARM or SWITCH offer on a lane (R431, R432): true where its entry is open. -/
def Hw.offer (h : Hw) (lane rec : Nat) : Hw × Bool :=
  let subject := 2 ^ 31 + lane
  let h := h.blockReport 4 (if rec = 4 then 1 else 2) subject rec
  (h, h.vrd.entries.any fun e => e.subject == subject && e.kind == actionKind rec)

/-! ### Quorum reachability (R456) -/

/-- The wardens in this node's database: fewer than q set QUORUM_UNREACHABLE. -/
def Hw.showQuorum (h : Hw) : Hw :=
  let near := h.wardenIds.filter fun w => w == h.nodeId || (h.route w).isSome
  let bad := h.on R.VRD_ARBITER_HERE && decide (near.length < h.g R.VRD_CFG_QUORUM)
  let was := h.on R.VRD_STAT_QUORUM_UNREACHABLE
  let h := h.s R.VRD_STAT_QUORUM_UNREACHABLE (b2n bad)
  if bad && !was then h.raise 0x44 20 else h

/-- VRD_ARBITER HERE and VRD_CFG WARDEN follow the node ID. -/
def Hw.showArbiter (h : Hw) : Hw :=
  let h := h.s R.VRD_CFG_WARDEN (b2n (h.prof != .l && h.g R.FAB_ID_STATE == 2 && h.wardenIds.contains (h.g R.FAB_ID_NODE)))
  (h.s R.VRD_ARBITER_HERE (b2n (h.prof != .l && h.g R.FAB_ID_STATE == 2 && h.g R.VRD_ARBITER_NODE == h.g R.FAB_ID_NODE))).showQuorum

/-! ### Meanings -/

/-- A verdict of class 0 with CLEAR supersedes one in force (R442, R540). It has no sample: its NT is that of its issue, and it has no position
(log entry 188). -/
def Hw.clearVerdict (h : Hw) (f : Force) : Hw :=
  let p := [f.kind, 0, 8, 0] ++ slice f.payload 4 6 ++ le 2 0xFFFF ++ [0, nth f.payload 13, 0, 0] ++ le 8 0 ++ le 8 (h.ns % 2 ^ 64) ++
    le 8 noPosition ++ List.replicate 8 0 ++ slice f.payload 48 8 ++ le 8 0 ++ f.payload.drop 64
  (h.issueRaw p f.audit (nth f.payload 13) h.stampNode (some (f.ticket, 0, h.nodeId))).2

/-- VERDICT_HOLD_EXPIRY (R442): HOLD_S without a report: a verdict of class 0 with CLEAR. -/
def execVerdictHoldExpiry (s : State) : Result := s.go fun h =>
  if !h.running 0x44 then h else
  let due := h.vrd.force.filter fun f => f.cls != 0 && f.reported + h.g R.VRD_TIMES_HOLD_S * 1000000000 ≤ h.ns
  h.each due fun h f => h.clearVerdict f

/-- EXPEL_VERDICT_RX (R452): an expulsion verdict of another node, at the arbiter; one whose sync record is missing is discarded (R12). -/
def execExpelVerdictRx (s : State) : Result := s.go fun h =>
  if !h.running 0x44 then h else
  match h.flw.held.find? fun x => h.arrived x && x.r.typ == 0x30 && nth x.r.payload 3 == 1 && x.r.source / 2 ^ 20 != h.nodeId with
  | none => h
  | some x =>
    let d := h.deliver x
    let h := d.1
    if !d.2 || !x.r.known then h
    else if !h.on R.VRD_ARBITER_HERE then h.incSat R.VRD_ENTRY_FULL_NOT_ARBITER
    else
      let p := x.r.payload
      let node := x.r.source / 2 ^ 20
      let audit := fit 32 (slice p 64 16) ++ fit 32 (slice p 80 16) ++ fit 32 (slice p 96 16)
      match h.liveEntry (fld p 4 4) 0 with
      | some e => h.putEntry (e.renew p audit 0 x.r.seq node)
      | none =>
        match h.freeEntry with
        | none =>
          let p' := setAt (setAt p 2 (nth p 2 ||| 4)) 12 3
          ((h.incSat R.VRD_ENTRY_FULL_COUNT).issueRaw p' audit (nth p 13) h.stampNode (some (0, x.r.seq, node))).2
        | some n => h.openEntry (h.newEntry n 0 p audit [] [] 0 x.r.seq node 0)

/-- A VRD_CMD that acts on an entry: one that is free is refused with BAD_VALUE (R578). -/
def Hw.onEntry (h : Hw) (n : Nat) (f : VEntry → Tried) : Tried :=
  match h.vEntry n with
  | none => .error E.badValue
  | some e => f e

/-- VRD_AUTHORISE (R448). -/
def Hw.authoriseCmd (h : Hw) (n : Nat) : Tried :=
  h.onEntry n fun e =>
    if e.kind = 0 then .error E.accessDenied
    else if finalState e.state || !h.running 0x44 then .error E.badState
    else .ok (h.authorise e 1 0xFFFF)

/-- VRD_AUTHORISE (R448). -/
def execVrdAuthorise (a : Acc) (n : Nat) (s : State) : Result := s.go fun h => h.operWrite a 0x44 0x090 fun h => h.authoriseCmd n

/-- VRD_HOLD (R448). -/
def Hw.holdCmd (h : Hw) (n : Nat) : Tried :=
  h.onEntry n fun e => if finalState e.state then .error E.badState else .ok (h.putEntry { e with held := true })

/-- VRD_HOLD (R448). -/
def execVrdHold (a : Acc) (n : Nat) (s : State) : Result := s.go fun h => h.operWrite a 0x44 0x090 fun h => h.holdCmd n

/-- HOLD is clear (R448): an AUTHORISED entry whose instant has passed is released at once, or once the page runs again; the spare of a SWITCH that
waits and carries PREARM is armed now (R432). -/
def Hw.unhold (h : Hw) (e : VEntry) : Hw :=
  let e := { e with held := false }
  if e.state = 3 && e.due && h.running 0x44 then h.releaseEntry e
  else
    let h := h.putEntry e
    if e.state = 3 && e.kind == 2 && !e.due && e.prior != 2 then h.armSpare (e.subject % 512) else h

/-- VRD_UNHOLD (R448). -/
def Hw.unholdCmd (h : Hw) (n : Nat) : Tried :=
  h.onEntry n fun e => if finalState e.state then .error E.badState else .ok (h.unhold e)

/-- VRD_UNHOLD (R448). -/
def execVrdUnhold (a : Acc) (n : Nat) (s : State) : Result := s.go fun h => h.operWrite a 0x44 0x090 fun h => h.unholdCmd n

/-- VRD_LIFT (R462): a ballot on an entry WITHHELD for the budget; it does not lift the floor. -/
def Hw.liftCmd (h : Hw) (n : Nat) : Tried :=
  h.onEntry n fun e =>
    if e.state ≠ 1 ∨ e.reason ≠ 2 ∨ h.headroom < 1 ∨ !h.running 0x44 then .error E.badState else .ok (h.startBallot e 1)

/-- VRD_LIFT (R462). -/
def execVrdLift (a : Acc) (n : Nat) (s : State) : Result := s.go fun h => h.operWrite a 0x44 0x090 fun h => h.liftCmd n

/-- VRD_LOG_RESTART (R446). -/
def Hw.logRestart (h : Hw) : Hw := h.s R.VRD_STAT_LOG_FAULT 0

/-- VRD_LOG_RESTART (R446). -/
def execVrdLogRestart (a : Acc) (s : State) : Result := s.go fun h => h.operWrite a 0x44 0x090 fun h => .ok h.logRestart

/-- ENTRY_TTL_EXPIRY (R447, R448, R450). -/
def execEntryTtlExpiry (n : Nat) (s : State) : Result := s.go fun h =>
  match h.vEntry n with
  | none => h
  | some e =>
    if h.works 0x44 && (e.state < 3 || (e.state == 3 && e.held)) && e.openFrc + h.g R.VRD_TTL_S * 1000000000 ≤ h.frc then
      ((h.moveEntry { e with state := 5 }).unoffer e).raise 0x44 19
    else h

/-- BUDGET_HOUR_EXPIRY (R460, R461): releases leave the rolling hour. -/
def execBudgetHourExpiry (s : State) : Result := s.go fun h =>
  let l := h.hourNow
  if l.length < h.vrd.hour.length then
    let h := Hw.showHour { h with vrd := { h.vrd with hour := l } }
    if h.running 0x44 then h.recheck else h
  else h

/-- VRD_SPARE_WRITE (R460, R461). -/
def Hw.spareWrite (h : Hw) (v : Nat) : Tried :=
  let h := ((h.s R.VRD_SPARE_POOL (bits v 0 16)).s R.VRD_SPARE_FLOOR (bits v 16 16)).s R.VRD_SPARE_STAT_TAKEN 0
  .ok (if h.running 0x44 then h.recheck else h)

/-- VRD_SPARE_WRITE (R460). -/
def execVrdSpareWrite (a : Acc) (v : Nat) (s : State) : Result := s.go fun h => h.operWrite a 0x44 0x054 fun h => h.spareWrite v

/-! ### Loading orders (R457, R458) -/

/-- VRD_ORD_LOAD (R457): the order is read; a length no order has is malformed. -/
def Hw.ordLoad (h : Hw) (slot : Nat) : Tried :=
  let n := h.g R.VRD_ORD_LEN_BYTES
  if n < 164 ∨ 964 < n ∨ 32 ≤ slot then .error E.badValue
  else if !h.running 0x44 then .error E.badState
  else .ok (h.dmaRead (h.g R.VRD_ORD_CTX_CTX) (h.g64 R.VRD_ORD_LO_ADDR R.VRD_ORD_HI_ADDR) n (.order slot n))

/-- VRD_ORD_LOAD (R457). -/
def execVrdOrdLoad (a : Acc) (slot : Nat) (s : State) : Result := s.go fun h => h.operWrite a 0x44 0x0D0 fun h => h.ordLoad slot

/-- An order's form (R457). -/
def orderFormed (b : List Nat) : Bool :=
  let n := nth b 7
  1 ≤ n && n ≤ 9 && b.length == 64 + 100 * n && nth b 2 ≤ 2 && nth b 3 < 8 && (nth b 4 ≤ 4 || nth b 4 == 0xFF) && 1 ≤ nth b 5 &&
    nth b 5 ≤ 15 && nth b 6 ≤ 3 && zeros b 52 12 && (List.range n).all fun i => zeros b (64 + 100 * i + 2) 2

/-- Put an order in force: it may authorise entries that wait (R459), those in a LIFT ballot only with LIFT set (R462), and an entry authorised already
records it as one more authority (R24). -/
def Hw.putOrder (h : Hw) (o : Order) : Hw :=
  let h := Hw.showOrders { h with vrd := { h.vrd with orders := o :: h.vrd.orders.filter fun x => x.slot != o.slot } }
  let open_ := h.vrd.entries.filter fun e => e.state == 0 || e.state == 2 || e.state == 3
  (h.each open_ fun h e => match h.vEntry e.num with
    | some e => if h.orderMatches o e && (e.question == 0 || bit (nth o.header 3) 0) then h.authorise e (4 + 8 * e.question) (fld o.header 0 2) else h
    | none => h).recheck

/-- A refused load (R458), or an order in force that no longer holds its quorum (R574). -/
def Hw.orderRefused (h : Hw) (slot : Nat) (again : Bool) : Hw :=
  let h := { h with vrd := { h.vrd with loads := h.vrd.loads.filter fun l => l.slot != slot } }
  if again then Hw.showOrders { h with vrd := { h.vrd with orders := h.vrd.orders.filter fun o => o.slot != slot } } else
  ((h.err 0x44 E.authFail).inc R.VRD_AUTH_FAIL_COUNT).raise 0x44 23

/-- Ask for the verification of the next signature of a load; after the last, the quorum decides. `fuel` bounds the signatures. -/
def Hw.orderNext (h : Hw) (l : OrderLoad) : Nat → Hw
  | 0 => h
  | fuel + 1 =>
    if nth l.bytes 7 ≤ l.next then
      let h := { h with vrd := { h.vrd with loads := h.vrd.loads.filter fun x => x.slot != l.slot } }
      if h.g R.VRD_CFG_QUORUM ≤ l.good.length ∧ !h.sec.wardens.isEmpty then h.putOrder ⟨l.slot, l.bytes.take 64, l.bytes⟩
      else h.orderRefused l.slot l.again
    else
      let o := 64 + 100 * l.next
      let w := fld l.bytes o 2
      match h.sec.wardens.find? fun x => x.1 == w with
      | some k =>
        if l.good.contains w then h.orderNext { l with next := l.next + 1 } fuel else
        ({ h with vrd := { h.vrd with loads := l :: h.vrd.loads.filter fun x => x.slot != l.slot } }).rotAsk 3
          (cshake256 [] (ascii "BOLDAL-ORDER") (l.bytes.take 64) 48 ++ k.2 ++ slice l.bytes (o + 4) 96) (.orderVerify l.slot [])
      | none => h.orderNext { l with next := l.next + 1 } fuel

/-- The bytes of an order have arrived. -/
def Hw.orderArrived (h : Hw) (slot : Nat) (bs : List Nat) : Hw :=
  if orderFormed bs then h.orderNext ⟨slot, bs, 0, [], false⟩ 10 else h.err 0x44 E.badValue

/-- The root of trust has checked a signature of the load of a slot. -/
def Hw.orderAnswer (h : Hw) (slot : Nat) (ok : Bool) : Hw :=
  match h.vrd.loads.find? fun l => l.slot == slot with
  | none => h
  | some l =>
    let w := fld l.bytes (64 + 100 * l.next) 2
    h.orderNext { l with next := l.next + 1, good := if ok then w :: l.good else l.good } 10

/-- The orders in force are checked again under the warden set (R574). -/
def Hw.recheckOrders (h : Hw) : Hw :=
  h.each (h.vrd.orders.filter fun o => !h.vrd.loads.any fun l => l.slot == o.slot) fun h o => h.orderNext ⟨o.slot, o.bytes, 0, [], true⟩ 10

/-- What a tick finds on page VRD: an entry released from its hold, an EXPEL entry that an abort left OFFERED (R461), an entry that an order matches by
now (R459). -/
def Hw.vrdTick (h : Hw) : Hw :=
  if !h.running 0x44 then h else
  h.each (h.vrd.entries.filter fun e => e.state == 0 || (e.state == 2 && e.question == 0) || (e.state == 3 && e.due && !e.held)) fun h e =>
    match h.vEntry e.num with
    | none => h
    | some e =>
      if e.state = 3 then h.releaseEntry e
      else if e.kind = 0 ∧ e.state = 0 then h.checkExpel e
      else match h.orderFor e false with
        | some o => h.authorise e 4 (fld o.header 0 2)
        | none => h

/-- VRD_ORD_REVOKE (R458). -/
def Hw.ordRevoke (h : Hw) (slot : Nat) : Tried :=
  if 32 ≤ slot then .error E.badValue
  else .ok (Hw.showOrders { h with vrd := { h.vrd with orders := h.vrd.orders.filter fun o => o.slot != slot,
                                                       loads := h.vrd.loads.filter fun l => l.slot != slot } })

/-- VRD_ORD_REVOKE (R458). -/
def execVrdOrdRevoke (a : Acc) (slot : Nat) (s : State) : Result := s.go fun h => h.operWrite a 0x44 0x0D0 fun h => h.ordRevoke slot

end Sys2Proof.Machine
end

