-- ==== Sys2Proof/Machine/Checks.lean ====
section
/-!
DEFINITION. Machine/Checks.lean: check entries (R254–R270): the load of a definition, the rounds and their evaluation, and the group of a
collective check (R325, R349).
-/
namespace Sys2Proof.Machine

/-! ### Definitions (R255, R256, R258, R259, R266) -/

/-- The number of check entries (R254). -/
def Hw.checkCount (h : Hw) : Nat := h.prof.sel 0 64 256

/-- ⌈log2 n⌉. -/
def clog2 (n : Nat) : Nat := if n ≤ 1 then 0 else Nat.log2 (n - 1) + 1

/-- `n` words of 4 bytes from offset `off`. -/
def words4 (b : List Nat) (off n : Nat) : List Nat := (List.range n).map fun i => fld b (off + 4 * i) 4

/-- A hop entry (R266): none where a field breaks its range. -/
def readHop (b : List Nat) (nIns : Nat) : Option Hop :=
  let x : Hop := ⟨fld b 0 4, nth b 4, nth b 5, fld b 6 2, fld b 8 4⟩
  if x.htype ≤ 1 ∧ x.pfmt ≤ 5 ∧ zeros b 12 4 ∧ 1 ≤ x.nIn ∧ x.nIn ≤ (if x.htype = 0 then 1 else 4096) ∧ x.firstIn + x.nIn ≤ nIns
  then some x else none

/-- No participant (R256). -/
def noSource : Nat := 0xFFFFFFFF

/-- A stream that an entry of a kind may list (R256, R258). -/
def checkSource (kind keymode s : Nat) : Bool :=
  let l := localOf s
  s == noSource ||
  (if kind = 2 then l == 0x0800 || l == 0x1001
   else (0x0400 ≤ l && l ≤ 0x07FF) || (0x1400 ≤ l && l ≤ 0x17FF && keymode != 0))

/-- Read a definition (R255): none where R256 refuses it. -/
def Hw.readCheck (h : Hw) (b : List Nat) : Option CheckDef :=
  let n := fld b 4 4
  let m := fld b 8 2
  let nh := fld b 10 2
  let ni := fld b 12 2
  let hops := (List.range nh).filterMap fun i => readHop (slice b (64 + 4 * n + 4 * m + 16 * i) 16) ni
  let d : CheckDef :=
    { kind := nth b 0, keymode := nth b 1, mode := nth b 2, shift := nth b 3, n := n, cfmt := nth b 14, rfmt := nth b 15, pa := nth b 16,
      x := signed 8 (nth b 17), xc := signed 8 (nth b 18), kLog := nth b 19, eRef := signed 16 (fld b 20 2), seed := fld b 24 8,
      nElems := fld b 32 8, timeoutUs := fld b 40 4, keyPeriodUs := fld b 44 4, contrib := words4 b 64 n,
      recv := words4 b (64 + 4 * n) m, hops := hops, hopIns := words4 b (64 + 4 * n + 4 * m + 16 * nh) ni, raw := b }
  let counts := decide (64 ≤ b.length ∧ b.length = 64 + 4 * n + 4 * m + 16 * nh + 4 * ni ∧ m ≤ 4096 ∧ nh ≤ 1024 ∧ ni ≤ 4096 ∧
    m + nh + ni ≤ 8192 ∧ hops.length = nh) &&
    (if d.kind = 0 then decide (1 ≤ n ∧ n ≤ 262144) else decide (2 ≤ n ∧ n ≤ 4096 ∧ nh = 0)) && (d.kind != 3 || m == n)
  let ranges := decide (d.kind ≤ 3 ∧ d.keymode ≤ 2 ∧ d.mode ≤ 1 ∧ d.shift ≤ 31 ∧ d.cfmt ≤ 5 ∧ d.rfmt ≤ 5 ∧ d.x - 39 ≤ d.xc ∧ d.xc ≤ d.x ∧
    1 ≤ d.nElems ∧ d.nElems ≤ 2 ^ 40 ∧ 100 ≤ d.timeoutUs ∧ d.timeoutUs ≤ 1000000) && (d.pa == 0 || (fmtW d.rfmt ≤ d.pa && d.pa ≤ 64)) &&
    h.kLogOk d.kLog && zeros b 22 2 && zeros b 48 16 &&
    (if d.keymode = 2 then decide (10 ≤ d.keyPeriodUs ∧ d.keyPeriodUs ≤ 10000000) else d.keyPeriodUs == 0)
  let exact := d.kind != 0 || decide (d.xc + (clog2 (n * d.nElems) : Int) - 94 ≤ d.eRef ∧ d.x + (clog2 d.nElems : Int) - 94 ≤ d.eRef)
  let streams := (d.contrib ++ d.recv ++ d.hops.map (fun x => x.out) ++ d.hopIns).all (checkSource d.kind d.keymode)
  if counts && ranges && exact && streams then some d else none

/-! ### Groups (R325, R349) -/

/-- The bytes of a group definition (R349). -/
def Group.bytes (g : Group) : List Nat :=
  [g.op, g.mode, g.keyMode, g.kLog] ++ le 2 g.root ++ le 2 (unsigned 16 g.eRef) ++ le 4 g.members.length ++ le 4 g.timeoutUs ++
    le 8 g.seed ++ [g.rtype, 0] ++ le 2 g.offset ++ le 4 0 ++ g.members.flatMap (le 4)

/-- The header of a GROUPDEF frame (R325). -/
def groupHead (gkind num deflen off len : Nat) : List Nat :=
  [gkind, 0] ++ le 2 num ++ le 4 deflen ++ le 4 off ++ le 2 len ++ [0, 0]

/-- Flood a group definition in fragments of at most 4,096 bytes (R325, R349). -/
def Hw.floodGroup (h : Hw) (g : Group) : Hw :=
  let b := g.bytes
  h.each (List.range (ceilDiv b.length 4096)) fun h i =>
    let f := slice b (4096 * i) 4096
    h.flood 5 (groupHead 0 g.num b.length (4096 * i) f.length ++ f) none

/-- Flood the removal of a group. -/
def Hw.floodRemoval (h : Hw) (num : Nat) : Hw := h.flood 5 (groupHead 1 num 0 0 0) none

/-- Put a group into the table, without open rounds. -/
def Hw.putRedGroup (h : Hw) (g : Group) : Hw :=
  { h with red := { h.red with groups := g :: h.red.groups.filter fun x => x.num != g.num,
                               rounds := h.red.rounds.filter fun x => x.group != g.num } }

/-- Contributors that a tap covers. -/
def CheckDef.covered (d : CheckDef) : List Nat := d.contrib.filter fun s => s != noSource

/-- The SUM96 group of a collective check entry (R349). -/
def Hw.groupOf (h : Hw) (n : Nat) (d : CheckDef) : Group :=
  { num := h.checkGroup n, op := 0, mode := d.mode, keyMode := d.keymode, kLog := d.kLog, root := h.g R.FAB_ID_NODE, eRef := d.eRef,
    members := d.covered, timeoutUs := d.timeoutUs, seed := d.seed, rtype := 0, offset := 0 }

/-! ### Evaluation (R263–R270) -/

/-- The streams whose records a round waits for (R257); a collective's contributors come as one sum. -/
def CheckDef.listed (d : CheckDef) : List Nat :=
  let direct := d.recv ++ d.hops.map (fun x => x.out) ++ d.hopIns
  let all := if d.kind = 0 then (if d.covered.isEmpty then [] else [2 ^ 32]) ++ direct else d.contrib ++ direct
  (all.filter fun s => s != noSource).eraseDups

/-- AFLAGS bits of an input. -/
def CheckIn.sat (i : CheckIn) : Bool := bit i.aflags 0
def CheckIn.incomplete (i : CheckIn) : Bool := bit i.aflags 1
def CheckIn.suspect (i : CheckIn) : Bool := bit i.aflags 3

/-- SEED, K and E_REF are those of the definition; a forwarded digest carries none. -/
def CheckDef.fitsParams (d : CheckDef) (i : CheckIn) : Bool :=
  i.k == 0 || (i.k == 2 ^ d.kLog && i.eRef == d.eRef && i.seed == d.seed)

/-- The STATUS of a stream that is not evaluable (R264, R276): none where it is. -/
def CheckDef.status (d : CheckDef) (r : CheckRound) (s : Nat) : Option Nat :=
  if s = noSource then some 6 else
  match r.input s with
  | none => some 2
  | some i =>
    if (d.kind != 1 && !d.fitsParams i) || (d.kind != 2 && i.elems != d.nElems) then some 9
    else if i.incomplete then some 3 else if i.sat then some 4 else if i.suspect then some 5 else none

/-- Accumulators as bytes. -/
def accBytes (l : List Int) : List Nat := l.flatMap fun v => le 12 (unsigned 96 v)

/-- The larger difference, the lowest row of it: (difference, row). -/
def maxRow (a b : Nat × Nat) : Nat × Nat := if b.1 > a.1 ∨ (b.1 = a.1 ∧ b.2 < a.2) then b else a

/-- The largest difference over the rows. -/
def worst (d : List Int) : Nat × Nat :=
  (List.range d.length).foldl (fun m i => maxRow m ((d.getD i 0).natAbs, i)) ((d.getD 0 0).natAbs, 0)

/-- The differences of a receiver (R262): the sum minus the receiver's accumulator times 2^t. -/
def CheckDef.diffs (d : CheckDef) (sum recv : List Int) : List Int :=
  (List.range (2 ^ d.kLog)).map fun j => sum.getD j 0 - recv.getD j 0 * ((2 ^ d.shift : Nat) : Int)

/-- The format of a hop input (R266). -/
def CheckDef.inFmt (d : CheckDef) (s : Nat) : Nat :=
  match d.hops.find? fun x => x.out == s with | some x => x.pfmt | none => d.cfmt

/-- One hop (R266, R267): STATUS 3 where it cannot be evaluated, 1 where it fails. s_c is the smallest S of the inputs' formats; integer inputs alone give
no contributor term (R261). -/
def CheckDef.hopStatus (d : CheckDef) (r : CheckRound) (x : Hop) : Option Nat :=
  let ins := slice d.hopIns x.firstIn x.nIn
  if (x.out :: ins).any fun s => (d.status r s).isSome then some 3 else
  let acc (s : Nat) : List Int := match r.input s with | some i => i.acc | none => []
  let out := acc x.out
  if x.htype = 0 then (if out = acc (nth ins 0) then none else some 1) else
  let fs := ins.map d.inFmt
  let b := d.boundFor x.nIn (if fs.all fmtInt then 0 else (fs.map fmtS).foldl min 24) (boundW x.pfmt) (boundS x.pfmt)
  let sum (j : Nat) : Int := (ins.map fun s => (acc s).getD j 0).foldl (· + ·) 0
  if (List.range (2 ^ d.kLog)).any fun j => decide (b < (sum j - out.getD j 0).natAbs) then some 1 else none

/-- The named hops of a mismatch, in list order. -/
def CheckDef.namedHops (d : CheckDef) (r : CheckRound) : List Named :=
  (List.range d.hops.length).filterMap fun i =>
    match d.hops[i]? with
    | none => none
    | some x => match d.hopStatus r x with | some st => some ⟨x.out, 2, st, i⟩ | none => none

/-- Contributors whose own records, received as hop inputs, show a condition. -/
def CheckDef.namedContrib (d : CheckDef) (r : CheckRound) (st : Nat) (f : CheckIn → Bool) : List Named :=
  (List.range d.contrib.length).filterMap fun i =>
    let s := nth d.contrib i
    match r.input s with | some x => if f x then some ⟨s, 0, st, i⟩ else none | none => none

/-- A collective round (R263, R264): the first rule that applies. -/
def CheckDef.collective (d : CheckDef) (r : CheckRound) : CheckOut :=
  let base : CheckOut := ⟨0, 0, r.seen d, 0, 0, [], [], [], 1, false⟩
  let sum : CheckIn := (r.input (2 ^ 32)).getD ⟨2 ^ 32, 0, 0, 0, 0, 0, 0, 0, [], [], 0, 0, false⟩
  let parts := r.ins.filter fun i => i.source != 2 ^ 32
  let covers := sum.incomplete || sum.elems == sum.count * d.nElems % 2 ^ 64
  let bare := (List.range d.contrib.length).filter fun i => nth d.contrib i == noSource
  let recvs := List.range d.recv.length
  let evals := recvs.filter fun i => (d.status r (nth d.recv i)).isNone
  if !parts.all d.fitsParams || !covers then
    { base with outcome := 5, error := E.badValue,
                named := (d.namedContrib r 9 fun x => !d.fitsParams x) ++ recvs.filterMap fun i =>
                  match r.input (nth d.recv i) with
                  | some x => if d.fitsParams x then none else some (⟨nth d.recv i, 1, 9, i⟩ : Named)
                  | none => none }
  else if !bare.isEmpty then
    { base with outcome := 4, error := E.notCovered, named := bare.map fun i => ⟨noSource, 0, 6, i⟩ }
  else if sum.count < d.n || sum.incomplete then
    { base with outcome := 2, error := E.incomplete, named := d.namedContrib r 3 CheckIn.incomplete }
  else if sum.sat then { base with outcome := 3, error := E.saturated, named := d.namedContrib r 4 CheckIn.sat }
  else if sum.suspect then { base with outcome := 7, named := d.namedContrib r 5 CheckIn.suspect }
  else if sum.nonfin ≠ 0 then { base with outcome := 8, named := d.namedContrib r 7 fun x => x.nonfin != 0 }
  else
    let acc (i : Nat) : List Int := match r.input (nth d.recv i) with | some x => x.acc | none => []
    let beyond (i : Nat) : Bool := (d.diffs sum.acc (acc i)).any fun v => decide (d.bound < v.natAbs)
    let nonf (i : Nat) : Bool := match r.input (nth d.recv i) with | some x => x.nonfin != 0 | none => false
    let names := recvs.filterMap fun i =>
      match d.status r (nth d.recv i) with
      | some st => some (⟨nth d.recv i, 1, st, i⟩ : Named)
      | none => if beyond i then some ⟨nth d.recv i, 1, 1, i⟩ else if nonf i then some ⟨nth d.recv i, 1, 7, i⟩ else none
    let base := { base with named := names }
    if evals.isEmpty then { base with outcome := 2, error := E.incomplete }
    else
      let w := evals.foldl (fun m i => match m with
        | none => some (worst (d.diffs sum.acc (acc i)))
        | some x => some (maxRow x (worst (d.diffs sum.acc (acc i))))) none
      let values := accBytes sum.acc ++ evals.flatMap fun i => accBytes (acc i)
      let base := { base with maxDiff := (w.getD (0, 0)).1, row := (w.getD (0, 0)).2, input := values }
      if evals.any fun i => beyond i || nonf i then
        let outs := d.hops.flatMap fun x => match r.input x.out with | some i => accBytes i.acc | none => []
        { base with outcome := 1, error := E.collectiveMismatch, named := d.namedHops r ++ names, input := values ++ outs }
      else base

/-- What the grouping of R268 and R269 compares. -/
def CheckDef.groupKey (d : CheckDef) (i : CheckIn) : Nat × Nat × List Nat := if d.kind = 2 then (i.where_, i.elems, i.digest) else (0, 0, i.digest)

/-- An agreement round (R268, R269). -/
def CheckDef.agreement (d : CheckDef) (r : CheckRound) : CheckOut :=
  let idx := List.range d.contrib.length
  let inp (i : Nat) : Option CheckIn := r.input (nth d.contrib i)
  let key (i : Nat) : Option (Nat × Nat × List Nat) := if (d.status r (nth d.contrib i)).isSome then none else (inp i).map d.groupKey
  let good := idx.filter fun i => (key i).isSome
  let size (k : Option (Nat × Nat × List Nat)) : Nat := (good.filter fun i => key i == k).length
  let best := good.find? fun i => d.n < 2 * size (key i)
  let outside (i : Nat) : Bool := match best with | some b => key i != key b | none => true
  let names := idx.filterMap fun i =>
    match d.status r (nth d.contrib i) with
    | some st => some (⟨nth d.contrib i, 3, st, i⟩ : Named)
    | none => if outside i then some ⟨nth d.contrib i, 3, 8, i⟩ else none
  let out := match best with | some b => if size (key b) = d.n then 0 else 1 | none => 6
  ⟨out, if out = 0 then 0 else E.replicaMismatch, r.seen d, 0, 0, names, [],
    good.flatMap fun i => match inp i with | some x => x.digest | none => [], 1, false⟩

/-- The bin of ρ (R270), an FP64 pattern. -/
def driftBin (rho : Nat) : Nat :=
  if rho = 0 then 0 else
  match (List.range 14).find? fun i => decide (rho < (1023 + 2 * (i + 1) - 30) * 2 ^ 52) with
  | some i => i + 1
  | none => 15

/-- The sum of the squares. -/
def sumSq (l : List Int) : Nat := total (l.map fun v => v.natAbs * v.natAbs)

/-- A drift round (R270), with the drift of each evaluable pair: (subject, ρ, bin). -/
def CheckDef.driftRound (d : CheckDef) (r : CheckRound) : CheckOut × List (Nat × Nat × Nat) :=
  let acc (s : Nat) : List Int := match r.input s with | some i => i.acc | none => []
  let idx := List.range d.contrib.length
  let fault (i : Nat) : Option Named :=
    let a := nth d.contrib i
    let b := nth d.recv i
    match d.status r a with
    | some st => some ⟨a, 3, st, i⟩
    | none => match d.status r b with
      | some st => some ⟨b, 3, st, i⟩
      | none => if sumSq (acc a) = 0 then some ⟨b, 3, 9, i⟩ else none
  let good := idx.filter fun i => (fault i).isNone
  let delta (i : Nat) : List Int :=
    (List.range (2 ^ d.kLog)).map fun j => (acc (nth d.recv i)).getD j 0 - (acc (nth d.contrib i)).getD j 0
  let rows := good.map fun i =>
    let rho := fofQuot (sumSq (delta i)) (sumSq (acc (nth d.contrib i)))
    (nth d.recv i, rho, driftBin rho)
  let hist := (List.range 16).map fun b => (rows.filter fun x => x.2.2 == b).length
  let tri := rows.foldl (fun t x => t.combine ⟨1, x.2.1, 0⟩) (⟨0, 0, 0⟩ : Triple)
  let w := good.foldl (fun m i => match m with
    | none => some (worst (delta i))
    | some x => some (maxRow x (worst (delta i)))) none
  let part := hist.flatMap (le 4) ++ le 8 tri.n ++ le 8 tri.mean ++ le 8 tri.m2 ++ le 8 0
  (⟨0, 0, r.seen d, (w.getD (0, 0)).1, (w.getD (0, 0)).2, idx.filterMap fault, part,
    good.flatMap fun i => accBytes (acc (nth d.contrib i)) ++ accBytes (acc (nth d.recv i)), 1, false⟩, rows)

/-- The evaluation of a round by its kind. -/
def CheckDef.evaluate (d : CheckDef) (r : CheckRound) : CheckOut × List (Nat × Nat × Nat) :=
  let x := match d.kind with
    | 0 => (d.collective r, [])
    | 3 => d.driftRound r
    | _ => (d.agreement r, [])
  ({ x.1 with grade := r.ins.foldl (fun g i => max g i.grade) 1, suspended := r.ins.any fun i => i.suspended }, x.2)

/-! ### Rounds (R257) -/

/-- The report of a CHECK outcome on a subject (R441). -/
def Hw.checkReport (h : Hw) (e : CheckEntry) (key : Nat) (o : CheckOut) (kind subject : Nat) : Hw :=
  let audit := auditDigest "BOLDAL-AUDIT-CMD" e.defn.raw ++ auditDigest "BOLDAL-AUDIT-MODEL" (e.defn.raw.take 64) ++
    auditDigest "BOLDAL-AUDIT-INPUT" o.input
  h.report { kind := kind, cls := 1, subject := subject, origin := 0x8000 + e.num,
             flags := if o.suspended || h.suspendsType 0x22 then 2 else 0, grade := max 1 o.grade, score := 0, ns := h.ns, sp := noPosition,
             ref := key, audit := audit, model := [], frame := [], slot := none, advice := 0, stamp := h.stampNode }

/-- The verdicts that an outcome offers (R265, R441). -/
def Hw.checkVerdicts (h : Hw) (e : CheckEntry) (key : Nat) (o : CheckOut) : Hw :=
  if o.outcome = 1 ∨ o.outcome = 6 ∨ o.outcome = 8 then
    let who := (o.named.filter fun n => n.status == 1 || n.status == 7 || n.status == 8).map fun n => n.source / 2 ^ 13
    h.each who.eraseDups fun h s => h.checkReport e key o 2 s
  else if o.outcome = 4 then
    h.each (o.named.filter fun n => n.status == 6) fun h n => h.checkReport e key o 0 (2 ^ 30 + n.index)
  else h

/-- Evaluate an open round of an entry; `forced` by its timeout or a fifth round. -/
def Hw.evalRound (h : Hw) (e : CheckEntry) (r : CheckRound) (forced : Bool) : Hw :=
  let h := h.putCheck { e with rounds := e.rounds.filter fun x => x.key != r.key, done := r.key :: e.done }
  let h := if forced then h.choice 9 else h
  let x := e.defn.evaluate r
  let drift := x.2.foldl (fun (l : List Drift) d => ⟨d.1, d.2.1, d.2.2, max 1 x.1.grade, x.1.suspended⟩ :: l.filter fun y => y.source != d.1) h.chk.drift
  let h := { h with chk := { h.chk with drift := drift } }
  let h := h.emitCheck e r.key x.1
  ((h.inc (R.CHK_ROUNDS_COUNT.at e.num)).bookRound e.num r.key x.1.outcome).checkVerdicts e r.key x.1

/-- An input joins its round by key, or is counted late (R257, R281). The first record of a stream in a round counts. -/
def Hw.checkJoin (h : Hw) (n key : Nat) (i : CheckIn) : Hw :=
  match h.checkEntry n with
  | none => h
  | some e =>
    if e.done.contains key then (h.inc (R.CHK_LATE_COUNT.at n)).choice 8 else
    let h := if (e.rounds.any fun r => r.key == key) || e.rounds.length < 4 then h
      else match e.rounds.getLast? with | some r => h.evalRound e r true | none => h
    match h.checkEntry n with
    | none => h
    | some e =>
      let r := (e.rounds.find? fun r => r.key == key).getD ⟨key, h.frc, []⟩
      let r := if (r.input i.source).isSome then r else { r with ins := r.ins ++ [i] }
      let isNew := !(e.rounds.any fun x => x.key == key)
      let e := { e with rounds := if isNew then r :: e.rounds else e.rounds.map fun x => if x.key = key then r else x }
      let h := h.putCheck e
      if e.defn.listed.all fun s => (r.input s).isSome then h.evalRound e r false else h

/-- The round key of a record (R255, R257): none where its sync record is missing, since the record is discarded (R12, R193), or without a step index
(R258). -/
def CheckDef.key (d : CheckDef) (st : Stamp) (known : Bool) (tag : Nat) : Option Nat :=
  if !known then none
  else if d.keymode = 1 ∨ d.kind = 2 then some tag
  else if d.keymode = 0 then (if st.sp = noPosition then none else some (st.sp / 65536))
  else some (st.nt / 65536 / (d.keyPeriodUs * 1000))

/-- An input goes to every loaded entry of the kinds `ks` that lists its stream. -/
def Hw.checkOffer (h : Hw) (ks : List Nat) (i : CheckIn) (st : Stamp) (known : Bool) (tag : Nat) : Hw :=
  h.each (h.chk.entries.filter fun e => ks.contains e.defn.kind && e.defn.listed.contains i.source) fun h e =>
    match e.defn.key st known tag with
    | some k => h.checkJoin e.num k i
    | none => h

/-- The digest of a sketch (R268): K, E_REF, SEED and ELEMS as stored, then the accumulators. -/
def sketchDigest (head : List Nat) (acc : List Int) : List Nat :=
  (auditDigest "BOLDAL-SKD" (slice head 4 2 ++ slice head 10 2 ++ slice head 16 16 ++ accBytes acc)).take 16

/-- AFLAGS that a DIGEST record's DFLAGS stand for, and the other way (R274). -/
def dflagsOf (f : Nat) : Nat := bits f 1 1 + 2 * bits f 0 1 + 4 * bits f 3 1 + 8 * bits f 2 1

/-- This node is the first that receives the sketches of a replica of one of its KIND 1 entries (R268). -/
def Hw.homeReplica (h : Hw) (source : Nat) : Bool :=
  source / 2 ^ 20 == h.nodeId && h.chk.entries.any fun e => e.defn.kind == 1 && e.defn.listed.contains source

/-- The DIGEST record of kind 2 of a replica's sketch, with the sketch's event time and AFLAGS (R268, R274; log entry 117). -/
def Hw.skdDigest (h : Hw) (x : CheckPart) (aflags : Nat) : Hw :=
  let p := [2, dflagsOf aflags] ++ le 2 0 ++ [0xFF, 0, 0, 0] ++ le 4 x.source ++ le 4 (fld x.head 0 4) ++ le 8 (fld x.head 24 8) ++
    sketchDigest x.head x.acc ++ List.replicate 16 0
  h.handOver [{ h.mkRec 0x21 4 0x1001 (max h.ownGrade x.grade + 32 * b2n x.suspended) x.stamp p with dest := some h.nodeId, known := x.known }]

/-- A SKETCH record at the checking node (R248): its parts are put together, and the whole joins the checks. -/
def Hw.sketchAt (h : Hw) (r : Rec) : Hw :=
  let p := r.payload
  let first := fld p 6 2
  let new := (List.range (fld p 8 2)).map fun i => signed 96 (fld p (48 + 12 * i) 12)
  let old : CheckPart := if first = 0 then ⟨r.source, p, [], r.stamp, 0, r.known, false⟩ else
    (h.chk.parts.find? fun x => x.source == r.source).getD ⟨r.source, [], [], r.stamp, 0, false, false⟩
  let rest := h.chk.parts.filter fun x => x.source != r.source
  let x := { old with acc := old.acc ++ new, grade := max old.grade (r.flags % 4), suspended := old.suspended || bit r.flags 5 }
  if old.acc.length ≠ first ∨ old.head.isEmpty then { h with chk := { h.chk with parts := rest } }
  else if !bit (nth p 12) 7 then { h with chk := { h.chk with parts := x :: rest } }
  else
    let h := { h with chk := { h.chk with parts := rest } }
    let k := fld x.head 4 2
    if x.acc.length ≠ k then h else
    let i : CheckIn := ⟨r.source, 1, k, signed 16 (fld x.head 10 2), fld x.head 16 8, fld x.head 24 8, fld x.head 36 4, nth p 12 % 128,
      x.acc, sketchDigest x.head x.acc, 0, x.grade, x.suspended⟩
    let h := if h.homeReplica r.source then h.skdDigest x (nth p 12 % 128) else h
    h.checkOffer [0, 1, 3] i x.stamp x.known (fld x.head 14 2)

/-- A DIGEST record at the checking node (R268, R269, R274). A sketch digest that this node made itself has joined its round with the sketch
(`Hw.sketchAt`, log entry 117). -/
def Hw.digestAt (h : Hw) (r : Rec) : Hw :=
  let p := r.payload
  let sus := bit r.flags 5
  if nth p 0 = 2 ∧ r.source / 2 ^ 20 = h.nodeId then h
  else if nth p 0 = 2 then
    let i : CheckIn := ⟨fld p 8 4, 1, 0, 0, 0, fld p 16 8, 0, dflagsOf (nth p 1), [], slice p 24 16, 0, r.flags % 4, sus⟩
    h.checkOffer [1] i r.stamp r.known (fld p 2 2)
  else
    let i : CheckIn := ⟨r.source, 1, 0, 0, 0, fld p 16 8, 0, dflagsOf (nth p 1) % 4, [], slice p 24 32, fld p 8 8, r.flags % 4, sus⟩
    h.checkOffer [2] i r.stamp r.known (fld p 2 2)

/-- The stream that a SKETCH or DIGEST record speaks for. -/
def checkStream (r : Rec) : Nat := if r.typ = 0x21 ∧ nth r.payload 0 = 2 then fld r.payload 8 4 else r.source

/-- The record is one that a loaded entry lists. -/
def Hw.checkTakes (h : Hw) (r : Rec) : Bool :=
  (r.typ == 0x20 || r.typ == 0x21) && h.chk.entries.any fun e =>
    e.defn.listed.contains (checkStream r) && (if r.typ = 0x20 then e.defn.kind != 2 else (e.defn.kind == 1) == (nth r.payload 0 == 2))

/-- The record types that feed a group (R347, R349): sketches a SUM96 group, RTYPE a MOMENT group, LAG records the others. -/
def Group.fedBy (g : Group) (typ : Nat) : Bool :=
  match g.op with | 0 => typ == 0x20 | 1 => typ == 0x05 | 2 => typ == 0x05 | 3 => typ == g.rtype | 4 => typ == 0x05 | _ => false

/-- The record is a member contribution that a reduction group of this node still has to take (R346): its stream is one of a group's members,
of this home. -/
def Hw.contributes (h : Hw) (r : Rec) : Bool :=
  h.running 0x24 && !r.reduced && r.source / 2 ^ 20 == h.nodeId && h.red.groups.any fun g => g.members.contains r.source && g.fedBy r.typ

/-! ### Meanings -/

/-- CHK_CTL EN = 1 (R255): the definition is read on behalf of CHK_CTX. -/
def Hw.checkEnable (h : Hw) : Tried :=
  if h.prof = .l then .ok h else
  let n := h.g R.CHK_SEL_ENTRY
  if !h.running 0x10 then .error E.badState
  else if h.on (R.CHK_CTL_EN.at n) then .ok h
  else .ok ((h.s (R.CHK_CTL_EN.at n) 1).dmaRead (h.g (R.CHK_CTX_CTX.at n)) (h.g64 (R.CHK_DEF_LO_ADDR.at n) (R.CHK_DEF_HI_ADDR.at n))
    (h.g (R.CHK_DEF_LEN_BYTES.at n)) (.check n))

/-- CHECK_ENABLE (R255). -/
def execCheckEnable (a : Acc) (s : State) : Result := s.go fun h => h.hostWrite a 0x13 0x144 false Hw.checkEnable

/-- The bytes of a definition have arrived; an entry disabled meanwhile takes nothing. -/
def Hw.checkArrived (h : Hw) (n : Nat) (bs : List Nat) : Hw :=
  if h.on (R.CHK_CTL_EN.at n) && !h.on (R.CHK_CTL_LOADED.at n) then
    { h with chk := { h.chk with raw := (n, bs) :: h.chk.raw.filter fun x => x.1 != n } }
  else h

/-- A definition refused at load (R256). -/
def Hw.checkRefused (h : Hw) (n code : Nat) : Hw :=
  let h := { h with chk := { h.chk with raw := h.chk.raw.filter fun x => x.1 != n } }
  ((h.s (R.CHK_CTL_EN.at n) 0).err 0x13 code).raise 0x13 18

/-- CHECK_DEFINITION_LOADED (R256, R280, R349). -/
def execCheckDefinitionLoaded (n : Nat) (s : State) : Result := s.go fun h =>
  match h.chk.raw.find? fun x => x.1 == n with
  | none => h
  | some x =>
    match h.readCheck x.2 with
    | none => h.checkRefused n E.badValue
    | some d =>
      let h := { h with chk := { h.chk with raw := h.chk.raw.filter fun y => y.1 != n } }
      let h := (h.putCheck ⟨n, d, [], []⟩).s (R.CHK_CTL_LOADED.at n) 1
      let h := if d.kind = 0 && !d.covered.isEmpty then ((h.putRedGroup (h.groupOf n d)).showGroup (h.checkGroup n)).floodGroup (h.groupOf n d) else h
      h.fpIdentity

/-- CHK_CTL EN = 0 (R257). -/
def Hw.checkDisable (h : Hw) : Tried :=
  if h.prof = .l then .ok h else
  let n := h.g R.CHK_SEL_ENTRY
  if !h.running 0x10 then .error E.badState else
  match h.checkEntry n with
  | none => .ok (h.dropCheck n)
  | some e =>
    let h := (h.closeRounds e).dropCheck n
    .ok (if e.defn.kind = 0 && !e.defn.covered.isEmpty then h.floodRemoval (h.checkGroup n) else h)

/-- CHECK_DISABLE (R257). -/
def execCheckDisable (a : Acc) (s : State) : Result := s.go fun h => h.hostWrite a 0x13 0x144 false Hw.checkDisable

/-- CHECK_RECORD_ARRIVAL (R257): the oldest record held here that a loaded entry lists, once a reduction has its copy. -/
def execCheckRecordArrival (s : State) : Result := s.go fun h =>
  match h.flw.held.find? fun x => h.arrived x && h.checkTakes x.r && !h.contributes x.r with
  | none => h
  | some x =>
    let d := h.deliver x
    if !d.2 then d.1 else if x.r.typ = 0x20 then d.1.sketchAt x.r else d.1.digestAt x.r

/-- CHECK_ROUND_TIMEOUT (R257): TIMEOUT_US after a round's first record, the oldest first. -/
def execCheckRoundTimeout (n : Nat) (s : State) : Result := s.go fun h =>
  match h.checkEntry n with
  | none => h
  | some e =>
    let due := e.rounds.filter fun r => r.firstFrc + e.defn.timeoutUs * 1000 ≤ h.frc
    match due.getLast? with
    | some r => h.evalRound e r true
    | none => h

end Sys2Proof.Machine
end

