-- ==== Sys2Proof/Machine/Models.lean ====
section
/-!
DEFINITION. Machine/Models.lean: model images of the tree engine (R285–R290), the walk of a tree (R310, R311), scores and classes (R312, R313)
and the assembly of features (R302–R307).
-/
namespace Sys2Proof.Machine

/-! ### The image (R285–R289) -/

def AgtModel.nfeat (m : AgtModel) : Nat := fld m.image 0 2
def AgtModel.ntree (m : AgtModel) : Nat := fld m.image 2 2
def AgtModel.nout (m : AgtModel) : Nat := nth m.image 4
def AgtModel.tgate (m : AgtModel) : Nat := nth m.image 5
def AgtModel.nnode (m : AgtModel) : Nat := fld m.image 8 4
def AgtModel.maxDepth (m : AgtModel) : Nat := nth m.image 12
def AgtModel.id (m : AgtModel) : List Nat := slice m.image 16 16

/-- Offsets of the output table, the directory and the node words. -/
def AgtModel.outOff (m : AgtModel) : Nat := roundUp (64 + 4 * m.nfeat) 64
def AgtModel.dirOff (m : AgtModel) : Nat := roundUp (m.outOff + 136 * m.nout) 64
def AgtModel.nodeOff (m : AgtModel) : Nat := roundUp (m.dirOff + 8 * m.ntree) 64
def AgtModel.endOff (m : AgtModel) : Nat := m.nodeOff + 8 * m.nnode

/-- Feature specification `f`. -/
def AgtModel.spec (m : AgtModel) (f : Nat) : Nat := fld m.image (64 + 4 * f) 4

/-- A feature's TYPE is INT32. -/
def specInt (s : Nat) : Bool := bit s 2

/-- Output entry `o`. -/
def AgtModel.out (m : AgtModel) (o : Nat) : List Nat := slice m.image (m.outOff + 136 * o) 136

def outBase (b : List Nat) : Int := signed 64 (fld b 0 8)
def outVkind (b : List Nat) : Nat := nth b 8
def outNthr (b : List Nat) : Nat := nth b 9
def outAdd (b : List Nat) : Nat := fld b 10 2
def outMin (b : List Nat) : Nat := nth b 12
def outThr (b : List Nat) (j : Nat) : Int := signed 64 (fld b (16 + 8 * j) 8)

/-- Directory entry `t`. -/
def AgtModel.dir (m : AgtModel) (t : Nat) : Nat := fld m.image (m.dirOff + 8 * t) 8

/-- Node word `n`. -/
def AgtModel.node (m : AgtModel) (n : Nat) : Nat := fld m.image (m.nodeOff + 8 * n) 8

/-! ### Validity (R290) -/

/-- A node that a root reaches. -/
def AgtModel.nodeOk (m : AgtModel) (n : Nat) : Bool :=
  let w := m.node n
  if bit w 0 then bits w 1 31 == 0
  else
    let f := bits w 1 12
    let int := bit w 14
    let c := bits w 15 17
    f < m.nfeat && int == specInt (m.spec f) && 1 ≤ c && n + c + 1 < m.nnode && (int || !fp32F.isNan (bits w 32 32))

/-- The children of a node. -/
def AgtModel.kids (m : AgtModel) (n : Nat) : List Nat :=
  let w := m.node n
  if bit w 0 then [] else [n + bits w 15 17, n + bits w 15 17 + 1]

/-- No path from these nodes visits more than `d` levels, and each node reached is well formed. -/
def AgtModel.levelsOk (m : AgtModel) : Nat → List Nat → Bool
  | 0, l => l.isEmpty
  | d + 1, l => l.all m.nodeOk && m.levelsOk d (l.flatMap m.kids).eraseDups

/-- A feature specification. -/
def specOk (s : Nat) : Bool :=
  let k := bits s 0 2
  bits s 17 15 == 0 && bits s 4 8 ≤ (if k = 1 then 31 else if k = 2 then 255 else 127) && (k == 3 || bits s 12 5 == 0)

/-- An output entry. -/
def AgtModel.outOk (m : AgtModel) (b : List Nat) : Bool :=
  let n := outNthr b
  decide ((outBase b).natAbs ≤ 2 ^ 60) && outVkind b ≤ 4 && n ≤ 15 && outMin b ≤ 15 && zeros b 13 3 &&
    (List.range (n - 1)).all (fun j => decide (outThr b j < outThr b (j + 1))) && zeros b (16 + 8 * n) (8 * (15 - n)) &&
    (outAdd b == 0xFFFF || (outAdd b < m.nfeat && specInt (m.spec (outAdd b))))

/-- A directory entry and its tree. -/
def AgtModel.treeOk (m : AgtModel) (d : Nat) : Bool :=
  d / 2 ^ 28 == 0 && bits d 0 20 < m.nnode && bits d 20 3 < m.nout && 1 ≤ bits d 23 5 && bits d 23 5 ≤ m.maxDepth &&
    m.levelsOk (bits d 23 5) [bits d 0 20]

/-- The image is valid (R290); bytes after the node words are padding. -/
def AgtModel.valid (m : AgtModel) : Bool :=
  let b := m.image
  64 ≤ b.length && 1 ≤ m.nfeat && m.nfeat ≤ 256 && m.ntree ≤ 4096 && 1 ≤ m.nout && m.nout ≤ 8 && m.tgate ≤ 2 && 1 ≤ m.nnode &&
    1 ≤ m.maxDepth && m.maxDepth ≤ 24 && zeros b 6 2 && zeros b 13 3 && zeros b 32 32 && m.endOff ≤ b.length &&
    zeros b (64 + 4 * m.nfeat) (m.outOff - (64 + 4 * m.nfeat)) &&
    zeros b (m.outOff + 136 * m.nout) (m.dirOff - (m.outOff + 136 * m.nout)) &&
    zeros b (m.dirOff + 8 * m.ntree) (m.nodeOff - (m.dirOff + 8 * m.ntree)) && zeros b m.endOff (b.length - m.endOff) &&
    (List.range m.nfeat).all (fun f => specOk (m.spec f)) && (List.range m.nout).all (fun o => m.outOk (m.out o)) &&
    (List.range m.ntree).all fun t => m.treeOk (m.dir t)

/-! ### Traversal, scores, classes (R310–R313) -/

/-- fp_le (R311). -/
def fpLe (a b : Nat) : Bool := decide (fp32F.key a ≤ fp32F.key b)

/-- Walk a tree from node `n`: the leaf's value and the nodes visited; `fuel` bounds the levels. -/
def AgtModel.walk (m : AgtModel) (feats : List Nat) (missing : List Bool) : Nat → Nat → Int × Nat
  | 0, _ => (0, 0)
  | fuel + 1, n =>
    let w := m.node n
    if bit w 0 then (signed 32 (bits w 32 32), 1) else
    let f := bits w 1 12
    let v := nth feats f
    let int := bit w 14
    let go :=
      if missing.getD f false || (!int && fp32F.isNan v) then bits w 13 1
      else if int then (if signed 32 v ≤ signed 32 (bits w 32 32) then 0 else 1)
      else if fpLe v (bits w 32 32) then 0 else 1
    let r := m.walk feats missing fuel (n + bits w 15 17 + go)
    (r.1, r.2 + 1)

/-- What the walks of a sample give. -/
structure Scored where
  scores : List Int
  classes : List Nat
  visits : Nat
  addMissing : Bool
  missing : Nat
deriving DecidableEq, Repr

/-- The features that count as missing (R316): with TGATE 1 a TRANSIENT sample lacks those with TSENS. -/
def AgtModel.lacking (m : AgtModel) (transient : Bool) (missing : List Bool) : List Bool :=
  (List.range m.nfeat).map fun f => missing.getD f false || (m.tgate == 1 && transient && bit (m.spec f) 3)

/-- The scores and classes of a sample (R312, R313). -/
def AgtModel.score (m : AgtModel) (feats : List Nat) (missing : List Bool) (transient : Bool) : Scored :=
  let lack := m.lacking transient missing
  let walks := (List.range m.ntree).map fun t => (bits (m.dir t) 20 3, m.walk feats lack 25 (bits (m.dir t) 0 20))
  let scores := (List.range m.nout).map fun o =>
    let b := m.out o
    let add := if outAdd b = 0xFFFF ∨ lack.getD (outAdd b) false then 0 else signed 32 (nth feats (outAdd b))
    outBase b + ((walks.filter fun w => w.1 == o).map fun w => w.2.1).foldl (· + ·) 0 + add
  { scores := scores,
    classes := (List.range m.nout).map fun o =>
      ((List.range (outNthr (m.out o))).filter fun j => decide (outThr (m.out o) j < scores.getD o 0)).length,
    visits := total (walks.map fun w => w.2.2),
    addMissing := (List.range m.nout).any fun o => outAdd (m.out o) != 0xFFFF && lack.getD (outAdd (m.out o)) false,
    missing := (lack.filter (· == true)).length }

/-- Output `o` of a scored sample yields a candidate (R313). -/
def AgtModel.candidate (m : AgtModel) (r : Scored) (o : Nat) : Bool := outMin (m.out o) != 0 && outMin (m.out o) ≤ nth r.classes o

/-! ### Features (R302–R305) -/

/-- A missing value (R304). -/
def missingValue (int : Bool) : Nat := if int then 0 else 0x7FC00000

/-- The difference of KIND 3 (R305). -/
def featDiff (int : Bool) (a b : Nat) : Nat :=
  if int then unsigned 32 (clampTo (-(2 ^ 31)) (2 ^ 31 - 1) (signed 32 a - signed 32 b)).1 else fp32F.add a (fp32F.neg b)

/-- An entity feature of a row's 136 bytes: none where the row is missing, `false` where its type differs. -/
def rowFeature (row : Option (List Nat)) (i : Nat) (int : Bool) : Option (Bool × Nat) :=
  row.map fun b => (bit (fld b 4 4) i == int, fld b (8 + 4 * i) 4)

/-- One feature: the value, whether it is missing, whether a type differs. -/
def feature (s : Nat) (word : Nat → Option (Bool × Nat)) (row dense : Option (List Nat)) : Nat × Bool × Bool :=
  let int := specInt s
  let a := bits s 4 8
  let none_ (t : Bool) : Nat × Bool × Bool := (missingValue int, true, t)
  match bits s 0 2 with
  | 0 => match word a with
    | none => none_ false
    | some w => if w.1 = int then (w.2, false, false) else none_ true
  | 1 => match rowFeature row a int with
    | none => none_ false
    | some w => if w.1 then (w.2, false, false) else none_ true
  | 2 => match dense with
    | none => none_ false
    | some b => (fld b (4 * a) 4, false, false)
  | _ => match word a, rowFeature row (bits s 12 5) int with
    | some w, some e => if w.1 = int && e.1 then (featDiff int w.2 e.2, false, false) else none_ true
    | some w, none => none_ (w.1 != int)
    | none, some e => none_ (!e.1)
    | none, none => none_ false

/-- Rows of the entity table (R284). -/
def Hw.entityRows (h : Hw) : Nat := h.prof.sel 256 4096 262144

/-- The bytes of a row. -/
def Hw.rowBytes (h : Hw) (r : Nat) : List Nat := match h.agt.rows.find? fun x => x.1 == r with | some x => x.2 | none => List.replicate 136 0

/-- The row is valid (R303). -/
def Hw.rowValid (h : Hw) (r : Nat) : Bool := bit (fld (h.rowBytes r) 0 4) 31

/-- The row of an entity (R296, R302). -/
def Hw.rowOf (h : Hw) (key : Nat) : Option Nat :=
  match h.prof with
  | .l => if h.rowValid (h.g R.AGT_SELF_ROW_ROW) then some (h.g R.AGT_SELF_ROW_ROW) else none
  | _ =>
    let n := key / 128
    let r := h.g (R.AGT_MAP_BASE.at n) + key % 128
    if key % 128 < h.g (R.AGT_MAP_COUNT.at n) && h.rowValid r && fld (h.rowBytes r) 0 4 % 2 ^ 19 == key then some r else none

/-- The input frame of a sample (R306). -/
def inputFrame (key : Nat) (row : Option Nat) (ns sp frameNo slot flags grade : Nat) (feats : List Nat) (missing : List Bool) : List Nat :=
  let n := feats.length
  let mask := (List.range (ceilDiv n 8)).map fun i =>
    total ((List.range 8).map fun j => if missing.getD (8 * i + j) false then 2 ^ j else 0)
  le 4 key ++ le 4 (row.getD 0xFFFFFFFF) ++ le 8 ns ++ le 8 sp ++ le 4 frameNo ++ [slot, flags, grade, 0] ++ feats.flatMap (le 4) ++
    padMul 4 mask

/-- The scores of an input frame under a model (R306): how a warden evaluates a frame that it was sent (R453). -/
def AgtModel.scoreFrame (m : AgtModel) (frame : List Nat) : Scored :=
  let n := m.nfeat
  m.score ((List.range n).map fun f => fld frame (32 + 4 * f) 4)
    ((List.range n).map fun f => bit (nth frame (32 + 4 * n + f / 8)) (f % 8)) (bit (nth frame 29) 0)

end Sys2Proof.Machine
end

