-- ==== Sys2Proof/Machine/Agate.lean ====
section
/-!
DEFINITION. Machine/Agate.lean: the tree engine (R291–R321): samples from frame boundaries and from EVAL, their dealing to lanes, results and
candidates, loads, and the swaps of models and rules.
-/
namespace Sys2Proof.Machine

/-! ### Slots and samples -/

def Hw.slotState (h : Hw) (s : Nat) : AgtSlot := (h.agt.slots.find? fun x => x.num == s).getD ⟨s, none, none, none⟩

def Hw.putSlotState (h : Hw) (x : AgtSlot) : Hw :=
  { h with agt := { h.agt with slots := x :: h.agt.slots.filter fun y => y.num != x.num } }

/-- The model that a sample uses: the active one, or the former one where a swap has come since (R293, R294). -/
def Hw.modelOf (h : Hw) (x : Sample) : Option AgtModel :=
  if x.gen = h.g (R.AGT_MS_STAT_SWAPS.at x.slot) then (h.slotState x.slot).active else (h.slotState x.slot).former

/-- Show the samples in flight and those that wait (R322). -/
def Hw.showSamples (h : Hw) : Hw :=
  let l := h.agt.samples
  (h.s R.AGT_STAT_IN_FLIGHT (l.filter fun x => x.lane.isSome && !x.done).length).s R.AGT_PENDING_COUNT
    (l.filter fun x => x.lane.isNone && !x.done).length

/-- Store the samples; the former model of a slot goes once no sample uses it (R294). -/
def Hw.putSamples (h : Hw) (l : List Sample) : Hw :=
  let h := Hw.showSamples { h with agt := { h.agt with samples := l } }
  h.each (List.range h.slotCount) fun h s =>
    if h.on (R.AGT_MS_STAT_STANDBY_BUSY.at s) && !(l.any fun x => x.slot == s && x.gen != h.g (R.AGT_MS_STAT_SWAPS.at s)) then
      (h.putSlotState { h.slotState s with former := none }).s (R.AGT_MS_STAT_STANDBY_BUSY.at s) 0
    else h

/-- The registers at 0x084–0x0A0 of a slot and the active rules (R315). -/
def Hw.slotCmd (h : Hw) (s : Nat) : List Nat :=
  let h := h.s R.AGT_MSEL_SLOT s
  ((List.range 8).flatMap fun i => le 4 (h.peek 0x20 (0x84 + 4 * i))) ++
    (List.range 128).flatMap fun r => le 4 (h.g (R.AGT_COL_ACT_A_A.at r)) ++ le 4 (h.g (R.AGT_COL_ACT_B_B.at r))

/-- The input words of an entity in stream mode (R297, R300), as the node held them at the boundary (R13, R296): type and value. -/
def Hw.streamWord (h : Hw) (b : Boundary) (transient : Bool) (i : Nat) : Option (Bool × Nat) :=
  let e := b.ent
  let node := h.prof != .l
  if i < 64 then (match e.words.find? fun w => w.word == i with | some w => some (w.isInt, w.value) | none => none)
  else match i with
    | 64 => if node then (e.lag.bind fun l => l.1).map fun l => (false, fp32F.enc false l 65536 0) else none
    | 65 => if node then e.lag.map fun l => (true, l.2.1) else none
    | 66 => b.trk.map fun t => (true, t)
    | 67 => some (true, e.grade)
    | 68 => some (true, b2n transient)
    | 69 => if node then some (true, b2n b.unreachable) else none
    | 70 => some (true, e.gaps)
    | 71 => if node then b.drift.map fun d => (false, fp64F.conv fp32F d.rho) else none
    | 72 => if node then b.drift.map fun d => (true, d.bin) else none
    | 73 => if node then some (true, e.failed) else none
    | _ => none

/-- The entity that a sample's KEY names at its assembly tick (R302, R306, R314): a queue-mode sample that names a row by bit 31 is of the entity whose
KEY the row stores. -/
def Hw.entityOf (h : Hw) (key : Nat) : Nat := (if bit key 31 then fld (h.rowBytes (key % 2 ^ 18)) 0 4 else key) % 2 ^ 19

/-- Make a sample of a slot (R304–R307): the counts of R322, and the sample. -/
def Hw.makeSample (h : Hw) (s key : Nat) (row : Option Nat) (m : AgtModel) (word : Nat → Option (Bool × Nat)) (dense : Option (List Nat))
    (ns sp frameNo grade : Nat) (transient suspended : Bool) (dcmd : List Nat) (job : Option (Nat × Nat × Nat)) (write : Option Nat)
    (offer : Bool) : Hw × Sample :=
  let rb := row.map h.rowBytes
  let fs := (List.range m.nfeat).map fun f => feature (m.spec f) word rb dense
  let h := if fs.any fun f => f.2.2 then h.inc R.AGT_TYPE_MISS_COUNT else h
  let h := if row.isNone then h.inc R.AGT_ENT_MISS_COUNT else h
  let h := if transient then h.inc R.AGT_TRANSIENT_COUNT else h
  let n := h.agt.nextSer
  ({ h with agt := { h.agt with nextSer := n + 1 } },
    { ser := n, slot := s, gen := h.g (R.AGT_MS_STAT_SWAPS.at s), key := key, ent := h.entityOf key, row := row, feats := fs.map fun f => f.1,
      missing := fs.map fun f => f.2.1, flags := b2n transient + 2 * b2n (transient || suspended) + 4 * b2n row.isNone, grade := grade,
      ns := ns, sp := sp, frameNo := frameNo, dcmd := dcmd, job := job, write := write, offer := offer, lane := none, done := false })

/-- The input frame of a sample. -/
def Sample.frame (x : Sample) : List Nat := inputFrame x.key x.row x.ns x.sp x.frameNo x.slot x.flags x.grade x.feats x.missing

/-- Add a stream-mode sample: it replaces one of the entity that still waits (R308). -/
def Hw.addStream (h : Hw) (x : Sample) : Hw :=
  let old (y : Sample) : Bool := y.slot == x.slot && y.key == x.key && y.job.isNone && y.lane.isNone && !y.done
  let h := if h.agt.samples.any old then ((h.inc R.AGT_COALESCED_COUNT).raise 0x20 20).choice 8 else h
  h.putSamples (h.agt.samples.filter (fun y => !old y) ++ [x])

/-- The input words that a model reads. -/
def AgtModel.reads (m : AgtModel) : List Nat :=
  ((List.range m.nfeat).filter fun f => bits (m.spec f) 0 2 % 3 == 0).map fun f => bits (m.spec f) 4 8

/-- What the words of a sample come from beside those that the entity's own grade counts: a grade each, and SUSPENDED (R19, R307). -/
def Boundary.inputs (b : Boundary) (used : List Nat) : List (Nat × Bool) :=
  let uses (ws : List Nat) : Bool := ws.any fun w => used.contains w
  ((b.ent.words.filter fun w => used.contains w.word).map fun w => (w.grade, w.suspended)) ++
    (match b.ent.lag with | some l => if uses [64, 65] then [(l.2.1, l.2.2)] else [] | none => []) ++
    (match b.drift with | some d => if uses [71, 72] then [(d.grade, d.suspended)] else [] | none => []) ++
    (if uses [66] then [(0, b.syncSus)] else []) ++ (if uses [73] then [(b.ent.failGrade, b.ent.failSus)] else [])

/-- A sample is TRANSIENT at its assembly tick (R307): this part is, the last sync record of the entity's full-set stream says so, or its home
has said so by a condition record. -/
def Hw.transientNow (h : Hw) (key : Nat) : Bool :=
  h.on R.TIM_STATUS_TRANSIENT || (h.rxStream (key * 2 ^ 13 + 1)).transient || h.agt.transientAt.contains (key / 128)

/-- Assemble the sample of one slot at a frame boundary. Its grade is the highest of the records since the previous sample and of every word
that it reads (R19, R306). -/
def Hw.assemble (h : Hw) (b : Boundary) (s : Nat) : Hw :=
  match (h.slotState s).active with
  | none => h
  | some m =>
    let ins := b.inputs m.reads
    let tr := h.transientNow b.ent.key
    let r := h.makeSample s b.ent.key (h.rowOf b.ent.key) m (h.streamWord b tr) none b.ns b.sp b.frameNo
      ((ins.map fun x => x.1).foldl max b.ent.grade) tr (ins.any fun x => x.2)
      (auditDigest "BOLDAL-AUDIT-CMD" (h.slotCmd s)) none none (h.on (R.AGT_MS_CTL_OFFER.at s))
    r.1.addStream r.2

/-- The engine works: RUNNING, or completing a drain; a page that has faulted assembles nothing (R90, R321). -/
def Hw.agtWorks (h : Hw) : Bool := h.state 0x20 == 2 || h.state 0x20 == 3 || h.state 0x20 == 6

/-- FRAME_BOUNDARY (R295, R296): the oldest boundary makes a sample for each matching slot. -/
def execFrameBoundary (s : State) : Result := s.go fun h =>
  if !h.agtWorks then h else
  match h.agt.bounds with
  | [] => h
  | b :: rest =>
    let h := { h with agt := { h.agt with bounds := rest } }
    h.each ((List.range h.slotCount).filter fun s => h.slotTakes s b.ent.key b.frameNo) fun h s => h.assemble b s

/-! ### Lanes (R309) -/

/-- Lanes of the profile (R284). -/
def Hw.laneCount (h : Hw) : Nat := h.prof.sel 2 16 64

/-- Samples in flight on a lane. -/
def Hw.onLane (h : Hw) (l : Nat) : Nat := (h.agt.samples.filter fun x => x.lane == some l && !x.done).length

/-- The lane that takes the next sample: in service, fewest samples in flight, the lowest. -/
def Hw.bestLane (h : Hw) : Option Nat :=
  let ls := (List.range h.laneCount).filter fun l => !h.agt.retired.contains l && h.onLane l < 512
  match ls with
  | [] => none
  | x :: r => some (r.foldl (fun b l => if h.onLane l < h.onLane b then l else b) x)

/-- SAMPLE_DISPATCH (R309): waiting samples are dealt in order of assembly. -/
def execSampleDispatch (s : State) : Result := s.go fun h =>
  if !h.agtWorks then h else
  match h.agt.samples.find? fun x => x.lane.isNone && !x.done, h.bestLane with
  | some x, some l => h.putSamples (h.agt.samples.map fun y => if y.ser = x.ser then { y with lane := some l } else y)
  | _, _ => h

/-! ### Results (R312–R316, R320) -/

/-- The 128-byte result of a sample (R320). -/
def agtResult (x : Sample) (m : AgtModel) (r : Scored) (gated offered : Bool) : List Nat :=
  le 4 x.key ++ [x.slot, m.nout] ++ le 2 r.missing ++
    [x.flags % 4 + 4 * b2n gated + 8 * b2n r.addMissing + 16 * bits x.flags 2 1 + 32 * b2n offered, x.grade] ++ List.replicate 6 0 ++
    (List.range 8).flatMap (fun o => le 8 (unsigned 64 (r.scores.getD o 0))) ++ (List.range 8).map (fun o => nth r.classes o) ++
    (auditDigest "BOLDAL-AUDIT-INPUT" x.frame).take 16 ++ List.replicate 24 0

/-- Offer a candidate to the VRD page (R314), noting the lane of the verdicts it gives (R540). -/
def Hw.offerCandidate (h : Hw) (x : Sample) (m : AgtModel) (r : Scored) (o : Nat) : Hw :=
  let t := h.vrd.nextTicket
  let h := (h.inc (R.AGT_MS_OFFERED_COUNT.at x.slot)).report
    { kind := outVkind (m.out o), cls := nth r.classes o, subject := x.ent, origin := x.slot + 16 * o, flags := x.flags % 4,
      grade := x.grade, score := unsigned 64 (r.scores.getD o 0), ns := x.ns, sp := x.sp, ref := x.frameNo,
      audit := x.dcmd ++ m.digest ++ auditDigest "BOLDAL-AUDIT-INPUT" x.frame, model := m.id, frame := x.frame,
      slot := some (8 * x.slot + o), advice := 0, stamp := { h.stampNodeAt x.ns with sp := x.sp } }
  let new := (List.range (h.vrd.nextTicket - t)).map (t + ·)
  match x.lane with
  | some l => { h with agt := { h.agt with byLane := new.map (fun k => (l, k)) ++ h.agt.byLane } }
  | none => h

/-- Samples of an EVAL that have not been released. -/
def Hw.jobOpen (h : Hw) (q i : Nat) : Bool :=
  h.agt.samples.any fun x => match x.job with | some j => j.1 == q && j.2.1 == i | none => false

/-- An EVAL whose results are all released and written takes effect (R320). -/
def Hw.evalSettle (h : Hw) (q i : Nat) : Hw :=
  match h.started q with
  | none => h
  | some r => if r.index = i ∧ !h.jobOpen q i ∧ !h.descBusy q then
      (h.onRun q i fun r => { r with extra := r.extra - 1 }).descDone q else h

/-- Release the result of a sample. -/
def Hw.releaseSample (h : Hw) (x : Sample) : Hw :=
  match h.modelOf x with
  | none => h.putSamples (h.agt.samples.filter fun y => y.ser != x.ser)
  | some m =>
    let r := m.score x.feats x.missing (bit x.flags 0)
    let gated := m.tgate == 2 && bit x.flags 0
    let cands := (List.range m.nout).filter (m.candidate r)
    let offers := x.offer && !gated && h.prof != .l
    let h := (h.inc R.AGT_SAMPLES_COUNT).add64 R.AGT_VISITS_LO_COUNT R.AGT_VISITS_HI_COUNT r.visits
    let h := h.s (R.AGT_MS_STAT_LAST_CLASS.at x.slot) (nth r.classes 0)
    let h := if gated then h.inc R.AGT_GATED_COUNT else h
    let h := if cands.isEmpty then h else h.raise 0x20 18
    let h := if offers then h.each cands fun h o => h.offerCandidate x m r o else h
    let h := h.putSamples (h.agt.samples.filter fun y => y.ser != x.ser)
    match x.job with
    | none => h
    | some (q, i, _) => match x.write with
      | some a => h.dmaWrite (h.qCtx q) a (agtResult x m r gated (offers && !cands.isEmpty)) (.payload q i)
      | none => h.evalSettle q i

/-- Release the results of a slot in order of assembly, as far as they are done (R314); `fuel` bounds the samples. -/
def Hw.releaseDone (h : Hw) (slot : Nat) : Nat → Hw
  | 0 => h
  | fuel + 1 =>
    match h.agt.samples.find? fun x => x.slot == slot with
    | some x => if x.done then (h.releaseSample x).releaseDone slot fuel else h
    | none => h

/-- SAMPLE_RESULT (R312, R314): the walks of sample `ser` are complete. -/
def execSampleResult (ser : Nat) (s : State) : Result := s.go fun h =>
  if !h.agtWorks then h else
  match h.agt.samples.find? fun x => x.ser == ser && x.lane.isSome && !x.done with
  | none => h
  | some x =>
    let h := h.putSamples (h.agt.samples.map fun y => if y.ser = ser then { y with done := true } else y)
    h.releaseDone x.slot h.agt.samples.length

/-- An abort of the page (R94, R321): samples are discarded, and nothing is offered from them. -/
def Hw.agtAbort (h : Hw) : Hw := Hw.putSamples { h with agt := { h.agt with bounds := [] } } []

/-- A drain has nothing left to complete (R321). -/
def Hw.agtIdle (h : Hw) : Bool := h.agt.samples.isEmpty && h.agt.bounds.isEmpty

/-- A lane fails its known-answer test (R540): it is retired, and its samples in flight are dealt again. -/
def Hw.retireLane (h : Hw) (l : Nat) : Hw :=
  let h := { h with agt := { h.agt with retired := l :: h.agt.retired.filter (· != l) } }
  h.putSamples (h.agt.samples.map fun x => if x.lane = some l ∧ !x.done then { x with lane := none } else x)

/-! ### Descriptors (R317–R320) -/

/-- The slot of a descriptor for a queue (R295, R318): the code it fails with. -/
def Hw.slotFault (h : Hw) (q s : Nat) : Option Nat :=
  if h.slotCount ≤ s then some E.badDescriptor
  else if h.g (R.AGT_MS_CTL_CTX.at s) ≠ h.qCtx q then some E.accessDenied else none

/-- A DMA read of the started descriptor. -/
def Hw.descRead (h : Hw) (q addr len : Nat) : Hw :=
  match h.started q with
  | some r => h.dmaRead (h.qCtx q) addr len (.payload q r.index)
  | none => h

/-- MLOAD (R292). -/
def Hw.descMload (h : Hw) (q : Nat) (d : DescWords) : Hw :=
  let s := dw d 0 16 4
  let n := dw d 2 0 32
  match h.slotFault q s with
  | some c => h.descFail q c
  | none =>
    if n = 0 ∨ n % 64 ≠ 0 ∨ nth d 1 % 64 ≠ 0 then h.descFail q E.badDescriptor
    else if h.on (R.AGT_MS_STAT_STANDBY_BUSY.at s) then h.descFail q E.badState
    else
      ((h.putSlotState { h.slotState s with standby := none }).s (R.AGT_MS_STAT_STANDBY_VALID.at s) 0).descRead q (nth d 1) n

/-- The size of the standby region of a slot (R291): the region that ACTIVE_REG does not name. -/
def Hw.standbySize (h : Hw) (s : Nat) : Nat :=
  if h.on (R.AGT_MS_STAT_ACTIVE_REG.at s) then h.g (R.AGT_MS_R0_SIZE_SIZE.at s) else h.g (R.AGT_MS_R1_SIZE_SIZE.at s)

/-- The image has been read (R290, R292). -/
def Hw.mloadArrived (h : Hw) (q : Nat) (d : DescWords) (bs : List Nat) : Hw :=
  let s := dw d 0 16 4
  let m : AgtModel := ⟨bs, auditDigest "BOLDAL-AUDIT-MODEL" bs⟩
  if h.standbySize s < m.nnode then h.descFail q E.badDescriptor
  else if !m.valid then (h.descFail q E.modelInvalid).raise 0x20 16
  else ((h.putSlotState { h.slotState s with standby := some m }).s (R.AGT_MS_STAT_STANDBY_VALID.at s) 1).descDone q

/-- ELOAD (R303, R318). -/
def Hw.descEload (h : Hw) (q : Nat) (d : DescWords) : Hw :=
  let first := dw d 2 0 18
  let n := dw d 2 32 19
  if n = 0 ∨ h.entityRows < first + n then h.descFail q E.badDescriptor else h.descRead q (nth d 1) (136 * n)

/-- The rows have been read: they are written as a whole. -/
def Hw.eloadArrived (h : Hw) (q : Nat) (d : DescWords) (bs : List Nat) : Hw :=
  let first := dw d 2 0 18
  let n := dw d 2 32 19
  let new := (List.range n).map fun i => (first + i, slice bs (136 * i) 136)
  Hw.descDone { h with agt := { h.agt with rows := new ++ h.agt.rows.filter fun x => x.1 < first || first + n ≤ x.1 } } q

/-- EVAL (R317, R318). -/
def Hw.descEval (h : Hw) (q : Nat) (d : DescWords) : Hw :=
  let s := dw d 0 16 4
  let n := dw d 2 0 16
  let dense := dw d 2 32 32
  match h.slotFault q s with
  | some c => h.descFail q c
  | none =>
    if n = 0 ∨ nth d 1 % 64 ≠ 0 ∨ nth d 3 % 64 ≠ 0 ∨ (dense ≠ 0xFFFFFFFF ∧ (h.opbAddr (h.qCtx q) dense (1024 * n)).isNone) then
      h.descFail q E.badDescriptor
    else if (h.slotState s).active.isNone then h.descFail q E.badState
    else h.descRead q (nth d 1) (576 * n)

/-- One queue-mode sample (R319). -/
def Hw.evalSample (h : Hw) (q idx : Nat) (d : DescWords) (m : AgtModel) (raw b : List Nat) (i : Nat) : Hw :=
  let s := dw d 0 16 4
  let k := fld b 0 4
  let byRow := bit k 31
  let row := if byRow then (if h.rowValid (k % 2 ^ 18) then some (k % 2 ^ 18) else none) else h.rowOf (k % 2 ^ 19)
  let fl := fld b 4 4
  let word (j : Nat) : Option (Bool × Nat) :=
    if bit (fld b 24 16) j then none else some (bit (fld b 40 16) j, fld b (64 + 4 * j) 4)
  let dense := if dw d 2 32 32 = 0xFFFFFFFF then none else
    (h.opbAddr (h.qCtx q) (dw d 2 32 32 + 1024 * i) 1024).map fun a => h.opbRead a 1024
  let r := h.makeSample s (if byRow then k else k % 2 ^ 19) row m word dense (fld b 8 8) (fld b 16 8) 0 (fl % 4) (bit fl 2) (bit fl 3)
    (auditDigest "BOLDAL-AUDIT-CMD" raw) (some (q, idx, i)) (if bit (nth d 0) 20 then some ((nth d 3 + 128 * i) % 2 ^ 64) else none)
    (bit (nth d 0) 21)
  r.1.putSamples (r.1.agt.samples ++ [r.2])

/-- The samples have been read. -/
def Hw.evalArrived (h : Hw) (q : Nat) (d : DescWords) (bs : List Nat) : Hw :=
  match h.started q, (h.slotState (dw d 0 16 4)).active with
  | some r, some m =>
    let h := if bit (nth d 0) 20 then h else h.onRun q r.index fun r => { r with extra := r.extra + 1 }
    h.each (List.range (dw d 2 0 16)) fun h i => h.evalSample q r.index d m r.raw (slice bs (576 * i) 576) i
  | _, _ => h.descFail q E.badState

/-- A result of an EVAL has been written: progress in DONE (R320). -/
def Hw.resultWritten (h : Hw) (q i : Nat) : Hw := (h.onRun q i fun r => { r with extra := r.extra + 1 }).evalSettle q i

/-- AGT_MLOAD (R292). -/
def execAgtMload (q : Nat) (s : State) : Result := s.go fun h =>
  h.withDesc q 3 0x30 [(0, 16, 4), (1, 0, 64), (2, 0, 32)] fun h d => h.descMload q d

/-- AGT_ELOAD (R303). -/
def execAgtEload (q : Nat) (s : State) : Result := s.go fun h =>
  h.withDesc q 3 0x31 [(1, 0, 64), (2, 0, 18), (2, 32, 19)] fun h d => h.descEload q d

/-- AGT_EVAL (R319): the samples of a started EVAL are evaluated once. -/
def execAgtEval (q : Nat) (s : State) : Result := s.go fun h =>
  match h.started q with
  | none => h
  | some r => if h.jobOpen q r.index then h else
    h.withDesc q 3 0x32 [(0, 16, 6), (1, 0, 64), (2, 0, 16), (2, 32, 32), (3, 0, 64)] fun h d => h.descEval q d

/-! ### Swaps (R293, R301) -/

/-- AGT_MODEL_SWAP (R293). -/
def Hw.modelSwap (h : Hw) : Tried :=
  let n := h.g R.AGT_MSEL_SLOT
  if h.on (R.AGT_MS_STAT_STANDBY_VALID.at n) then .ok (h.s (R.AGT_MS_STAT_SWAP_PENDING.at n) 1) else .error E.badState

/-- AGT_MODEL_SWAP (R293). -/
def execAgtModelSwap (a : Acc) (s : State) : Result := s.go fun h => h.operWrite a 0x20 0x0A4 Hw.modelSwap

/-- AGT_COL_SWAP (R301). -/
def Hw.colSwap (h : Hw) : Tried :=
  let bad := (List.range 128).any fun r => bit (h.g (R.AGT_COL_A_A.at r)) 21 && 6 ≤ bits (h.g (R.AGT_COL_A_A.at r)) 28 3
  if bad then .error E.badValue else .ok (h.s R.AGT_COL_STAT_COL_PENDING 1)

/-- AGT_COL_SWAP (R301). -/
def execAgtColSwap (a : Acc) (s : State) : Result := s.go fun h => h.operWrite a 0x20 0x06C Hw.colSwap

/-- A pending model swap of a slot takes effect. -/
def Hw.swapModel (h : Hw) (s : Nat) : Hw :=
  let x := h.slotState s
  match x.standby with
  | none => h
  | some m =>
    let h := h.putSlotState { x with active := some m, standby := none, former := x.active }
    let h := (h.s (R.AGT_MS_STAT_ACTIVE_REG.at s) (1 - h.g (R.AGT_MS_STAT_ACTIVE_REG.at s))).s (R.AGT_MS_STAT_ACTIVE_VALID.at s) 1
    let h := (h.s (R.AGT_MS_STAT_STANDBY_VALID.at s) 0).s (R.AGT_MS_STAT_STANDBY_BUSY.at s) 1
    let h := (h.s (R.AGT_MS_STAT_SWAP_PENDING.at s) 0).inc (R.AGT_MS_STAT_SWAPS.at s)
    let h := h.each (List.range 4) fun h i => h.s (R.AGT_MS_ID_ID.at (4 * s + i)) (fld m.id (4 * i) 4)
    (h.raise 0x20 17).putSamples h.agt.samples

/-- The pending collection rules take effect; a rule that changes reads its first value anew. -/
def Hw.swapRules (h : Hw) : Hw :=
  let rs := List.range 128
  let changed := rs.filter fun r => h.g (R.AGT_COL_A_A.at r) != h.g (R.AGT_COL_ACT_A_A.at r) ||
    h.g (R.AGT_COL_B_B.at r) != h.g (R.AGT_COL_ACT_B_B.at r)
  let h := h.each changed fun h r =>
    (h.s (R.AGT_COL_ACT_A_A.at r) (h.g (R.AGT_COL_A_A.at r))).s (R.AGT_COL_ACT_B_B.at r) (h.g (R.AGT_COL_B_B.at r))
  let ents := h.agt.ents.map fun (e : Entity) => { e with last := e.last.filter fun l => !changed.contains l.rule }
  let h := { h with agt := { h.agt with ents := ents } }
  ((h.s R.AGT_COL_STAT_COL_PENDING 0).inc R.AGT_COL_STAT_COL_SWAPS).raise 0x20 19

/-- AGT_SWAP_TAKE_EFFECT (R293, R301): at a tick at which no sample is being assembled. -/
def execAgtSwapTakeEffect (s : State) : Result := s.go fun h => if h.faulted 0x20 then h else
  let busy (h : Hw) (s : Nat) : Bool := h.agt.bounds.any fun b => h.slotTakes s b.ent.key b.frameNo
  let h := h.each ((List.range h.slotCount).filter fun s => h.on (R.AGT_MS_STAT_SWAP_PENDING.at s) && !busy h s) fun h s => h.swapModel s
  if h.on R.AGT_COL_STAT_COL_PENDING && h.agt.bounds.isEmpty then h.swapRules else h

end Sys2Proof.Machine
end

