-- ==== Sys2Proof/Machine/Ballots.lean ====
section
/-!
DEFINITION. Machine/Ballots.lean: ballots at the wardens and at the arbiter (R453–R456, R462, R464).
-/
namespace Sys2Proof.Machine

/-- This node is a warden of its blob (R451). -/
def Hw.isWarden (h : Hw) : Bool := h.wardenIds.contains h.nodeId

/-- The rest of a VOTE (R464) after the common 16 bytes: bytes 16–63. -/
def Hw.voteTail (h : Hw) (vote cls : Nat) (dInput : List Nat) : List Nat := le 2 h.nodeId ++ [vote, cls] ++ fit 16 dInput ++ List.replicate 28 0

/-- Sign a vote through the root of trust (R454); the record waits for the signature. `head` holds bytes 1–15 of the request. -/
def Hw.castVote (h : Hw) (head : List Nat) (vote cls : Nat) (dInput : List Nat) : Hw :=
  let p := [1] ++ fit 15 head ++ h.voteTail vote cls dInput
  let r := { h.mkRec 0x31 1 0x1002 h.ownGrade h.stampNode p with dest := some (fld p 2 2) }
  h.rotAsk 2 (cshake256 [] (ascii "BOLDAL-BALLOT") p 48) (.voteSign r)

/-- The signature of a vote has come: the record is handed over. -/
def Hw.voteSigned (h : Hw) (r : Rec) (sig : List Nat) : Hw :=
  h.handOver [{ r with payload := r.payload ++ fit 96 sig, stamp := h.stampNode }]

/-- The class and output of the verdict that a REQUEST names: those of the entry where this node is the arbiter; the layout of R464 carries
neither to any other warden, so they are free there (log entry 38). -/
def Hw.asked (h : Hw) (p : Nat → Nat → Nat) : (Nat × Nat) × Hw :=
  let e := h.vrd.entries.find? fun e => p 2 2 == h.nodeId && e.num == p 4 2 && e.serial == p 6 4
  match e with
  | some e => ((e.cls, bits e.origin 4 3), h)
  | none => let f := h.fresh; ((f.1 % 16, bits f.1 4 3), f.2)

/-- The active model with a D_MODEL. -/
def Hw.modelWith (h : Hw) (dmodel : List Nat) : Option AgtModel :=
  ((List.range h.slotCount).filterMap fun s => (h.slotState s).active).find? fun m => m.digest.take 16 == dmodel

/-- A warden's answer to an expulsion request (R453): the class it obtains against the verdict's. -/
def Hw.answerExpel (h : Hw) (b : List Nat) : Hw :=
  let frame := b.drop 56
  match h.running 0x44 && !frame.isEmpty, h.modelWith (slice b 40 16) with
  | true, some m =>
    let a := h.asked (fld b)
    let c := nth (m.scoreFrame frame).classes a.1.2
    a.2.castVote (slice b 1 15) (if a.1.1 ≤ c then 1 else 0) c (auditDigest "BOLDAL-AUDIT-INPUT" frame)
  | _, _ => h.castVote (slice b 1 15) 2 0 []

/-- A warden's answer to a LIFT request waits for its operator (R462); one whose page does not run abstains. -/
def Hw.askLift (h : Hw) (b : List Nat) : Hw :=
  if h.running 0x44 then
    Hw.raise { h with vrd := { h.vrd with lifts := h.vrd.lifts ++ [⟨fld b 4 2, slice b 1 15, fld b 16 8⟩] } } 0x44 21
  else h.castVote (slice b 1 15) 2 0 []

/-- BALLOT_REQUEST_RX (R453, R462): only a warden answers; a record whose sync record is missing is discarded (R12). -/
def execBallotRequestRx (s : State) : Result := s.go fun h =>
  match h.flw.held.find? fun x => h.arrived x && x.r.typ == 0x31 && nth x.r.payload 0 == 0 with
  | none => h
  | some x =>
    let d := h.deliver x
    if !d.2 || !x.r.known || !h.isWarden then d.1
    else if nth x.r.payload 1 = 0 then d.1.answerExpel x.r.payload else d.1.askLift x.r.payload

/-- A LIFT request that the operator answers, or that its deadline ends. -/
def Hw.answerLift (h : Hw) (l : LiftAsk) (vote : Nat) : Hw :=
  Hw.castVote { h with vrd := { h.vrd with lifts := h.vrd.lifts.filter fun x => x != l } } l.head vote 0 []

/-- A warden's vote by its operator (R462); with no request for that entry open it is refused with BAD_STATE (log entry 39). -/
def Hw.liftVote (h : Hw) (n vote : Nat) : Tried :=
  match h.vrd.lifts.find? fun l => l.entry == n with
  | some l => if h.ns < l.deadline then .ok (h.answerLift l vote) else .error E.badState
  | none => .error E.badState

/-- VRD_VOTE_YES (R462). -/
def execVrdVoteYes (a : Acc) (n : Nat) (s : State) : Result := s.go fun h => h.operWrite a 0x44 0x090 fun h => h.liftVote n 1

/-- VRD_VOTE_NO (R462). -/
def execVrdVoteNo (a : Acc) (n : Nat) (s : State) : Result := s.go fun h => h.operWrite a 0x44 0x090 fun h => h.liftVote n 0

/-- The entry whose ballot a vote answers. -/
def Hw.ballotOf (h : Hw) (p : List Nat) : Option VEntry :=
  h.vrd.entries.find? fun e => e.state == 2 && fld p 2 2 == h.nodeId && e.num == fld p 4 2 && e.serial == fld p 6 4

/-- A vote that is discarded (R454). -/
def Hw.voteFailed (h : Hw) : Hw := ((h.err 0x44 E.authFail).inc R.VRD_AUTH_FAIL_COUNT).raise 0x44 23

/-- A vote that counts so far: its warden is in the set and has not voted yet. -/
def Hw.voteOpen (h : Hw) (e : VEntry) (p : List Nat) : Option (List Nat) :=
  match h.sec.wardens.find? fun w => w.1 == fld p 16 2 with
  | some w => if e.votes.any fun v => v.node == w.1 then none else some w.2
  | none => none

/-- BALLOT_VOTE_RX (R454): the signature goes to the root of trust. A vote for no open ballot is dropped (log entry 39), and
one whose sync record is missing (R12). -/
def execBallotVoteRx (s : State) : Result := s.go fun h =>
  match h.flw.held.find? fun x => h.arrived x && x.r.typ == 0x31 && nth x.r.payload 0 == 1 with
  | none => h
  | some x =>
    let d := h.deliver x
    let h := d.1
    let p := x.r.payload
    if !d.2 || !x.r.known || !h.works 0x44 then h else
    match h.ballotOf p with
    | none => h
    | some e =>
      match h.voteOpen e p with
      | some k => h.rotAsk 3 (cshake256 [] (ascii "BOLDAL-BALLOT") (p.take 64) 48 ++ k ++ slice p 64 96) (.voteVerify x.r)
      | none => h.voteFailed

/-- The root of trust has checked a vote (R454, R455): the count follows at once. -/
def Hw.voteAnswer (h : Hw) (r : Rec) (ok : Bool) : Hw :=
  if !h.works 0x44 then h else
  match h.ballotOf r.payload with
  | none => h
  | some e =>
    match ok, h.voteOpen e r.payload with
    | true, some _ => h.countVotes { e with votes := insertVote ⟨fld r.payload 16 2, min 2 (nth r.payload 18), r.payload.take 160⟩ e.votes }
    | _, _ => h.voteFailed

/-- BALLOT_TIMEOUT (R455, R462): BALLOT_MS after the request of entry `n`; a warden whose operator has not answered abstains. -/
def execBallotTimeout (n : Nat) (s : State) : Result := s.go fun h =>
  let h := match h.vEntry n with
    | some e => if h.works 0x44 ∧ e.state = 2 ∧ e.ballotFrc + h.g R.VRD_CFG_BALLOT_MS * 1000000 ≤ h.frc then h.refuseEntry e else h
    | none => h
  h.each (h.vrd.lifts.filter fun l => l.entry == n && l.deadline ≤ h.ns) fun h l => h.answerLift l 2

end Sys2Proof.Machine
end

