-- ==== Sys2Proof/Machine/Policer.lean ====
section
/-!
DEFINITION. Machine/Policer.lean: the two-rate three-colour markers of the fabric ports (R388, R389) and the bytes of a frame on its
link (R51, R382, R523, R524).
-/
namespace Sys2Proof.Machine

/-- Counted bytes of a frame whose link frame has `n` bytes (R382): its fabric stream, or its culvert words with the tag and the trailer. -/
def linkBytes (p n : Nat) : Nat := if isCulvert p then roundUp n 8 + 16 + 8 else n + fabricCover

/-- The bank of a marker's registers. -/
def polBank (p c : Nat) : Nat := 8 * fabIndex p + c

/-- The marker of a port and class, its buckets refilled at CIR and PIR up to CBS and PBS. -/
def Hw.marker (h : Hw) (p c : Nat) : Marker :=
  let b := polBank p c
  let full : Marker := ⟨p, c, h.g (R.POL_CBS_BYTES.at b) * 8000, h.g (R.POL_PBS_BYTES.at b) * 8000, h.frc⟩
  match h.pol.markers.find? fun m => m.port == p && m.cls == c with
  | none => full
  | some m =>
    let d := h.frc - m.frc
    { m with tc := min full.tc (m.tc + d * h.g (R.POL_CIR_MBPS.at b)), tp := min full.tp (m.tp + d * h.g (R.POL_PIR_MBPS.at b)),
             frc := h.frc }

/-- Store a marker. -/
def Hw.putMarker (h : Hw) (m : Marker) : Hw :=
  { h with pol := { h.pol with markers := m :: h.pol.markers.filter fun x => !(x.port == m.port && x.cls == m.cls) } }

/-- A write to a rate or bucket field sets both token counts to full (R393). -/
def Hw.fillMarker (h : Hw) (p c : Nat) : Hw :=
  { h with pol := { h.pol with markers := h.pol.markers.filter fun x => !(x.port == p && x.cls == c) } }

/-- The colour of a received DATA frame of `n` link bytes (R388): 0 green, 1 yellow, 2 red; `dei` is the DEI bit of a tag ahead of the
EtherType. -/
def Hw.police (h : Hw) (p c n : Nat) (dei : Bool) : Nat × Hw :=
  let b := polBank p c
  if isCulvert p ∨ c < 3 ∨ !h.running 0x35 ∨ !h.on (R.POL_CTL_EN.at b) then (0, h) else
  let m := h.marker p c
  let need := linkBytes p n * 8000
  if m.tp < need then (2, (h.putMarker m).inc (R.POL_RED_COUNT.at b))
  else if m.tc < need ∨ (dei && h.on (R.POL_CTL_AWARE.at b)) then
    (1, (h.putMarker { m with tp := m.tp - need }).inc (R.POL_YELLOW_COUNT.at b))
  else (0, (h.putMarker { m with tp := m.tp - need, tc := m.tc - need }).inc (R.POL_GREEN_COUNT.at b))

end Sys2Proof.Machine
end

