-- ==== Sys2Proof/Machine/Reduction.lean ====
section
/-!
DEFINITION. Machine/Reduction.lean: reduction groups (R346–R350): what a node combines, when it forwards, what the root makes of a
round; the lag reduction (R168); the loading and flooding of group definitions (R325, R349).
-/
namespace Sys2Proof.Machine

/-! ### The tree of a group (R346) -/

/-- The node before `me` on the path of node `n` toward the root, where `me` lies on that path. -/
def childOn (es : List Edge) (t : Dists) (root me len n : Nat) : Option Nat :=
  let path := n :: pathTo es t root len n
  match path.idxOf? me with
  | some (i + 1) => path[i]?
  | _ => none

/-- The children of this node in the tree of a group that have members beneath them. -/
def Hw.redChildren (h : Hw) (g : Group) : List Nat :=
  let es := edgesOf h.fab.lsdb
  let len := h.fab.lsdb.length
  let t := distsTo es g.root len
  let nodes := ((g.members.map fun s => s / 2 ^ 20).filter fun n => n != h.nodeId).eraseDups
  (nodes.filterMap fun n => childOn es t g.root h.nodeId len n).eraseDups

/-- This node's own members. -/
def Hw.redMembers (h : Hw) (g : Group) : List Nat := g.members.filter fun s => s / 2 ^ 20 == h.nodeId

/-- The inputs that a round waits for: own members, and 2^32 + node for a child. -/
def Hw.redExpected (h : Hw) (g : Group) : List Nat := h.redMembers g ++ (h.redChildren g).map (2 ^ 32 + ·)

/-- This node's parent in the tree of a group: the root itself where no route is known. -/
def Hw.redParent (h : Hw) (g : Group) : Nat := match h.route g.root with | some r => r.next | none => g.root

/-! ### Inputs and their combination (R347) -/

/-- One input of a round. -/
structure RedIn where
  who : Nat
  contrib : Nat
  minIdx : Nat
  elems : List Int
  triples : List (Nat × Nat × Nat × Nat × Nat)
  elemCount : Nat
  nonfin : Nat
  rflags : Nat
  grade : Nat
  evt : Nat
  suspended : Bool
  samples : List (Nat × Nat × Nat × Nat)
deriving DecidableEq, Repr

/-- The operation in force in a phase: a LAG group finds a maximum, then sums histograms. -/
def Group.opIn (g : Group) (phase : Nat) : Nat := if g.op = 4 then 1 + phase else g.op

/-- Elements of two inputs combined one by one, a missing one taken as it is: the elements, and whether one was clamped. -/
def zipElems (f : Int → Int → Int × Bool) : List Int → List Int → List Int × Bool
  | [], b => (b, false)
  | a, [] => (a, false)
  | x :: a, y :: b =>
    let r := f x y
    let t := zipElems f a b
    (r.1 :: t.1, r.2 || t.2)

/-- The elements of two inputs (R347): sat96 addition, maximum, or addition of bins. -/
def combineElems (op : Nat) (a b : List Int) : List Int × Bool :=
  match op with
  | 0 => zipElems (fun x y => sat96 (x + y)) a b
  | 1 => zipElems (fun x y => (max x y, false)) a b
  | _ => zipElems (fun x y => (x + y, false)) a b

/-- Insert a triple by ascending canonical index, those of one source in SEQ order (R278, R349). One whose SEQ a round has taken is a duplicate;
partials, whose SEQ stands as 2^32, are none. -/
def insertTriple (x : Nat × Nat × Nat × Nat × Nat) : List (Nat × Nat × Nat × Nat × Nat) → List (Nat × Nat × Nat × Nat × Nat)
  | [] => [x]
  | y :: t =>
    if x.1 = y.1 ∧ x.2.1 = y.2.1 ∧ x.2.1 < 2 ^ 32 then y :: t
    else if x.1 < y.1 ∨ (x.1 = y.1 ∧ x.2.1 < 2 ^ 32 ∧ ahead32 y.2.1 x.2.1 = true) then x :: y :: t
    else y :: insertTriple x t

/-- The triples of each source, its own combined left to right in SEQ order from the first (R278, R349); `done` are the sources before, the latest
in front. -/
def bySourceFrom (done : List (Nat × Triple)) : List (Nat × Nat × Nat × Nat × Nat) → List (Nat × Triple)
  | [] => done.reverse
  | x :: t =>
    let v : Triple := ⟨x.2.2.1, x.2.2.2.1, x.2.2.2.2⟩
    match done with
    | [] => bySourceFrom [(x.1, v)] t
    | y :: r => bySourceFrom (if x.1 = y.1 then (x.1, y.2.combine v) :: r else (x.1, v) :: y :: r) t

/-- The triples of each source, its own combined. -/
def bySource (l : List (Nat × Nat × Nat × Nat × Nat)) : List (Nat × Triple) := bySourceFrom [] l

/-- The triples of a list folded one by one in ascending index (R278, R279). -/
def foldTriples (l : List (Nat × Nat × Nat × Nat × Nat)) : Triple := (bySource l).foldl (fun a x => a.combine x.2) ⟨0, 0, 0⟩

/-- A round that holds nothing yet. -/
def Round.blank (g key phase frc : Nat) : Round :=
  { group := g, key := key, phase := phase, firstFrc := frc, sent := false, contrib := 0, minIdx := 2 ^ 32 - 1, elems := [], triples := [],
    elemCount := 0, nonfin := 0, rflags := 0, grade := 0, evt := 0, inputs := [], suspended := false, clamped := false, samples := [],
    marked := false, fell := [] }

/-- An input joins a round. -/
def Round.take (r : Round) (g : Group) (i : RedIn) : Round :=
  let e := combineElems (g.opIn r.phase) r.elems i.elems
  { r with contrib := r.contrib + i.contrib, minIdx := min r.minIdx i.minIdx, elems := e.1,
           triples := i.triples.foldl (fun l x => insertTriple x l) r.triples, elemCount := r.elemCount + i.elemCount,
           nonfin := r.nonfin + i.nonfin, rflags := (r.rflags ||| (i.rflags % 64)) ||| b2n e.2, grade := max r.grade i.grade,
           evt := max r.evt i.evt, inputs := if r.inputs.contains i.who then r.inputs else r.inputs ++ [i.who],
           suspended := r.suspended || i.suspended, clamped := r.clamped || e.2, samples := r.samples ++ i.samples }

/-! ### REDUCED records (R350) -/

/-- The bytes of a histogram (R168): 64 bins, SUM, COUNT, NOT_TRACKING, GRADE (log entry 40). -/
def histBytes (l : List Int) (grade : Nat) : List Nat :=
  ((List.range 64).flatMap fun i => le 4 (unsigned 32 (l.getD i 0))) ++ le 12 (unsigned 96 (l.getD 64 0)) ++ le 4 (unsigned 32 (l.getD 65 0)) ++
    le 4 (unsigned 32 (l.getD 66 0)) ++ [grade, 0, 0, 0]

/-- The elements of a round as byte strings, and the index of the first (a LAG histogram is element 1, log entry 40). In replay mode a partial
carries every source's triple; the root folds them (R279). -/
def Round.elemBytes (r : Round) (g : Group) (root : Bool) : List (List Nat) :=
  match g.opIn r.phase with
  | 0 => r.elems.map fun v => le 12 (unsigned 96 v)
  | 1 => (r.elems.take 1).map fun v => le 8 (unsigned 64 v)
  | 2 => [histBytes r.elems r.grade]
  | _ =>
    if g.mode = 1 && !root then (bySource r.triples).map fun x => le 4 x.1 ++ le 4 0 ++ le 8 x.2.n ++ le 8 x.2.mean ++ le 8 x.2.m2
    else let t := foldTriples r.triples; [le 8 t.n ++ le 8 t.mean ++ le 8 t.m2]

/-- Elements that one record holds. -/
def Group.perRecord (g : Group) (phase : Nat) : Nat := match g.opIn phase with | 0 => 336 | 3 => 126 | _ => 1

/-- The 48 bytes before the elements of a record. -/
def Round.head (r : Round) (g : Group) (rflags count first : Nat) : List Nat :=
  le 2 g.num ++ [g.op, rflags] ++ le 8 r.key ++ le 4 r.contrib ++ le 4 r.minIdx ++ le 2 count ++ le 2 first ++
    (if g.op = 0 then le 8 r.elemCount ++ le 4 r.nonfin ++ le 2 (2 ^ g.kLog) else List.replicate 14 0) ++ le 2 (unsigned 16 g.eRef) ++ le 8 g.seed

/-- The REDUCED records of a round (R350): `dest` is the parent or child, none for a root's result. -/
def Hw.redRecords (h : Hw) (g : Group) (r : Round) (late : Bool) (dest : Option Nat) : List Rec :=
  let es := r.elemBytes g dest.isNone
  let n := g.perRecord r.phase
  let parts := max 1 (ceilDiv es.length n)
  let base := if g.op = 4 then r.phase else 0
  let st := if r.evt = 0 then h.stampNode else { h.stampNodeAt (r.evt / 65536) with nt := r.evt }
  contFlags ((List.range parts).map fun i =>
    let c := (es.drop (n * i)).take n
    let fl := r.rflags % 64 + 64 * b2n late + 128 * b2n (i + 1 == parts)
    { h.mkRec 0x28 4 0x1001 (r.grade + 32 * b2n r.suspended) st (r.head g fl c.length (base + n * i) ++ c.flatten) with dest := dest })

/-! ### Rounds -/

def Hw.redRound (h : Hw) (g key phase : Nat) : Option Round :=
  h.red.rounds.find? fun r => r.group == g && r.key == key && r.phase == phase

/-- Store a round; of the closed ones of a group the eight latest are kept, so that a late input is known as such (log entry 41). -/
def Hw.putRound (h : Hw) (r : Round) : Hw :=
  let same (x : Round) : Bool := x.group == r.group && x.key == r.key && x.phase == r.phase
  let rest := h.red.rounds.filter fun x => !same x
  let old := (rest.filter fun x => x.group == r.group && x.sent).drop 15
  { h with red := { h.red with rounds := r :: rest.filter fun x => !old.contains x } }

/-- Mark a round that R348 makes INCOMPLETE; it is counted once. -/
def Hw.markRound (h : Hw) (r : Round) : Hw :=
  let h := if r.marked then h else (h.inc (R.RED_TREE_CHG_COUNT.at r.group)).choice 10
  h.putRound { r with marked := true, rflags := r.rflags ||| 2 }

/-- The round as it stands before a partial of it goes on: marked where a child's link fell while it was open (R348). -/
def Hw.markFell (h : Hw) (g : Group) (r : Round) : Round × Hw :=
  if !r.marked && r.fell.any (h.redChildren g).contains then
    let r' := { r with marked := true, rflags := r.rflags ||| 2 }
    (r', h.markRound r)
  else (r, h)

/-- Forward the partial of a round to the parent (R346). -/
def Hw.forward (h : Hw) (g : Group) (r : Round) (late : Bool) : Hw :=
  let h := h.inc (R.RED_ROUNDS_COUNT.at g.num)
  let h := if late then h.inc (R.RED_LATE_COUNT.at g.num) else h
  h.handOver (h.redRecords g r late (some (h.redParent g)))

/-- The lag of a position behind the lead, unsigned over 64 bits (R168). -/
def lagOf (lead sp : Nat) : Nat := (lead + 2 ^ 64 - sp % 2 ^ 64) % 2 ^ 64

/-- The bin of a lag (R168). -/
def lagBin (shift lag : Nat) : Nat := min 63 (lag / 2 ^ shift)

/-- The tracker was TRACKING, LATE or not, at the capture (R151, R168, R202). -/
def tracking (st : Nat) : Bool := st % 8 == 3

/-- The histogram of this node's samples against the lead (R168). -/
def histOf (shift lead : Nat) (l : List (Nat × Nat × Nat × Nat)) : List Int :=
  let on := (l.filter fun x => tracking x.2.2.1).map fun x => lagOf lead x.2.1
  ((List.range 64).map fun b => (((on.filter fun v => lagBin shift v == b).length : Nat) : Int)) ++
    [((total on : Nat) : Int), ((on.length : Nat) : Int), (((l.length - on.length) : Nat) : Int)]

/-- The entities of a sample (R147, R168, R302): the leaf of a leaf's; the proxy leaves bound to the tracker of a Boldal T, whose number stands behind
bit 24. -/
def Hw.lagEntities (h : Hw) (k : Nat) : List Nat :=
  if k < 2 ^ 24 then [k] else
  ((List.range 128).filter fun p => h.on (R.PRX_DIE_EN.at p) && h.g (R.PRX_DIE_TRACKER.at p) == k % 128).map fun p => h.nodeId * 128 + p

/-- The lags of this node's samples enter the entities' features and the stragglers' weights (R168, R302, R445); a lag has the higher grade of its
sample and of the lead (R19). -/
def Hw.noteLags (h : Hw) (lead : Option Nat) (grade : Nat) (l : List (Nat × Nat × Nat × Nat)) (sus : Bool) : Hw :=
  h.each (l.flatMap fun x => (h.lagEntities x.1).map fun k => (k, x.2)) fun h x =>
    let v := match lead with | some m => if tracking x.2.2.1 then some (lagOf m x.2.1) else none | none => none
    let h := h.putEntity { h.entity x.1 with lag := some (v, if v.isSome then max grade x.2.2.2 else x.2.2.2, sus) }
    let rest := h.vrd.lags.filter fun y => y.1 != x.1
    match v with
    | some y => { h with vrd := { h.vrd with lags := (x.1, y, x.2.1 / 65536) :: rest } }
    | none => { h with vrd := { h.vrd with lags := rest } }

/-- The root's result of a round (R348, R350): a check's sum joins the check (R257), any other is emitted. -/
def Hw.rootResult (h : Hw) (g : Group) (r : Round) : Hw :=
  let full := r.contrib == g.members.length && !bit r.rflags 1
  let h := if full then h else h.markRound r
  let r := if full then r else { r with rflags := r.rflags ||| 2, marked := true }
  let h := h.inc (R.RED_ROUNDS_COUNT.at g.num)
  let h := if full then h else (h.inc (R.RED_INCOMPLETE_COUNT.at g.num)).raise 0x24 16
  let base := h.checkGroup 0
  let r' := { r with sent := true }
  if base ≤ g.num then
    let h := h.checkJoin (g.num - base) r.key ⟨2 ^ 32, r.contrib, 2 ^ g.kLog, g.eRef, g.seed, r.elemCount, r.nonfin, r.rflags % 64, r.elems, [],
      0, r.grade, r.suspended⟩
    (h.putRound r').satSettle
  else ((h.handOver (h.redRecords g r false none)).putRound r').satSettle

mutual

/-- A round has all its inputs, or its time has come: the partial goes on, or the root closes it. `fuel` bounds the passage from the
maximum of a LAG group to its histograms. -/
def Hw.finishRound (h : Hw) (g : Group) (r : Round) : Nat → Hw
  | 0 => h
  | fuel + 1 =>
    let m := if h.isRoot g then (r, h) else h.markFell g r
    let r := m.1
    let h := m.2
    if g.op = 4 ∧ r.phase = 0 then
      let h := h.putRound { r with sent := true }
      if h.isRoot g then h.leadKnown g { r with sent := true } (match r.elems with | v :: _ => some v.toNat | [] => none) r.grade fuel
      else h.forward g r false
    else if h.isRoot g then h.rootResult g r
    else ((h.forward g r false).putRound { r with sent := true }).satSettle

/-- The lead of a capture is known here (R168): it goes down the tree, and this node's samples are binned. What comes of a lag has the grade of the
lead too (R19). -/
def Hw.leadKnown (h : Hw) (g : Group) (r : Round) (lead : Option Nat) (grade : Nat) (fuel : Nat) : Hw :=
  match fuel with
  | 0 => h
  | fuel + 1 =>
    let h := h.putRound r
    let down := { r with elems := match lead with | some l => [(l : Int)] | none => [], grade := max r.grade grade }
    let h := h.each (h.redChildren g) fun h c => h.handOver (h.redRecords g down false (some c))
    let h := h.noteLags lead grade r.samples r.suspended
    let own := r.inputs.filter fun w => w < 2 ^ 32
    h.joinRound g r.key 1
      { who := 2 ^ 40, contrib := own.length, minIdx := r.minIdx, elems := histOf (h.g R.STP_LAG_CFG_LAG_SHIFT) (lead.getD 0) r.samples,
        triples := [], elemCount := 0, nonfin := 0, rflags := r.rflags,
        grade := ((r.samples.filter fun x => tracking x.2.2.1).map fun x => max grade x.2.2.2).foldl max 0, evt := r.evt,
        suspended := r.suspended, samples := [] } fuel

/-- An input reaches its round (R346): after the partial has gone on, it is forwarded as a further one with LATE; the root takes none for
a closed round, and a check counts it late (R257, R281). The root closes a round once every member has contributed (R279, R348), any other node
forwards once every expected input has come. -/
def Hw.joinRound (h : Hw) (g : Group) (key phase : Nat) (i : RedIn) (fuel : Nat) : Hw :=
  match fuel with
  | 0 => h
  | fuel + 1 =>
    let r := (h.redRound g.num key phase).getD (Round.blank g.num key phase h.frc)
    if r.sent then
      if !h.isRoot g then
        let late := (Round.blank g.num key phase h.frc).take g i
        h.forward g (if r.marked then { late with rflags := late.rflags ||| 2 } else late) true
      else if h.checkGroup 0 ≤ g.num then (h.inc (R.CHK_LATE_COUNT.at (g.num - h.checkGroup 0))).choice 8 else h
    else if i.who < 2 ^ 32 ∧ r.inputs.contains i.who ∧ g.op ≠ 3 then h
    else
      let i := if i.who < 2 ^ 32 ∧ r.inputs.contains i.who then { i with contrib := 0 } else i
      let r := r.take g i
      let h := h.putRound r
      let h := if r.clamped then h.breach 4 5 0 else h
      let want := if phase = 1 then 2 ^ 40 :: (h.redChildren g).map (2 ^ 32 + ·) else h.redExpected g
      let full := if h.isRoot g then decide (g.members.length ≤ r.contrib) else want.all fun w => r.inputs.contains w
      if full then h.finishRound g r fuel else h

end

/-! ### What reaches a node -/

/-- The round key of a sketch in a group (R349): KEYMODE 2 is known where the check entry is (log entry 42). A sketch whose sync record is missing is
discarded (R12, R193). -/
def Hw.sketchKey (h : Hw) (g : Group) (x : RedPart) : Option Nat :=
  if !x.known then none else
  match g.keyMode with
  | 1 => some (fld x.head 14 2)
  | 0 => if x.stamp.sp = noPosition then none else some (x.stamp.sp / 65536)
  | _ => match h.checkEntry (g.num - h.checkGroup 0) with
    | some e => e.defn.key x.stamp x.known (fld x.head 14 2)
    | none => none

/-- Put a part to what has come of it: the whole, or none while pieces are missing. `first` and `new` are the record's elements, `last` its
LAST flag. -/
def Hw.joinPart (h : Hw) (r : Rec) (first : Nat) (new : List Int) (last : Bool) : Option RedPart × Hw :=
  let old : RedPart := if first = 0 then ⟨r.source, r.payload, [], r.stamp, 0, r.known, false⟩ else
    (h.red.parts.find? fun x => x.source == r.source).getD ⟨r.source, [], [], r.stamp, 0, false, false⟩
  let rest := h.red.parts.filter fun x => x.source != r.source
  let x := { old with acc := old.acc ++ new, grade := max old.grade (r.flags % 4), suspended := old.suspended || bit r.flags 5 }
  if old.acc.length ≠ first ∨ old.head.isEmpty then (none, { h with red := { h.red with parts := rest } })
  else if !last then (none, { h with red := { h.red with parts := x :: rest } })
  else (some x, { h with red := { h.red with parts := rest } })

/-- The groups of this node that a member's stream belongs to. -/
def Hw.groupsOf (h : Hw) (source : Nat) : List Group := h.red.groups.filter fun g => g.members.contains source

/-- The canonical index of a member. -/
def Group.index (g : Group) (source : Nat) : Nat := (g.members.idxOf? source).getD 0

/-- The parameters of a sketch are the group's: K, E_REF, SEED (R226, R347). -/
def Group.fits (g : Group) (k : Nat) (e : Int) (seed : Nat) : Bool := k == 2 ^ g.kLog && e == g.eRef && seed == g.seed

/-- A contribution whose parameters are not the group's cannot be summed: it goes to the root on its own, with its parameters, and a check
finds it there (R263, order 1; log entry 118). -/
def Hw.misfit (h : Hw) (g : Group) (key : Nat) (i : RedIn) (k : Nat) (e : Int) (seed : Nat) : Hw :=
  let base := h.checkGroup 0
  if !h.isRoot g then
    let g' := { g with kLog := Nat.log2 k, eRef := e, seed := seed }
    h.handOver (h.redRecords g' ((Round.blank g.num key 0 h.frc).take g' i) false (some (h.redParent g)))
  else if base ≤ g.num then
    h.checkJoin (g.num - base) key ⟨nth g.members i.minIdx, 1, k, e, seed, i.elemCount, i.nonfin, i.rflags, i.elems, [], 0, i.grade, i.suspended⟩
  else h

/-- A sketch of a member is whole: it joins its SUM96 groups (R226, R347). -/
def Hw.sketchWhole (h : Hw) (x : RedPart) (aflags : Nat) : Hw :=
  h.each ((h.groupsOf x.source).filter fun g => g.op == 0) fun h g =>
    let k := fld x.head 4 2
    let e := signed 16 (fld x.head 10 2)
    let i : RedIn := { who := x.source, contrib := 1, minIdx := g.index x.source, elems := x.acc, triples := [], elemCount := fld x.head 24 8,
                       nonfin := fld x.head 36 4, rflags := aflags % 64, grade := x.grade, evt := x.stamp.nt, suspended := x.suspended,
                       samples := [] }
    match h.sketchKey g x with
    | some key =>
      if x.acc.length ≠ k then h
      else if g.fits k e (fld x.head 16 8) then h.joinRound g key 0 i 4 else h.misfit g key i k e (fld x.head 16 8)
    | none => h

/-- The samples of a LAG record (R202): entity key, or 2^24 and the tracker of this node; step position, tracker state, grade. -/
def lagSamples (r : Rec) : List (Nat × Nat × Nat × Nat) :=
  (List.range (nth r.payload 1)).map fun i =>
    let e := slice r.payload (24 + 12 * i) 12
    ((if bit r.source 12 then 2 ^ 24 + nth e 8 % 128 else r.source / 2 ^ 13), fld e 0 8, nth e 9 % 8, nth e 10 % 4)

/-- The key of a record that is no sketch: none where its sync record is missing (R12, R193). -/
def recKey (g : Group) (r : Rec) : Option Nat :=
  if !r.known then none
  else if g.keyMode = 2 then (if r.typ = 0x05 then some (fld r.payload 4 4) else none)
  else if g.keyMode = 0 then (if r.stamp.sp = noPosition then none else some (r.stamp.sp / 65536))
  else none

/-- What a member's record brings to a group of its operation (R347, R349): a MOMENT group the value at OFFSET, a LAG or MAX64 group the greatest
position, a HIST group the histogram against a lead that no rule gives it and that is free (log entry 169). -/
def Hw.memberElems (h : Hw) (g : Group) (s : List (Nat × Nat × Nat × Nat)) : List Int × Hw :=
  match g.op with
  | 2 => let c := h.fresh; (histOf (h.g R.STP_LAG_CFG_LAG_SHIFT) c.1 s, c.2)
  | 3 => ([], h)
  | _ => (match (s.filter fun x => tracking x.2.2.1).map fun x => ((x.2.1 : Nat) : Int) with | [] => [] | v :: t => [t.foldl max v], h)

/-- A member's record of another type joins the groups that it feeds (R347, R349). -/
def Hw.memberRec (h : Hw) (r : Rec) : Hw :=
  h.each ((h.groupsOf r.source).filter fun g => g.op != 0 && g.fedBy r.typ) fun h g =>
    match recKey g r with
    | none => h
    | some key =>
      let s := if r.typ = 0x05 then lagSamples r else []
      let e := h.memberElems g s
      let tr := if g.op = 3 then [(g.index r.source, r.seq, 1, fp32F.conv fp64F (fld r.payload g.offset 4), 0)] else []
      e.2.joinRound g key 0 { who := r.source, contrib := 1, minIdx := g.index r.source, elems := e.1, triples := tr, elemCount := 0, nonfin := 0,
                              rflags := 0, grade := r.flags % 4, evt := r.stamp.nt, suspended := bit r.flags 5,
                              samples := if g.op = 4 then s else [] } 4

/-- A member contribution of this home (R346). -/
def Hw.memberArrived (h : Hw) (r : Rec) : Hw :=
  if r.typ = 0x20 then
    let p := r.payload
    let new := (List.range (fld p 8 2)).map fun i => signed 96 (fld p (48 + 12 * i) 12)
    let x := h.joinPart r (fld p 6 2) new (bit (nth p 12) 7)
    match x.1 with
    | some y => x.2.sketchWhole y (nth p 12)
    | none => x.2
  else h.memberRec r

/-- The elements of a REDUCED record as numbers (R350). -/
def redElems (op : Nat) (p : List Nat) : List Int :=
  match op with
  | 0 => (List.range (fld p 20 2)).map fun i => signed 96 (fld p (48 + 12 * i) 12)
  | 1 => if fld p 20 2 = 0 then [] else [((fld p 48 8 : Nat) : Int)]
  | 2 => ((List.range 64).map fun i => ((fld p (48 + 4 * i) 4 : Nat) : Int)) ++ [((fld p 304 12 : Nat) : Int), ((fld p 316 4 : Nat) : Int),
      ((fld p 320 4 : Nat) : Int)]
  | _ => []

/-- The triples of a REDUCED record: one with MIN_IDX, or one per source in replay mode. -/
def redTriples (g : Group) (p : List Nat) : List (Nat × Nat × Nat × Nat × Nat) :=
  if g.op ≠ 3 then []
  else if g.mode = 1 then (List.range (fld p 20 2)).map fun i =>
    (fld p (48 + 32 * i) 4, 2 ^ 32, fld p (56 + 32 * i) 8, fld p (64 + 32 * i) 8, fld p (72 + 32 * i) 8)
  else [(fld p 16 4, 2 ^ 32, fld p 48 8, fld p 56 8, fld p 64 8)]

/-- A partial of another node reaches this one (R346, R347, R350). A LAG position from the parent is the lead. -/
def Hw.partialArrived (h : Hw) (r : Rec) : Hw :=
  let p := r.payload
  let from_ := r.source / 2 ^ 20
  match h.groupNo (fld p 0 2) with
  | none => h
  | some g =>
    let key := fld p 4 8
    let phase := if g.op = 4 then min 1 (fld p 22 2) else 0
    if g.op = 4 ∧ phase = 0 ∧ !h.isRoot g ∧ from_ = h.redParent g then
      let x := (h.redRound g.num key 0).getD (Round.blank g.num key 0 h.frc)
      h.leadKnown g { x with sent := true } (if fld p 20 2 = 0 then none else some (fld p 48 8)) (r.flags % 4) 4
    else
      let i : RedIn :=
        { who := 2 ^ 32 + from_, contrib := fld p 12 4, minIdx := fld p 16 4, elems := redElems (g.opIn phase) p, triples := redTriples g p,
          elemCount := fld p 24 8, nonfin := fld p 32 4, rflags := nth p 3 % 64, grade := r.flags % 4, evt := r.stamp.nt,
          suspended := bit r.flags 5, samples := [] }
      if g.op ≠ 0 then
        -- the records of a split MOMENT partial each bring their own triples; CONTRIB counts with the last
        h.joinRound g key phase (if g.op = 3 && !bit (nth p 3) 7 then { i with who := 2 ^ 41, contrib := 0 } else i) 4
      else
        let x := h.joinPart r (fld p 22 2) i.elems (bit (nth p 3) 7)
        match x.1 with
        | some y =>
          let i := { i with elems := y.acc, grade := y.grade, suspended := y.suspended }
          let e := signed 16 (fld y.head 38 2)
          if g.fits (fld y.head 36 2) e (fld y.head 40 8) then x.2.joinRound g key 0 i 4
          else x.2.misfit g key i (fld y.head 36 2) e (fld y.head 40 8)
        | none => x.2

/-- A member contribution that this node has copied is marked; one that a check lists, or that goes on to another node, stays held. -/
def Hw.copied (h : Hw) (x : HeldRec) : Hw :=
  if h.arrived x && !h.checkTakes x.r then (h.deliver x).1
  else { h with flw := { h.flw with held := h.flw.held.map fun y => if y = x then { y with r := { y.r with reduced := true } } else y } }

/-! ### Acknowledgements of a launch (R354) -/

/-- Add leaf bits to the union of a launch's acknowledgements: true where it grew. -/
def addAcks (l : List (Nat × Nat)) (node mask : Nat) : List (Nat × Nat) × Bool :=
  let old := match l.find? fun x => x.1 == node with | some x => x.2 | none => 0
  ((node, old ||| mask) :: l.filter fun x => x.1 != node, (old ||| mask) != old)

/-- The bits set in a union. -/
def ackCount (l : List (Nat × Nat)) : Nat := total (l.map fun x => ((List.range 128).filter fun i => bit x.2 i).length)

/-- The records of a SET partial (R347, R350): elements of node ID, two zero bytes and the leaf mask, in group 0xFFFF with the job as the round
(log entry 47). -/
def Hw.setRecords (h : Hw) (job : Nat) (acks : List (Nat × Nat)) (loc : Nat) (dest : Option Nat) : List Rec :=
  (List.range (ceilDiv acks.length 200)).map fun i =>
    let c := (acks.drop (200 * i)).take 200
    let p := le 2 0xFFFF ++ [5, 128] ++ le 8 job ++ le 4 (ackCount c) ++ le 4 0 ++ le 2 c.length ++ le 2 0 ++ List.replicate 24 0 ++
      c.flatMap fun x => le 2 x.1 ++ [0, 0] ++ le 16 x.2
    { h.mkRec 0x28 4 loc h.ownGrade h.stampOwn p with dest := dest }

/-- The parent to which a node sends its acknowledgements (R354): the first, or the second while the first is down. -/
def Hw.ackParent (h : Hw) (l : Launch) : Option Nat :=
  let ps := h.parents l.root h.nodeId
  let up (o : Option Nat) : Option Nat := match o with | some n => if (h.portTo n).isSome then some n else none | none => none
  match up ps.1 with
  | some n => some n
  | none => up ps.2

/-- The union changed (R354): the root counts, any other node sends its partial to its first parent, or its second while the first is down. -/
def Hw.acksChanged (h : Hw) (l : Launch) : Hw :=
  let h := { h with fab := { h.fab with launch := some l } }
  if l.root = h.nodeId then h.s R.FAB_LAUNCH_COUNT_COUNT (ackCount l.acks) else
  let h := { h with fab := { h.fab with ackTo := h.ackParent l } }
  match h.fab.ackTo with
  | some n => h.handOver (h.setRecords l.job l.acks 0x1001 (some n))
  | none => h

/-- The parent that takes this node's acknowledgements has changed: they go to the new one (R354). -/
def Hw.acksMoved (h : Hw) : Hw :=
  match h.fab.launch with
  | some l => if l.decision = 0 && l.root != h.nodeId && !l.acks.isEmpty && h.ackParent l != h.fab.ackTo then h.acksChanged l else h
  | none => h

/-- A SET partial, or the acknowledgement of a leaf, reaches a node that holds the launch (R354). -/
def Hw.setArrived (h : Hw) (p : List Nat) : Hw :=
  match h.fab.launch with
  | none => h
  | some l =>
    if l.job ≠ fld p 4 8 then h else
    let a := (List.range (fld p 20 2)).foldl (fun (a : List (Nat × Nat) × Bool) i =>
      let e := slice p (48 + 20 * i) 20
      let n := addAcks a.1 (fld e 0 2) (fld e 4 16)
      (n.1, a.2 || n.2)) (l.acks, false)
    if a.2 then h.acksChanged { l with acks := a.1 } else h

/-- A held record is a SET partial for this node, or a leaf's acknowledgement that came on a culvert. -/
def Hw.takesSet (h : Hw) (x : HeldRec) : Bool :=
  h.running 0x28 && x.r.typ == 0x28 && nth x.r.payload 2 == 5 &&
    ((h.arrived x && x.dst.isSome) || (match x.src with | some o => isCulvert o.port | none => false))

/-- REDUCTION_PARTIAL_ARRIVAL (R346, R354): the oldest record held that a group or a launch takes; one whose sync record is missing is discarded
(R12, R193). -/
def execReductionPartialArrival (s : State) : Result := s.go fun h =>
  match h.flw.held.find? fun x => h.takesSet x || h.contributes x.r || (h.running 0x24 && h.arrived x && x.r.typ == 0x28 && x.dst.isSome) with
  | none => h
  | some x =>
    if h.contributes x.r then (if h.duplicate x.r then h.copied x else (h.copied x).memberArrived x.r)
    else
      let d := h.deliver x
      if !d.2 || !x.r.known then d.1 else if h.takesSet x then d.1.setArrived x.r.payload else d.1.partialArrived x.r

/-- The RED page works: RUNNING, or completing a drain, in which the open rounds run into their timeouts (R87). -/
def Hw.redWorks (h : Hw) : Bool := h.state 0x24 == 2 || h.state 0x24 == 3 || h.state 0x24 == 6

/-- The open rounds whose time has come. -/
def Hw.dueRounds (h : Hw) (root : Bool) (part : Nat) : List (Group × Round) :=
  h.red.rounds.filterMap fun r => match h.groupNo r.group with
    | some g =>
      let early := part == 4 || (g.op == 4 && r.phase == 0)
      if !r.sent && h.isRoot g == root && r.firstFrc + g.timeoutUs * 1000 / (if early then 4 else 1) ≤ h.frc then some (g, r) else none
    | none => none

/-- REDUCTION_PARTIAL_TIMEOUT (R346): TIMEOUT_US / 4 after the first input. -/
def execReductionPartialTimeout (s : State) : Result := s.go fun h =>
  if h.redWorks then h.each (h.dueRounds false 4) fun h x => h.finishRound x.1 x.2 4 else h

/-- REDUCTION_ROUND_TIMEOUT (R348): the root closes a round without all its members INCOMPLETE; it closes the maximum of a LAG group as the
nodes close theirs (log entry 40). -/
def execReductionRoundTimeout (s : State) : Result := s.go fun h =>
  if h.redWorks then h.each (h.dueRounds true 1) fun h x => h.finishRound x.1 x.2 4 else h

/-- The tree changed: rounds whose parent or whose children are others now are marked (R348). `before` gives parent and children of
each group under the old routes. -/
def Hw.treeChanged (h : Hw) (before : List (Nat × Nat × List Nat)) : Hw :=
  h.each (h.red.rounds.filter fun r => !r.sent) fun h r =>
    match h.groupNo r.group, before.find? fun b => b.1 == r.group with
    | some g, some b =>
      let lost := b.2.2.any fun c => !(h.redChildren g).contains c
      if (!h.isRoot g && h.redParent g != b.2.1) || lost then h.markRound r else h
    | _, _ => h

/-- Parent and children of every group. -/
def Hw.trees (h : Hw) : List (Nat × Nat × List Nat) := h.red.groups.map fun g => (g.num, h.redParent g, h.redChildren g)

/-! ### Group definitions (R325, R349) -/

/-- Read a definition: none where it breaks a range. -/
def readGroup (num : Nat) (b : List Nat) : Option Group :=
  let n := fld b 8 4
  let op := nth b 0
  let sum := op == 0
  let ok := b.length == 32 + 4 * n && 1 ≤ n && n ≤ 262144 && op ≤ 4 && nth b 1 ≤ 1 && nth b 2 ≤ 2 && fld b 4 2 < 4096 && 100 ≤ fld b 12 4 &&
    fld b 12 4 ≤ 1000000 && nth b 25 == 0 && zeros b 28 4 && (if sum then 6 ≤ nth b 3 && nth b 3 ≤ 10 else nth b 3 == 0 && zeros b 6 2 && zeros b 16 8) &&
    (if op = 3 then fld b 26 2 ≤ 4076 else nth b 24 == 0 && zeros b 26 2)
  if !ok then none else
  some { num := num, op := op, mode := nth b 1, keyMode := nth b 2, kLog := nth b 3, root := fld b 4 2, eRef := signed 16 (fld b 6 2),
         members := words4 b 32 n, timeoutUs := fld b 12 4, seed := fld b 16 8, rtype := nth b 24, offset := fld b 26 2 }

/-- Remove a group with its open rounds. -/
def Hw.removeGroup (h : Hw) (n : Nat) : Hw :=
  let h := { h with red := { h.red with groups := h.red.groups.filter fun g => g.num != n, rounds := h.red.rounds.filter fun r => r.group != n,
                                        frags := h.red.frags.filter fun f => f.num != n } }
  (h.satSettle.showGroup n).fpIdentity

/-- RED_CTL EN (R349): 1 reads the definition on behalf of RED_CTX, 0 removes the group and floods the removal. A check entry's group is
read only. -/
def Hw.redLoad (h : Hw) (v : Nat) : Tried :=
  let n := h.g R.RED_SEL_GROUP
  if h.checkGroup 0 ≤ n then .error E.badValue
  else if !h.running 0x24 then .error E.badState
  else if v % 2 = 1 then
    if h.on (R.RED_CTL_EN.at n) then .ok h else
    .ok ((h.s (R.RED_CTL_EN.at n) 1).dmaRead (h.g (R.RED_CTX_CTX.at n)) (h.g64 (R.RED_DEF_LO_ADDR.at n) (R.RED_DEF_HI_ADDR.at n))
      (h.g (R.RED_DEF_LEN_BYTES.at n)) (.group n))
  else if !h.on (R.RED_CTL_EN.at n) then .ok h
  else .ok (((h.s (R.RED_CTL_EN.at n) 0).removeGroup n).floodRemoval n)

/-- RED_GROUP_LOAD (R349). -/
def execRedGroupLoad (a : Acc) (v : Nat) (s : State) : Result := s.go fun h => h.hostWrite a 0x24 0x044 false fun h => h.redLoad v

/-- A definition refused at load: the code in the page's header, DEF_FAULT, EN back to 0. -/
def Hw.groupRefused (h : Hw) (n code : Nat) : Hw := ((h.s (R.RED_CTL_EN.at n) 0).err 0x24 code).raise 0x24 17

/-- The bytes of a definition have arrived at the root; a group disabled meanwhile takes nothing. -/
def Hw.groupArrived (h : Hw) (n : Nat) (bs : List Nat) : Hw :=
  if !h.on (R.RED_CTL_EN.at n) then h else
  match readGroup n bs with
  | none => h.groupRefused n E.badValue
  | some g =>
    if g.root ≠ h.nodeId ∨ (h.prof = .t ∧ 8 < g.kLog) then h.groupRefused n E.badValue
    else (((h.putRedGroup g).showGroup n).fpIdentity).floodGroup g

/-- The bytes that fragments (offset, bytes) give from offset 0 on without a hole: `b` so far. -/
def joinParts (ps : List (Nat × List Nat)) : Nat → List Nat → List Nat
  | 0, b => b
  | n + 1, b =>
    match ps.find? fun p => p.1 ≤ b.length && b.length < p.1 + p.2.length with
    | some p => joinParts ps n (b ++ p.2.drop (b.length - p.1))
    | none => b

/-- The definition that a node holds of a group, as fragments: whole, or the parts so far. -/
def GroupFrag.whole (f : GroupFrag) : Option (List Nat) :=
  let b := joinParts f.parts f.parts.length []
  if b.length = f.defLen then some b else none

/-- A GROUPDEF payload follows its layout (R325). -/
def groupDefOk (p : List Nat) : Bool :=
  let gk := nth p 0
  let n := fld p 12 2
  16 ≤ p.length && gk ≤ 1 && nth p 1 == 0 && zeros p 14 2 && p.length == 16 + n && n ≤ 4096 &&
    (if gk = 1 then n == 0 && fld p 4 4 == 0 else n != 0 && fld p 8 4 + n ≤ fld p 4 4 && (n % 4 == 0 || fld p 8 4 + n == fld p 4 4))

/-- Keep a fragment, pass it on, and hold the group once its definition is whole (R325). -/
def Hw.keepFrag (h : Hw) (b : List Nat) (n : Nat) (f : GroupFrag) (p : Nat) : Hw :=
  let h := { h with red := { h.red with frags := f :: h.red.frags.filter fun x => x.num != n } }
  let h := h.flood 5 b (some p)
  match f.whole with
  | none => h
  | some d =>
    let h := { h with red := { h.red with frags := h.red.frags.filter fun x => x.num != n } }
    match readGroup n d with
    | some g => ((h.putRedGroup g).showGroup n).fpIdentity
    | none => h

/-- One fragment of a definition, or its removal, at a node other than the root: what is new goes on to the other ports. -/
def Hw.groupDef (h : Hw) (p : Nat) (b : List Nat) : Hw :=
  let n := fld b 2 2
  if nth b 0 = 1 then
    if (h.groupNo n).isNone && !(h.red.frags.any fun f => f.num == n) then h
    else (h.removeGroup n).flood 5 b (some p)
  else
    let off := fld b 8 4
    let data := b.drop 16
    let have_ : Bool := match h.groupNo n with | some g => g.bytes.length == fld b 4 4 && slice g.bytes off data.length == data | none => false
    if have_ then h else
    let old := (h.red.frags.find? fun f => f.num == n && f.defLen == fld b 4 4).getD ⟨n, fld b 4 4, []⟩
    match old.parts.find? fun x => x.1 == off with
    | some x => if x.2 = data then h else h.keepFrag b n ⟨n, fld b 4 4, [(off, data)]⟩ p
    | none => h.keepFrag b n { old with parts := (off, data) :: old.parts } p

/-- GROUPDEF_RX (R325, R349). -/
def execGroupdefRx (p sec : Nat) (bs : List Nat) (s : State) : Result := s.go fun h =>
  h.receive p sec bs 5 fun f h =>
    if !groupDefOk f.payload then h.discard p else
    let a := h.acceptRel p f 0 0
    if a.2 && h.prof != .l then a.1.groupDef p f.payload else a.1

/-- The RED page stops after a drain: its rounds have gone on. -/
def Hw.redStop (h : Hw) : Hw := Hw.satSettle { h with red := { h.red with rounds := [], parts := [] } }

/-- The RED page aborts (R94): partial sums are discarded, and each open round stays, marked INCOMPLETE, with no contribution. -/
def Hw.redAbort (h : Hw) : Hw :=
  let left (r : Round) : Round :=
    if r.sent then r else { Round.blank r.group r.key r.phase r.firstFrc with rflags := 2, grade := r.grade, evt := r.evt, marked := r.marked }
  Hw.satSettle { h with red := { h.red with rounds := h.red.rounds.map left, parts := [] } }

end Sys2Proof.Machine
end

