-- ==== Sys2Proof/Machine/Fabric.lean ====
section
/-!
DEFINITION. Machine/Fabric.lean: HELLO, joining and claiming an ID, link-state advertisements and conflicts (R325, R329–R333), the
recomputation of routes (R334–R336), the registration of leaves (R336, R339), the reception of DATA frames (R185, R192, R326, R363, R389)
and the loss of a leaf's homes (R22).
-/
namespace Sys2Proof.Machine

/-! ### Streams that begin again (R332, R339) -/

/-- The streams of this part begin again at SEQ 0 with a FIRST sync record; one that still holds records emits them first. -/
def Hw.restartStreams (h : Hw) : Hw := { h with flw := { h.flw with streams := h.flw.streams.filter fun s => !s.held.isEmpty } }

/-! ### This node's LSA (R325, R333, R334) -/

/-- Primary culvert ports (R338). -/
def Hw.primaries (h : Hw) : Nat := h.prof.sel 1 128 32

/-- The LSA that this node would advertise now. A secondary port is numbered within the secondary ports (log entry 43). -/
def Hw.ownLsa (h : Hw) : Lsa :=
  let up := ((List.range h.fabrics).map (0x200 + ·)).filter fun p => (h.link p).up
  let regs := (List.range h.culverts).filter fun p => h.on (R.CUL_PORT_STAT_REG.at p)
  { node := h.g R.FAB_ID_NODE, ident := h.fab.ident, seq := h.fab.lsaSeq, state := h.g R.FAB_ID_STATE, profile := h.prof.sel 0 1 2,
    ports := up.map fun p => ((h.link p).peerNode, fabIndex p, b2n (h.longhaul p), h.portCost p),
    leaves := regs.map fun p => (if p < h.primaries then p else 128 + (p - h.primaries) % 128, h.g (R.CUL_PORT_STAT_PEER_NODE.at p)),
    heardFrc := h.frc }

/-- The payload of an LSA frame (R325). -/
def Lsa.bytes (l : Lsa) (withdraw : Bool) : List Nat :=
  let ps := if withdraw then [] else l.ports
  let ls := if withdraw then [] else l.leaves
  le 2 l.node ++ [0, 0] ++ le 8 l.ident ++ le 4 l.seq ++ [l.state, l.profile, ps.length, 0] ++ le 2 ls.length ++ [b2n withdraw, 0] ++
    ps.flatMap (fun e => le 2 e.1 ++ [e.2.1, e.2.2.1] ++ le 4 e.2.2.2) ++ ls.flatMap (fun e => [e.1, 0] ++ le 2 e.2)

/-- Read an LSA: the advertisement and WITHDRAW, none where it breaks the layout. -/
def readLsa (b : List Nat) (frc : Nat) : Option (Lsa × Bool) :=
  let np := nth b 18
  let nl := fld b 20 2
  let w := bit (nth b 22) 0
  let ps := (List.range np).map fun i => slice b (24 + 8 * i) 8
  let ls := (List.range nl).map fun i => slice b (24 + 8 * np + 4 * i) 4
  let ok := 24 ≤ b.length && np ≤ 16 && nl ≤ 256 && b.length == 24 + 8 * np + 4 * nl && zeros b 2 2 && nth b 19 == 0 && nth b 22 ≤ 1 &&
    nth b 23 == 0 && 1 ≤ fld b 0 2 && fld b 0 2 ≤ 0xFFE && (nth b 16 == 1 || nth b 16 == 2) && nth b 17 ≤ 2 && (!w || (np == 0 && nl == 0)) &&
    ps.all (fun e => fld e 0 2 < 4096 && nth e 3 ≤ 1) && ls.all fun e => nth e 1 == 0 && fld e 2 2 < 4096
  if !ok then none else
  some ({ node := fld b 0 2, ident := fld b 4 8, seq := fld b 12 4, state := nth b 16, profile := nth b 17,
          ports := ps.map fun e => (fld e 0 2, nth e 2, nth e 3, fld e 4 4), leaves := ls.map fun e => (nth e 0, fld e 2 2),
          heardFrc := frc }, w)

/-! ### The database -/

/-- The LSA of a node in the database. -/
def Hw.lsa (h : Hw) (n : Nat) : Option Lsa := h.fab.lsdb.find? fun l => l.node == n

/-- Two advertisements say the same but for their sequence number and age. -/
def Lsa.same (a b : Lsa) : Bool := { a with seq := 0, heardFrc := 0 } == { b with seq := 0, heardFrc := 0 }

/-- Replace the database; a change counts in FAB_LSDB_SEQ and makes a recomputation due (R336). -/
def Hw.putDb (h : Hw) (db : List Lsa) (changed : Bool) : Hw :=
  let h := { h with fab := { h.fab with lsdb := db, dbDirty := h.fab.dbDirty || changed } }
  (if changed then h.inc R.FAB_LSDB_SEQ_SEQ else h).s R.FAB_NODES_NODES db.length

/-- Store an LSA. -/
def Hw.putLsa (h : Hw) (l : Lsa) : Hw :=
  let changed := match h.lsa l.node with | some o => !o.same l | none => true
  h.putDb (l :: h.fab.lsdb.filter fun x => x.node != l.node) changed

/-- This node's own LSA stands in its database while it has a candidate. -/
def Hw.putOwn (h : Hw) : Hw := if h.g R.FAB_ID_STATE = 0 then h else h.putLsa h.ownLsa

/-- Advertise (R333): the next sequence number, on every fabric port that is up. -/
def Hw.advertise (h : Hw) : Hw :=
  let h := { h with fab := { h.fab with lsaSeq := succ32 h.fab.lsaSeq, lsaFrc := h.frc, lsaDirty := false } }
  h.putOwn.flood 3 (h.ownLsa.bytes false) none

/-- IDs that the database shows as claimed. -/
def Hw.claimed (h : Hw) : List Nat := (h.fab.lsdb.filter fun l => l.state == 2).map fun l => l.node

/-! ### Joining (R329–R332) -/

/-- Show the ID and the state; the ID of the arbiter and the warden's reach follow. -/
def Hw.setId (h : Hw) (node st : Nat) : Hw := ((h.s R.FAB_ID_NODE node).s R.FAB_ID_STATE st).showArbiter

/-- A node that finds 2,048 IDs claimed claims none and records ID_CONFLICT once (R331). -/
def Hw.idFull (h : Hw) : Bool := decide (2048 ≤ h.claimed.length)
def Hw.noteFull (h : Hw) : Hw :=
  if h.idFull ∧ !h.fab.idFullNoted then Hw.err { h with fab := { h.fab with idFullNoted := true } } 0x28 E.idConflict else h

/-- Become TENTATIVE with a candidate. -/
def Hw.tentative (h : Hw) (cand : Nat) : Hw :=
  let h := (h.setId cand 1).putOwn
  Hw.noteFull { h with fab := { h.fab with claimFrc := h.frc, lsaDirty := true } }

/-- The first candidate (R329). -/
def Hw.firstCandidate (h : Hw) : Nat := 1 + h.fab.ident % 4094

/-- The IDs from `n` on, wrapping from 0xFFE to 0x001. -/
def idsAfter (n : Nat) : List Nat := (List.range 4094).map fun i => 1 + (n + i) % 4094

/-- Show the leaves behind the culverts that are up this node's ID and state, by which they register anew (R332, R339, log entry 182). -/
def Hw.tellLeaves (h : Hw) : Hw :=
  h.each ((h.fab.links.filter fun (k : Link) => isCulvert k.port && k.up).map fun k => k.port) fun h p => h.sendHello p

/-- A node claims its ID (R330). -/
def Hw.claimId (h : Hw) : Hw :=
  if h.idFull then h.noteFull else
  let h := (h.setId (h.g R.FAB_ID_NODE) 2).putOwn
  Hw.startCheck (Hw.tellLeaves { h with fab := { h.fab with lsaDirty := true } })

/-- A TENTATIVE node that has no fabric port up any more claims its candidate at once (R330). -/
def Hw.aloneClaim (h : Hw) : Hw :=
  if h.running 0x28 && h.g R.FAB_ID_STATE == 1 && !(h.fab.links.any fun k => !isCulvert k.port && k.up) then h.claimId else h

/-- FABRIC_LINK_TIMEOUT (R343): no frame for 50 µs. The acknowledgements of a launch go to the other parent where the link led to the first (R354). -/
def execFabricLinkTimeout (p : Nat) (s : State) : Result := s.go fun h =>
  let k := h.link p
  if !isCulvert p && k.up && k.lastRx + 50000 ≤ h.frc then (h.linkDown p).aloneClaim.acksMoved else h

/-- The links with their HELLOs show that this node holds the database (R330, log entry 44): every neighbour with an ID has its LSA here. -/
def Hw.databaseComplete (h : Hw) : Bool :=
  let up := h.fab.links.filter fun k => !isCulvert k.port && k.up
  !up.isEmpty && up.all fun k => k.peerState == 0 || (h.lsa k.peerNode).isSome

/-- JOINING ends when the database is complete, and not before the first step of NT (R563). -/
def Hw.joinCheck (h : Hw) : Hw :=
  if h.running 0x28 && h.timed && h.g R.FAB_ID_STATE == 0 && h.databaseComplete then h.tentative h.firstCandidate else h

/-- A conflict lost (R331, R332): a new candidate, the old LSA withdrawn, ID_CONFLICT in the page and the recorder, ID_CHANGE; a CLAIMED node's
streams begin again and its leaves register again. -/
def Hw.loseId (h : Hw) (winner : Nat) : Hw :=
  let old := h.g R.FAB_ID_NODE
  let was := h.g R.FAB_ID_STATE
  let new := ((idsAfter old).find? fun n => !h.claimed.contains n).getD old
  let own := { h.ownLsa with seq := succ32 h.fab.lsaSeq }
  let h := h.flood 3 (own.bytes true) none
  let h := ((h.err 0x28 E.idConflict).event 0x0030 1 (le 2 old ++ le 2 new ++ [0, 0, 0, 0] ++ le 8 winner)).raise 0x28 16
  let h := { h with fab := { h.fab with lsaSeq := succ32 h.fab.lsaSeq } }
  let h := if was = 2 then
      let h := h.each (List.range h.culverts) fun h p =>
        if p < h.primaries then h.s (R.CUL_PORT_STAT_REG.at p) 0 else h
      Hw.triggerCond { h.restartStreams with fab := { h.fab with leafIds := [] } }
    else h
  let h := Hw.tentative { h with fab := { h.fab with lostId := old } } new
  if was = 2 then h.tellLeaves else h

/-- JOIN_TIMEOUT (R330): 3 ms with no fabric port up: a node alone claims at once. -/
def execJoinTimeout (s : State) : Result := s.go fun h =>
  if h.running 0x28 && h.timed && h.g R.FAB_ID_STATE == 0 && !(h.fab.links.any fun k => !isCulvert k.port && k.up) && h.fab.joinFrc + 3000000 ≤ h.frc
  then (h.tentative h.firstCandidate).claimId else h.joinCheck.aloneClaim

/-- CLAIM_HOLD_EXPIRY (R330). -/
def execClaimHoldExpiry (s : State) : Result := s.go fun h =>
  if h.running 0x28 && h.g R.FAB_ID_STATE == 1 && h.fab.claimFrc + h.g R.FAB_CFG_CLAIM_HOLD * 1000000 ≤ h.frc then h.claimId else h

/-- LSA_REFRESH (R333): on a change and every 100 ms. -/
def execLsaRefresh (s : State) : Result := s.go fun h =>
  if h.running 0x28 && h.g R.FAB_ID_STATE != 0 && (h.fab.lsaDirty || h.fab.lsaFrc + 100000000 ≤ h.frc) then h.advertise else h

/-- One LSA wins over another of the same ID (R331): CLAIMED against TENTATIVE, else the higher IDENTITY. -/
def Lsa.beats (a b : Lsa) : Bool := if a.state = b.state then decide (b.ident < a.ident) else decide (b.state < a.state)

/-- An LSA with this node's own IDENTITY comes from another node (R331): it names an ID that this node neither has nor has just lost, it differs from
what this node advertised with its number, or it is ahead again after one that a neighbour kept has been outnumbered (log entry 45). -/
def Hw.isClone (h : Hw) (l : Lsa) : Bool :=
  if l.node ≠ h.g R.FAB_ID_NODE then h.g R.FAB_ID_STATE != 0 && l.node != h.fab.lostId
  else h.g R.FAB_ID_STATE != 0 && !h.fab.lsaDirty &&
    ((l.seq == h.fab.lsaSeq && !l.same h.ownLsa) || (h.fab.outdone && ahead32 l.seq (succ32 h.fab.lsaSeq)))

/-- A received LSA (R325, R331, R333). An advertisement of this node's own that a neighbour kept from before a reset is outnumbered
(log entry 45). -/
def Hw.takeLsa (h : Hw) (p : Nat) (l : Lsa) (withdraw : Bool) (bytes : List Nat) : Hw :=
  let me := h.g R.FAB_ID_NODE
  if withdraw then
    match h.lsa l.node with
    | some o => if o.ident = l.ident ∧ l.ident ≠ h.fab.ident then
        (h.putDb (h.fab.lsdb.filter fun x => x.node != l.node) true).flood 3 bytes (some p) else h
    | none => h
  else if l.ident = h.fab.ident then
    if h.isClone l then h.fault 0x28 E.idConflict
    else if l.node = me ∧ ahead32 l.seq (succ32 h.fab.lsaSeq) then { h with fab := { h.fab with lsaSeq := l.seq, lsaDirty := true, outdone := true } } else h
  else if l.node = me ∧ h.g R.FAB_ID_STATE ≠ 0 then
    if l.beats h.ownLsa then ((h.putLsa l).flood 3 bytes (some p)).loseId l.ident
    else { h with fab := { h.fab with lsaDirty := true } }
  else match h.lsa l.node with
    | none => (h.putLsa l).flood 3 bytes (some p)
    | some o =>
      if o.ident ≠ l.ident then
        if l.beats o then (h.putLsa l).flood 3 bytes (some p) else h.sendRel p 3 1 0xFFF [] (h.plainFrame 3 1 (o.bytes false))
      else if ahead32 l.seq (succ32 o.seq) then (h.putLsa l).flood 3 bytes (some p) else h

/-- LSA_RX (R333). -/
def execLsaRx (p sec : Nat) (bs : List Nat) (s : State) : Result := s.go fun h =>
  h.receive p sec bs 3 fun f h =>
    match readLsa f.payload h.frc with
    | none => h.discard p
    | some l =>
      let a := h.acceptRel p f 0 0
      if a.2 && h.prof != .l && h.running 0x28 then (a.1.takeLsa p l.1 l.2 f.payload).joinCheck else a.1

/-- LSA_AGE_EXPIRY (R333): not refreshed within 1 s. -/
def execLsaAgeExpiry (s : State) : Result := s.go fun h => if h.faulted 0x28 then h else
  let me := h.g R.FAB_ID_NODE
  let l := h.fab.lsdb.filter fun x => x.node == me || h.frc < x.heardFrc + 1000000000
  if l.length < h.fab.lsdb.length then h.putDb l true else h

/-! ### Routes (R334–R336) -/

/-- Destinations without a backup path, and the nodes of an armed launch's tree with one parent (R335, R352). -/
def Hw.noBackup (h : Hw) : Nat :=
  let one := match h.fab.launch with
    | some l => if l.decision = 0 then
        (h.fab.lsdb.filter fun x => x.node != l.root && (h.parents l.root x.node).2.isNone).length else 0
    | none => 0
  (h.fab.routes.filter fun r => r.backup.isEmpty).length + one

/-- Show NO_BACKUP, with its interrupt and condition 0x04 of guarantee 3 (R335). -/
def Hw.showBackup (h : Hw) : Hw :=
  let n := h.noBackup
  let more := decide (h.g R.FAB_NODES_NO_BACKUP < n)
  let h := h.s R.FAB_NODES_NO_BACKUP n
  let h := if more then h.raise 0x28 18 else h
  if (h.fab.routes.filter fun r => r.backup.isEmpty).isEmpty then h.restore 3 0x04 else h.breach 3 0x04 0

/-- ROUTE_RECOMPUTE (R333, R336): the trees, paths and next hops of the changed database; nodes that cannot be reached leave it. -/
def execRouteRecompute (s : State) : Result := s.go fun h =>
  if !h.running 0x28 || !h.fab.dbDirty then h else
  let before := h.trees
  let h := h.putOwn
  let me := h.g R.FAB_ID_NODE
  let old := h.fab.routes
  let h := { h with fab := { h.fab with routes := h.computeRoutes } }
  let lost (x : HeldRec) : Bool := (old.any fun r => r.dst == h.dstOf x) && (h.route (h.dstOf x)).isNone
  let h := { h with flw := { h.flw with held := h.flw.held.map fun (x : HeldRec) => if lost x then { x with waitFrom := h.frc } else x } }
  let keep := h.fab.lsdb.filter fun l => l.node == me || (h.route l.node).isSome || (h.portTo l.node).isSome
  let h := h.putDb keep (decide (keep.length < h.fab.lsdb.length))
  let h := { h with fab := { h.fab with dbDirty := false } }
  ((((h.raise 0x28 17).showBackup).treeChanged before).showQuorum.acksMoved).aloneClaim.triggerCond

/-! ### HELLO -/

/-- A leaf asks culvert A's home for registration (R339). -/
def Hw.leafRegister (h : Hw) : Hw :=
  if h.prof = .l ∧ (h.link 0).up ∧ !h.on R.CUL_LEAF_REGISTERED then
    let h := { h with fab := { h.fab with regFrc := h.frc } }
    h.sendRel 0 8 1 0xFFF [] (h.plainFrame 8 1 ([0, 0, 0, 0] ++ le 8 h.fab.ident ++ List.replicate 12 0))
  else h

/-- A leaf tells culvert B's home its assignment (R339). -/
def Hw.leafStandby (h : Hw) : Hw :=
  if h.prof = .l ∧ (h.link 1).up ∧ h.on R.CUL_LEAF_REGISTERED then
    let h := { h with fab := { h.fab with regFrc := h.frc, standbyOk := false } }
    h.sendRel 1 8 1 0xFFF [] (h.plainFrame 8 1
      ([2, 0, 0, 0] ++ le 8 h.fab.ident ++ [0, 0, 0, 0] ++ le 2 (h.g R.CUL_LEAF_NODE) ++ [h.g R.CUL_LEAF_PORT] ++ List.replicate 5 0))
  else h

/-- The database goes to a neighbour whose link has come up (R330). -/
def Hw.sendDatabase (h : Hw) (p : Nat) : Hw :=
  h.each h.fab.lsdb fun h l => h.sendRel p 3 1 0xFFF [] (h.plainFrame 3 1 (l.bytes false))

/-- What follows a link's coming up: on a fabric port the database and JOINING, on a culvert of a leaf its registration. -/
def Hw.linkGreets (h : Hw) (p : Nat) : Hw :=
  if !(h.link p).up then h
  else if !isCulvert p then (h.sendDatabase p).joinCheck
  else if p = 0 then h.leafRegister else h.leafStandby

/-- A HELLO payload follows its layout, the OFFER or FINISH behind it too (R325, R520). -/
def helloOk (b : List Nat) : Bool :=
  let m := b.drop 13
  13 ≤ b.length && fld b 8 2 < 4096 && nth b 10 ≤ 3 && nth b 11 == 0 && nth b 12 ≤ 2 &&
    (m.isEmpty || (nth m 0 == 1 && 136 ≤ m.length && m.length == 136 + fld m 2 2 && fld m 2 2 ≠ 0 && fld m 2 2 ≤ 1024 && zeros m 133 3) ||
      (nth m 0 == 2 && m.length == 100 && zeros m 2 2))

/-- HELLO_RX (R325, R330, R521, R522): the peer's identity, ID and state, and any OFFER or FINISH. `meas` is the one-way delay in ns that the
two-way exchange of R124 gives with this frame, where it gives one (R334, log entry 183); that of a long-haul hop comes from its probes (R345). Two
nodes with equal IDENTITY fault (R331). -/
def execHelloRx (p sec : Nat) (meas : Option Nat) (bs : List Nat) (s : State) : Result := s.go fun h =>
  h.receive p sec bs 0 fun f h =>
    let b := f.payload
    if !helloOk b then h.discard p else
    let old := h.link p
    let h := h.onLink p fun k => { k with peerIdent := fld b 0 8, peerNode := fld b 8 2, peerState := nth b 10,
                                          delayNs := match meas with | some d => if h.longhaul p then k.delayNs else d | none => k.delayNs }
    if !isCulvert p ∧ fld b 0 8 = h.fab.ident then h.fault 0x28 E.idConflict else
    let was := (h.link p).up
    let h := if 13 < b.length then (if nth b 13 = 1 then h.offerRx p (b.drop 13) else h.finishRx p (b.drop 13)) else h
    let h := h.linkUp p
    let changed := old.peerNode != fld b 8 2 || old.delayNs != (h.link p).delayNs
    let h := if !isCulvert p && changed then Hw.triggerCond { h with fab := { h.fab with lsaDirty := true, dbDirty := true } } else h
    let h := if h.prof = .l ∧ p = 0 ∧ h.on R.CUL_LEAF_REGISTERED ∧ (nth b 10 = 1 ∨ nth b 10 = 2) ∧ fld b 8 2 ≠ h.g R.CUL_LEAF_NODE
      then ((h.s R.CUL_LEAF_REGISTERED 0).leafHomes.homesCond).triggerCond else h
    let h := if !was then h.linkGreets p else if isCulvert p then h.leafRegister else h.joinCheck
    h.showLink p

/-! ### REGISTER (R325, R339) -/

/-- A REGISTER payload follows its layout. -/
def registerOk (b : List Nat) : Bool :=
  b.length == 24 && nth b 0 ≤ 3 && nth b 1 ≤ 1 && zeros b 2 2 && zeros b 13 3 && fld b 16 2 < 4096 && nth b 18 < 128 && zeros b 19 5 &&
    (nth b 0 != 0 || fld b 16 2 == 0)

/-- An answer on the port of a REGISTER. -/
def Hw.answerRegister (h : Hw) (p rkind status : Nat) (b : List Nat) (node port : Nat) : Hw :=
  h.sendRel p 8 1 0xFFF [] (h.plainFrame 8 1
    ([rkind, status, 0, 0] ++ slice b 4 8 ++ [nth b 12, 0, 0, 0] ++ le 2 node ++ [port] ++ List.replicate 5 0))

/-- A leaf's registration, or its standby mapping, stands at this node. -/
def Hw.putLeaf (h : Hw) (p ident node port : Nat) : Hw :=
  let h := ((h.s (R.CUL_PORT_STAT_REG.at p) 1).s (R.CUL_PORT_STAT_PEER_NODE.at p) node).s (R.CUL_PORT_STAT_PEER_PORT.at p) port
  Hw.triggerCond { h with fab := { h.fab with leafIds := (p, ident) :: h.fab.leafIds.filter (fun x => x.1 != p), lsaDirty := true,
                                              standby := if p < h.primaries then h.fab.standby
                                                else (p, node, port) :: h.fab.standby.filter fun x => x.1 != p } }

/-- The assignment of home A at the leaf: SOURCE[31:13] is set, the streams begin, and culvert B is told. -/
def Hw.assigned (h : Hw) (b : List Nat) : Hw :=
  if fld b 4 8 ≠ h.fab.ident ∨ nth b 1 ≠ 0 then h else
  let h := ((h.s R.CUL_LEAF_NODE (fld b 16 2)).s R.CUL_LEAF_PORT (nth b 18)).s R.CUL_LEAF_REGISTERED 1
  (h.restartStreams.leafHomes.homesCond.triggerCond).leafStandby.startCheck

/-- A REGISTER message by its kind and the port it came on. -/
def Hw.register (h : Hw) (p : Nat) (b : List Nat) : Hw :=
  let claimed := h.g R.FAB_ID_STATE == 2 && h.running 0x28
  match h.prof, nth b 0 with
  | .l, 1 => if p = 0 then h.assigned b else h
  | .l, 3 => if p = 1 ∧ fld b 4 8 = h.fab.ident ∧ nth b 1 = 0 then { h with fab := { h.fab with standbyOk := true } } else h
  | .l, _ => h
  | _, 0 =>
    if h.primaries ≤ p then h
    else if claimed then (h.putLeaf p (fld b 4 8) (h.g R.FAB_ID_NODE) p).answerRegister p 1 0 b (h.g R.FAB_ID_NODE) p
    else h.answerRegister p 1 1 b 0 0
  | _, 2 =>
    if p < h.primaries then h
    else if claimed then (h.putLeaf p (fld b 4 8) (fld b 16 2) (nth b 18)).answerRegister p 3 0 b (fld b 16 2) (nth b 18)
    else h.answerRegister p 3 1 b (fld b 16 2) (nth b 18)
  | _, _ => h

/-- REGISTER_RX (R339). -/
def execRegisterRx (p sec : Nat) (bs : List Nat) (s : State) : Result := s.go fun h =>
  h.receive p sec bs 8 fun f h =>
    if !isCulvert p || !registerOk f.payload then h.discard p else
    let a := h.acceptRel p f 0 0
    if a.2 then a.1.register p f.payload else a.1

/-- REGISTER_RETRY (R325): 1 ms after the last request of a leaf that is not registered, or whose standby request has no acceptance. -/
def execRegisterRetry (s : State) : Result := s.go fun h =>
  if h.frc < h.fab.regFrc + 1000000 then h
  else if h.on R.CUL_LEAF_REGISTERED && !h.fab.standbyOk then h.leafStandby else h.leafRegister

/-! ### DATA frames (R185, R192, R326, R363, R364, R389) -/

/-- The assigned record types (R187). -/
def assignedTypes : List Nat :=
  [0x01, 0x02, 0x03, 0x04, 0x05, 0x10, 0x11, 0x12, 0x18, 0x20, 0x21, 0x22, 0x28, 0x30, 0x31, 0x32, 0x38, 0x39, 0x40, 0x48, 0x49]

/-- An assigned local source (R182). -/
def assignedLocal (l : Nat) : Bool :=
  l ≤ 1 || (0x10 ≤ l && l ≤ 0x20) || l == 0x30 || l == 0x31 || (0x100 ≤ l && l ≤ 0x17F) || (0x400 ≤ l && l ≤ 0x800) || l == 0x900 ||
    (0x1000 ≤ l && l ≤ 0x1004) || l == 0x1020 || (0x1400 ≤ l && l ≤ 0x17FF)

/-- Cut a payload into records by LENGTH (R180): the records, and the rest from the first one whose LENGTH breaks R180 or the frame. -/
def splitRecs : Nat → List Nat → List (List Nat) × List Nat
  | 0, b => ([], b)
  | fuel + 1, b =>
    let n := fld b 0 2
    if b.length < 16 ∨ n < 16 ∨ n % 4 ≠ 0 ∨ 4096 < n ∨ b.length < n then ([], b) else
    let t := splitRecs fuel (b.drop n)
    (b.take n :: t.1, t.2)

/-- The stamp of a received record: a sync record's own, any other from the last sync record of its stream that it follows (R12, R184, R193). -/
def Hw.stampOf (h : Hw) (b : List Nat) : Stamp × Bool :=
  let p := b.drop 16
  if nth b 2 = 0x01 then (⟨fld p 0 10, fld p 24 8, nth p 10 % 32, nth p 11, nth p 12, fld p 16 8⟩, true) else
  match h.flw.syncs.find? fun s => s.1 == fld b 4 4 && ahead32 (fld b 8 4) s.2.1 with
  | some s => ({ s.2.2 with nt := (s.2.2.nt / 65536 + fld b 12 4) * 65536, frc := s.2.2.frc + fld b 12 4 }, true)
  | none => (h.stampNode, false)

/-- A record from its bytes. -/
def Hw.readRec (h : Hw) (f : Frame) (b : List Nat) : Rec :=
  let st := h.stampOf b
  { typ := nth b 2, flags := nth b 3, source := fld b 4 4, seq := fld b 8 4, tdelta := fld b 12 4, payload := b.drop 16, cls := f.cls,
    stamp := st.1, yellow := false, replay := f.replay, known := st.2 }

/-- The header checks of R185, LENGTH apart. -/
def Rec.sound (r : Rec) : Bool :=
  let n := r.source / 2 ^ 20
  assignedTypes.contains r.typ && !bit r.flags 7 && (!bit r.flags 3 || r.typ == 0x12 || r.typ == 0x38 || r.typ == 0x39) && n != 0 && n != 0xFFF &&
    assignedLocal (localOf r.source) && (!bit r.source 12 || r.source / 2 ^ 13 % 128 == 0) &&
    (if r.typ = 0x01 then r.tdelta == 0 else if r.typ = 0x02 then r.tdelta == 0xFFFFFFFF else r.tdelta ≤ 100000)

/-- The next SEQ expected of a stream becomes `n`. -/
def Hw.expect (h : Hw) (source n : Nat) : Hw :=
  { h with flw := { h.flw with expected := (source, n) :: h.flw.expected.filter fun e => e.1 != source } }

/-- Note the SEQ of a received record: the next one expected, and a hole before it that a record with an unreadable header left (R192). `next` is the
SEQ after the record, or after what a gap record covers. -/
def Hw.noteSeq (h : Hw) (source seq next : Nat) : Hw :=
  match h.flw.expected.find? fun e => e.1 == source with
  | none => h.expect source next
  | some e =>
    let hole := if ahead32 seq e.2 then dist32 seq e.2 else 0
    let h := match h.flw.unread with
      | o :: rest => if hole = 0 then h else
        Hw.noteLoss { h with flw := { h.flw with unread := rest } } source e.2 hole 3 E.eccUncorr true o
      | [] => h
    if ahead32 next e.2 then h.expect source next else h

/-- Note what a received record says of its stream: the last sync record, the next SEQ expected (R192, R193). -/
def Hw.noteStream (h : Hw) (r : Rec) : Hw :=
  let h := if r.typ = 0x01 then
      { h with flw := { h.flw with syncs := (r.source, r.seq, r.stamp) :: h.flw.syncs.filter fun s => s.1 != r.source } }
    else if r.typ = 0x02 ∧ bit (fld r.payload 10 2) 0 then h.endSync r.source (r.seq + fld r.payload 0 4 + 2 ^ 32 - 1)
    else h
  h.noteSeq r.source r.seq (if r.typ = 0x02 then (r.seq + fld r.payload 0 4) % 2 ^ 32 else succ32 r.seq)

/-- A corrupt record whose header names the SEQ expected next leaves no hole behind it. -/
def Hw.passSeq (h : Hw) (r : Rec) : Hw :=
  if h.flw.expected.any fun e => e.1 == r.source && e.2 == r.seq then h.expect r.source (succ32 r.seq) else h

/-- A record whose header cannot be read is counted at once; its gap record follows when its stream shows the hole (R192), and the frame that it came
in is answered for until then (R368). -/
def Hw.dropUnread (h : Hw) (cls : Nat) (o : List Origin) : Hw :=
  let h := h.countDrop cls 3 1
  { h with flw := { h.flw with unread := h.flw.unread ++ [o] } }

/-- The header of a stored record cannot be read (R192): the discard counts at once. Its gap follows with the stream's next record: where none
has arrived the hop expects this SEQ again, so that the next one shows the hole. -/
def Hw.dropStored (h : Hw) (x : HeldRec) : Hw :=
  let o := (match x.src with | some o => [o] | none => []) ++ x.covers
  let h := h.frameLost x.r h.frameSource
  let last := h.flw.expected.any fun e => e.1 == x.r.source && e.2 == succ32 x.r.seq
  if last then (h.dropUnread x.r.cls o).expect x.r.source x.r.seq
  else (h.countDrop x.r.cls 3 1).noteLoss x.r.source x.r.seq 1 3 E.eccUncorr true o

/-- The records of a leaf arrive again: its entity is no longer marked unreachable. -/
def Hw.reached (h : Hw) (source : Nat) : Hw :=
  { h with agt := { h.agt with unreachable := h.agt.unreachable.filter fun k => k != source / 2 ^ 13 } }

/-- One record of an accepted frame: corrupt, red, or admitted; the rules of the tree engine see what is admitted. -/
def Hw.takeRec (h : Hw) (p : Nat) (f : Frame) (colour grp : Nat) (b : List Nat) : Hw :=
  let r := h.readRec f b
  let o : Origin := ⟨p, f.cls, f.hseq⟩
  if !r.sound then (h.passSeq r).dropRec r 3 0 [o]
  else if colour = 2 then (h.noteStream r).dropRec r 2 E.policed [o]
  else
    let r := { r with yellow := colour == 1 }
    let h := (h.noteStream r).reached r.source
    let dst := if f.dst = 0xFFF then none else some f.dst
    (h.collect r).admitHeld ⟨r, some o, h.frc, dst, restOf f.pfx, grp, f.src, none, [], none⟩

/-- The rest of a frame whose LENGTH fields do not hold is one corrupt record, or one whose header cannot be read. -/
def Hw.takeRest (h : Hw) (p : Nat) (f : Frame) (rest : List Nat) : Hw :=
  if rest.isEmpty then h
  else if rest.length < 16 then h.dropUnread f.cls [⟨p, f.cls, f.hseq⟩]
  else (h.passSeq (h.readRec f rest)).dropRec (h.readRec f rest) 3 0 [⟨p, f.cls, f.hseq⟩]

/-- Bytes that the frames of a class received on a link hold of its window (R363). -/
def Link.held (k : Link) (c : Nat) : Nat := total ((k.custody.filter fun x => x.cls == c).map fun x => x.size)

/-- A class 0–2 frame finds no room in a reserved buffer that an error has made smaller (R364). -/
def Hw.resvFull (h : Hw) (c n : Nat) : Bool :=
  h.on R.FLW_STAT_RESV_SHORT && c < 3 && decide (1024 * h.g R.FLW_RESV_AVAIL < h.resvUse + n)

/-- A DATA frame in order is RACKed and its records taken. -/
def Hw.dataFrame (h : Hw) (p : Nat) (f : Frame) (dei : Bool) : Hw :=
  let s := splitRecs 300 f.payload
  let n := s.1.length + b2n (!s.2.isEmpty)
  let a := h.acceptRel p f n n
  if !a.2 then a.1 else
  let c := a.1.police p f.cls f.bytes.length dei
  let grp := c.2.fab.nextGrp
  let h := { c.2 with fab := { c.2.fab with nextGrp := grp + 1 } }
  ((h.each s.1 fun h b => h.takeRec p f c.1 grp b).takeRest p f s.2).levee

/-- DATA_FRAME_RX (R326, R361–R364): a frame beyond its credit is discarded and counted in FLW_OVERRUN; `dei` is the DEI bit of a tag ahead of
its EtherType (R388). While the FLW page drains no frame is taken, and its sender keeps it (R87). -/
def execDataFrameRx (p sec : Nat) (dei : Bool) (bs : List Nat) (s : State) : Result := s.go fun h =>
  h.receive p sec bs 4 fun f h =>
    if h.prof = .l ∨ f.payload.isEmpty then h.discard p
    else if h.flwDrains then h
    else if f.hseq ≠ nth (h.link p).rxNext f.cls then (h.acceptRel p f 0 0).1
    else if h.window p f.cls < (h.link p).held f.cls + f.bytes.length then h.inc R.FLW_OVERRUN_COUNT
    else if h.resvFull f.cls f.payload.length then h
    else h.dataFrame p f dei

/-! ### A leaf without homes (R22) -/

/-- HOMES_LOST_EXPIRY (R22): the replay window of the leaf at port `p` has run out after it fell silent on both culverts, the second as the
fabric reports it (log entry 46): its streams close with gap records of reason HOMES_LOST, the records that these cover count as dropped with that
reason in the home's ledger (R27, R368), its entity is marked unreachable and an advisory verdict issued. The home knows neither COUNT nor class,
which are free; it counts the records as RECEIVED too, so that R372 balances. -/
def execHomesLostExpiry (p : Nat) (s : State) : Result := s.go fun h =>
  let k := h.link p
  let key := h.nodeId * 128 + p
  if h.prof = .l ∨ h.primaries ≤ p ∨ !h.on (R.CUL_PORT_STAT_REG.at p) ∨ k.up ∨ h.frc < k.downSince + 2000000 ∨ h.agt.unreachable.contains key
  then h else
  let h := h.each (h.flw.expected.filter fun e => e.1 / 2 ^ 13 == key) fun h e =>
    let c := h.fresh
    let k := c.2.fresh
    let n := c.1 % 2 ^ 32
    let h := (k.2.ledger (k.1 % 8) fun l => { l with received := l.received + n }).countDrop (k.1 % 8) 5 n
    let h := h.noteLoss e.1 e.2 n 5 0 true []
    { h with flw := { h.flw with expected := h.flw.expected.filter fun x => x.1 != e.1 } }
  Hw.advise { h with agt := { h.agt with unreachable := key :: h.agt.unreachable } } key

end Sys2Proof.Machine
end

