-- ==== Sys2Proof/Machine/Launch.lean ====
section
/-!
DEFINITION. Machine/Launch.lean: job launch (R351–R356).
-/
namespace Sys2Proof.Machine

/-- The delay in ns of the hop from `a` to `b` where it is a long-haul hop, else 0: this node's own ports have measured it; of another node's the
advertised cost gives it, less HOP_COST (log entry 48). -/
def Hw.hopDelay (h : Hw) (a b : Nat) : Nat :=
  let me := h.nodeId
  if a = me ∨ b = me then
    match h.portTo (if a = me then b else a) with
    | some p => if h.longhaul p then (h.link p).delayNs else 0
    | none => 0
  else match h.lsa a with
    | none => 0
    | some l =>
      let ps := l.ports.filter fun x => x.1 == b
      let c := (ps.map fun x => x.2.2.2).foldl min ((ps.map fun x => x.2.2.2).headD 0)
      if ps.any fun x => x.2.2.2 == c && x.2.2.1 == 1 then (c - h.g R.FAB_CFG_HOP_COST) * 1000 else 0

/-- The sum of the delays of the long-haul hops along a path (R351). -/
def Hw.longhaulOn (h : Hw) (a : Nat) (path : List Nat) : Nat := total ((linksOf a path).map fun e => h.hopDelay e.1 e.2)

/-- H (R351): the largest sum of long-haul delays on any node's path to this node. -/
def Hw.launchH (h : Hw) : Nat :=
  let es := edgesOf h.fab.lsdb
  let n := h.fab.lsdb.length
  let me := h.nodeId
  let t := distsTo es me n
  (h.fab.lsdb.map fun l => h.longhaulOn l.node (pathTo es t me n l.node)).foldl max 0

/-- A LAUNCH message (R353). -/
def launchMsg (l : Launch) (msg reason count : Nat) : List Nat :=
  [msg, reason] ++ le 2 l.root ++ le 4 l.job ++ le 8 l.instant ++ le 4 l.size ++ le 4 count ++ List.replicate 8 0

/-- A node passes a message to each node of which it is a parent, and to its registered leaves (R352, R353). -/
def Hw.spread (h : Hw) (l : Launch) (m : List Nat) : Hw :=
  (h.each (h.launchChildren l.root) fun h n => h.sendTo n 6 m).sendLeaves 6 m

/-- Show a launch in FAB_LAUNCH_STAT. -/
def Hw.showLaunch (h : Hw) (l : Launch) (st reason : Nat) : Hw :=
  let h := ((h.s R.FAB_LAUNCH_STAT_STATE st).s R.FAB_LAUNCH_STAT_REASON reason).s R.FAB_LAUNCH_STAT_JOB (l.job % 2 ^ 24)
  h.s R.FAB_LAUNCH_STAT_ROOT (b2n (l.root == h.nodeId))

/-- The root's outcome in the event recorder (R356, R493). -/
def Hw.launchEvent (h : Hw) (l : Launch) (st reason : Nat) : Hw :=
  if l.root = h.nodeId then h.event 0x0031 0 (le 4 l.job ++ [st, reason, 0, 0] ++ le 4 (ackCount l.acks)) else h

/-- A node's part of an abort (R355). -/
def Hw.nodeAbort (h : Hw) (l : Launch) (reason : Nat) (note : Bool) : Hw :=
  let h := { h with fab := { h.fab with launch := some { l with decision := 2, reason := reason } } }
  let h := ((h.showLaunch l 3 reason).raise 0x28 21).launchEvent l 3 reason
  if note then h.err 0x28 E.launchAbort else h

/-- The root's abort: the message goes out. -/
def Hw.rootAbort (h : Hw) (l : Launch) (reason : Nat) : Hw :=
  (h.nodeAbort l reason true).spread l (launchMsg l 2 reason (ackCount l.acks))

/-- LAUNCH_ARM_CMD (R351): refused with BAD_VALUE. -/
def Hw.launchArm (h : Hw) : Tried :=
  let ns := h.g (R.FAB_LAUNCH_NT_NT.at 0) + 2 ^ 32 * h.g (R.FAB_LAUNCH_NT_NT.at 1)
  let size := h.g R.FAB_LAUNCH_SIZE_SIZE
  let armed := match h.fab.launch with | some l => l.decision == 0 | none => false
  if !h.running 0x28 ∨ h.g R.FAB_ID_STATE ≠ 2 then .error E.badState
  else if ns < h.ns + 2000000 + 2 * h.launchH ∨ size = 0 ∨ 262144 < size ∨ armed = true then .error E.badValue
  else
    let l : Launch := ⟨h.g R.FAB_LAUNCH_JOB_JOB, ns, size, h.nodeId, 0, 0, [], h.launchH⟩
    let h := { h with fab := { h.fab with launch := some l, seenMsgs := h.fab.seenMsgs.filter fun x => x.2 % 2 ^ 32 != l.job } }
    let h := ((h.showLaunch l 1 0).s R.FAB_LAUNCH_COUNT_COUNT 0).raise 0x28 19
    .ok (h.spread l (launchMsg l 0 0 0)).showBackup

/-- The end of a write of FAB_LAUNCH_CMD: a refusal with BAD_VALUE, which ARM alone gives, shows REASON MARGIN (R351). -/
def Hw.launchEnd (h : Hw) (r : Tried) : Hw :=
  match r with
  | .ok h' => h'.accepted 0x28
  | .error c => if c = E.badValue then (h.refuse 0x28 c).s R.FAB_LAUNCH_STAT_REASON 2 else h.refuse 0x28 c

/-- LAUNCH_ARM_CMD (R351). -/
def execLaunchArmCmd (a : Acc) (s : State) : Result := s.go fun h => h.operAccess a 0x28 0x314 fun h => h.launchEnd h.launchArm

/-- LAUNCH_CANCEL_CMD (R355): before the deadline, at the root of an armed launch; otherwise BAD_STATE. -/
def Hw.launchCancel (h : Hw) : Tried :=
  match h.fab.launch with
  | some l => if l.root = h.nodeId ∧ l.decision = 0 ∧ h.ns + 500000 + l.h < l.instant then .ok (h.rootAbort l 3) else .error E.badState
  | none => .error E.badState

/-- LAUNCH_CANCEL_CMD (R355). -/
def execLaunchCancelCmd (a : Acc) (s : State) : Result := s.go fun h => h.operWrite a 0x28 0x314 Hw.launchCancel

/-- The page whose function takes part in a launch: CUL on a leaf, FAB on a node. -/
def Hw.launchPage (h : Hw) : Nat := h.prof.sel 0x2C 0x28 0x28

/-- LAUNCH_DEADLINE (R355): the launch instant − 500 µs − H. -/
def execLaunchDeadline (s : State) : Result := s.go fun h => if h.faulted h.launchPage then h else
  match h.fab.launch with
  | none => h
  | some l =>
    if l.root ≠ h.nodeId ∨ h.prof = .l ∨ l.decision ≠ 0 ∨ h.ns + 500000 + l.h < l.instant then h
    else if ackCount l.acks = l.size then
      let h := { h with fab := { h.fab with launch := some { l with decision := 1 } } }
      let h := ((h.showLaunch l 2 0).raise 0x28 20).launchEvent l 2 0
      h.spread l (launchMsg l 1 0 (ackCount l.acks))
    else h.rootAbort l 1

/-- A LAUNCH payload follows its layout. -/
def launchOk (b : List Nat) : Bool := b.length == 32 && nth b 0 ≤ 2 && nth b 1 ≤ 4 && fld b 2 2 < 4096 && fld b 16 4 ≤ 262144 && zeros b 24 8

/-- A received LAUNCH message of kind `msg`: the first copy is taken and passed on, the others are discarded (R352). -/
def Hw.launchRx (h : Hw) (p sec : Nat) (bs : List Nat) (msg : Nat) (k : Launch → List Nat → Hw → Hw) : Hw :=
  h.receive p sec bs 6 fun f h =>
    let b := f.payload
    if !launchOk b then h.discard p
    else if nth b 0 ≠ msg then h
    else
      let a := h.acceptRel p f 0 0
      let h := a.1
      let job := fld b 4 4
      if !a.2 || h.fab.seenMsgs.contains (msg, fld b 4 12) then h else
      let l : Launch := match h.fab.launch with
        | some l => if l.job = job ∧ l.instant = fld b 8 8 then l else ⟨job, fld b 8 8, fld b 16 4, fld b 2 2, 0, 0, [], 0⟩
        | none => ⟨job, fld b 8 8, fld b 16 4, fld b 2 2, 0, 0, [], 0⟩
      let h := { h with fab := { h.fab with seenMsgs := (msg, fld b 4 12) :: h.fab.seenMsgs } }
      let h := k l b h
      if h.prof = .l then h else h.spread l b

/-- LAUNCH_ARM_RX (R353). -/
def execLaunchArmRx (p sec : Nat) (bs : List Nat) (s : State) : Result := s.go fun h =>
  h.launchRx p sec bs 0 fun l _ h =>
    let h := { h with fab := { h.fab with launch := some { l with decision := 0, acks := [] } } }
    if h.prof = .l then
      let h := (h.s R.CUL_LAUNCH_JOB_JOB l.job).s64 (R.CUL_LAUNCH_NT_NT.at 0) (R.CUL_LAUNCH_NT_NT.at 1) l.instant
      (((h.s (R.CUL_LAUNCH_NT_NT.at 2) 0).s R.CUL_LAUNCH_STAT_STATE 1).s R.CUL_LAUNCH_STAT_ACKED 0).raise 0x2C 18
    else ((h.showLaunch l 1 0).raise 0x28 19).showBackup

/-- LAUNCH_COMMIT_RX (R355): held until the launch instant; one that comes after it changes nothing. -/
def execLaunchCommitRx (p sec : Nat) (bs : List Nat) (s : State) : Result := s.go fun h =>
  h.launchRx p sec bs 1 fun l _ h =>
    if l.instant ≤ h.ns then h else
    let h := { h with fab := { h.fab with launch := some { l with decision := 1 } } }
    if h.prof = .l then h.s R.CUL_LAUNCH_STAT_STATE 2 else (h.showLaunch l 2 0).raise 0x28 20

/-- LAUNCH_ABORT_RX (R355). -/
def execLaunchAbortRx (p sec : Nat) (bs : List Nat) (s : State) : Result := s.go fun h =>
  h.launchRx p sec bs 2 fun l b h =>
    if h.prof = .l then
      let h := { h with fab := { h.fab with launch := some { l with decision := 2, reason := nth b 1 } } }
      (h.s R.CUL_LAUNCH_STAT_STATE 3).raise 0x2C 20
    else h.nodeAbort l (nth b 1) false

/-- CUL_LAUNCH_ACK (R353, R354): the die's software acknowledges; refused with BAD_STATE for a job that is not armed. -/
def Hw.launchAck (h : Hw) : Tried :=
  if h.prof ≠ .l then .ok h
  else if h.g R.CUL_LAUNCH_STAT_STATE ≠ 1 then .error E.badState
  else
    let job := h.g R.CUL_LAUNCH_JOB_JOB
    let h := h.s R.CUL_LAUNCH_STAT_ACKED 1
    .ok (h.handOver (h.setRecords job [(h.g R.CUL_LEAF_NODE, 2 ^ h.g R.CUL_LEAF_PORT)] 0x0000 none))

/-- CUL_LAUNCH_ACK (R353). -/
def execCulLaunchAck (a : Acc) (s : State) : Result := s.go fun h => h.hostWrite a 0x2C 0x090 false Hw.launchAck

/-- FAB_PROXY_ACK_WRITE (R353): register `i`, bits `v`, on a Boldal T. -/
def Hw.proxyAck (h : Hw) (i v : Nat) : Tried :=
  if h.prof ≠ .t ∨ 4 ≤ i then .ok h
  else match h.fab.launch with
    | some l =>
      if l.decision ≠ 0 then .error E.badState else
      let n := addAcks l.acks h.nodeId (v % 2 ^ 32 * 2 ^ (32 * i))
      .ok (if n.2 then h.acksChanged { l with acks := n.1 } else h)
    | none => .error E.badState

/-- FAB_PROXY_ACK_WRITE (R353). -/
def execFabProxyAckWrite (a : Acc) (i v : Nat) (s : State) : Result :=
  s.go fun h => h.hostWrite a 0x28 (0x320 + 4 * i) false fun h => h.proxyAck i v

/-- LAUNCH_INSTANT (R355): a committed leaf raises GO; without a decision the launch is aborted with NO_DECISION. -/
def execLaunchInstant (s : State) : Result := s.go fun h => if h.faulted h.launchPage then h else
  match h.fab.launch with
  | none => h
  | some l =>
    if h.ns < l.instant then h else
    let h := { h with fab := { h.fab with launch := none } }
    let beyond (h : Hw) : Hw := { h with fab := { h.fab with launch := none } }
    match h.prof, l.decision with
    | .l, 0 => ((h.s R.CUL_LAUNCH_STAT_STATE 3).raise 0x2C 20).err 0x2C E.launchAbort
    | .l, 1 => h.raise 0x2C 19
    | _, 0 => beyond (h.nodeAbort l 4 true)
    | _, _ => h

end Sys2Proof.Machine
end

