-- ==== Sys2Proof/Machine/Flow.lean ====
section
/-!
DEFINITION. Machine/Flow.lean: the release of streams (R580), gap records (R368), the ledger (R369–R374), rehoming and stepping down (R375,
R376), the delivery rings (R378, R379) and the copy engine (R380).
-/
namespace Sys2Proof.Machine

/-! ### Streams -/

/-- The first group of a list of records: up to the first without CONT (R181). -/
def firstGroup : List Rec → List Rec
  | [] => []
  | r :: t => if bit r.flags 6 then r :: firstGroup t else [r]

/-- The longest time from a step mark on a STEP_IN input to its acceptance (R65, R148). -/
def Hw.markDelay (h : Hw) : Nat :=
  ((List.range h.trackerCount).filter fun t => bit (h.g (R.STP_IN_MASK_MASK.at (t / 32))) (t % 32)).foldl
    (fun m t => max m (h.g (R.STP_IN_CFG_DELAY.at t) + max 4 (h.g (R.STP_IN_CFG_FILTER.at t)))) 0

/-- A path of a stream of this part may still hand over a record with an earlier event time than `st` (R580): a leaf's control stream waits for
the ledger record of a period that has ended, the health stream for the open SENSOR record and the conversions under way, the verdict stream for
samples of earlier instants, the tracker stream for marks that have still to pass the filter. -/
def Hw.pathBefore (h : Hw) (source : Nat) (st : Stamp) : Bool :=
  let ns := st.nt / 65536
  match localOf source with
  | 0x0000 => h.prof == .l && h.flwWorks && h.timed && h.periodEnd ≤ h.ns && h.periodEnd < ns
  | 0x0900 => (!h.hlt.open_.isEmpty && h.hlt.openStamp.nt / 65536 < ns) || h.hlt.conv.any fun c => c.2.nt / 65536 < ns
  | 0x1002 => (h.agt.bounds.any fun b => b.ns < ns) || h.agt.samples.any fun x => x.ns < ns
  | 0x1020 => h.running 0x06 && h.frc < st.frc + h.markDelay
  | _ => false

/-- A held record may go (R580): no path can hand over an earlier one, or it has waited 200 µs since its event time. -/
def Hw.mayRelease (h : Hw) (r : Rec) : Bool := !h.pathBefore r.source r.stamp || r.stamp.frc + 200000 ≤ h.frc

/-- Emit the records that a stream holds, in order, as far as they may go, or all of them; a verdict's successors wait for its log entry
(R446). -/
def Hw.releaseStream (h : Hw) (source : Nat) (all : Bool) : Nat → Hw
  | 0 => h
  | fuel + 1 =>
    let s := h.stream source
    if (localOf source == 0x1002 && h.dma.any fun d => match d.purpose with | .verdictLog _ => true | _ => false) ||
      !(match s.held with | [] => false | r :: _ => all || h.mayRelease r) then h else
    let g := firstGroup s.held
    Hw.releaseStream ((h.putStream { s with held := s.held.drop g.length }).emitGroup g) source all fuel

/-- STREAM_RECORD_RELEASE (R580): the records at the head of a stream that may go (log entry 49). -/
def execStreamRecordRelease (source : Nat) (s : State) : Result := s.go fun h =>
  if h.flw.streams.any fun x => x.source == source then h.releaseStream source false (h.stream source).held.length else h

/-- A stream's open losses are covered before its next record goes on (R191). -/
def Hw.coverLosses (h : Hw) : Hw :=
  h.each (h.flw.losses.filter fun l => h.flw.held.any fun x => x.r.source == l.source && x.r.typ != 0x02) fun h l => h.emitGap l

/-- GAP_EMIT_DEADLINE (R368): no later than 100 µs after the first loss. -/
def execGapEmitDeadline (s : State) : Result := s.go fun h =>
  h.each (h.flw.losses.filter fun l => l.at_ + 100000 ≤ h.frc) fun h l => h.emitGap l

/-! ### The ledger (R369–R374) -/

/-- Records of a class that this hop holds (R370): those in its buffers and those sent that no ACK covers, less those received that it has not
acknowledged yet. -/
def Hw.holding (h : Hw) (c : Nat) : Nat :=
  nth h.flw.occ c +
    total (h.fab.links.map fun k => total ((k.retained.filter fun t => t.cls == c && !t.racked).map fun t => t.recs.length)) -
    total (h.fab.links.map fun k => nth k.unack c)

/-- Those of them that travel in frames with REPLAY. -/
def Hw.holdingReplay (h : Hw) (c : Nat) : Nat :=
  (h.flw.held.filter fun x => x.r.cls == c && x.r.replay).length +
    total (h.fab.links.map fun k => total ((k.retained.filter fun t => t.cls == c && !t.racked && t.replay).map fun t => t.recs.length)) -
    total (h.fab.links.map fun k => nth k.unackRep c)

/-- The left side of R372. -/
def LedRow.ins (l : LedRow) : Nat := l.heldStart + l.produced + l.received + l.reclaimed

/-- The right side of R372 without HELD_END. -/
def LedRow.outs (l : LedRow) : Nat := l.forwarded + l.delivered + l.duplicates + l.dropped

/-- HELD_END of a class (R370): what the hop holds, less what has come and plus what has gone since the period's end. -/
def Hw.heldEnd (h : Hw) (c : Nat) : Nat :=
  let n := h.flw.ledNext.getD c LedRow.zero
  h.holding c + n.outs - n.ins

/-- HELD_REPLAY of a class at the period's end. -/
def Hw.replayHeld (h : Hw) (c : Nat) : Nat := match h.flw.replayEnd with | some l => nth l c | none => h.holdingReplay c

/-- At the tick at which NT reaches the end of the running period the row closes to what happens from now on; HELD_REPLAY
is taken (R369, R370), and what the LEDGER record is stamped with (R189). -/
def Hw.markEnd (h : Hw) : Hw :=
  if h.flwWorks && h.timed && !h.pastEnd && h.periodEnd ≤ h.ns then
    { h with flw := { h.flw with replayEnd := some ((List.range 8).map h.holdingReplay), endStamp := some h.stampOwn } }
  else h

/-- The ledger of a class does not balance with what it holds (R372, R543). -/
def Hw.unbalanced (h : Hw) (c : Nat) : Bool := let l := h.flw.led.getD c LedRow.zero; l.ins != l.outs + h.heldEnd c

/-- A failed check: INVARIANT, and diagnostic 8 at the SAF page, which names the class and the difference (R372, R543). -/
def Hw.ledgerFail (h : Hw) (inj : Bool) (c : Nat) : Hw :=
  let l := h.flw.led.getD c LedRow.zero
  let d := (((l.ins : Nat) : Int) - ((l.outs + h.heldEnd c : Nat) : Int)).natAbs
  (Hw.raise { h with flw := { h.flw with lflags := h.flw.lflags ||| 8 } } 0x30 19).dangerous inj 8 4 c d

/-- The check of every class. -/
def Hw.checkLedger (h : Hw) : Hw :=
  if h.on R.SAF_CFG_LEDGER_DIS then h else
  (h.each ((List.range 8).filter h.unbalanced) fun h c => h.ledgerFail false c).diagRun 8

/-- One row of a LEDGER record. -/
def LedRow.bytes (l : LedRow) : List Nat :=
  [l.heldStart, l.produced, l.received, l.reclaimed, l.forwarded, l.delivered, l.duplicates, l.dropped, l.heldEnd, l.heldReplay].flatMap fun v =>
    le 4 (v % 2 ^ 32)

/-- This end or a peer reports TIME_LOST (R371). -/
def Hw.anyLost (h : Hw) : Bool := h.on R.TIM_STATUS_TIME_LOST || h.fab.links.any fun k => k.up && k.peerLost

/-- A period runs from `start` (ns): its number is that of the instant (R369). -/
def Hw.startPeriod (h : Hw) (start flags : Nat) : Hw :=
  Hw.s { h with flw := { h.flw with periodStart := start, lflags := flags ||| 4 * b2n h.anyLost } } R.FLW_PERIOD_PERIOD (start / max 1 h.periodNs % 2 ^ 32)

/-- LFLAGS of the period that ends (R374). -/
def Hw.ledgerFlags (h : Hw) : Nat :=
  h.flw.lflags ||| (4 * b2n h.anyLost) ||| (16 * b2n (h.on R.FLW_STAT_RESV_SHORT))

/-- Close the running period at `end_` (ns) and begin the next at `start`: the check, the LEDGER record, HELD_START of the next row. -/
def Hw.closePeriod (h : Hw) (end_ start flags : Nat) : Hw :=
  let h := h.checkLedger
  let rows := (List.range 8).map fun c =>
    { h.flw.led.getD c LedRow.zero with heldEnd := h.heldEnd c, heldReplay := h.replayHeld c }
  let drops := h.flw.drops
  let p := le 4 (h.g R.FLW_PERIOD_PERIOD) ++ le 2 (h.ledgerFlags ||| flags) ++ [0, 0] ++ le 8 h.flw.periodStart ++
    rows.flatMap (fun l => l.bytes) ++ (List.range 12).flatMap fun r => le 4 (nth drops (r + 1))
  let next := h.flw.ledNext
  let end_st := h.flw.endStamp
  let h := { h with flw := { h.flw with lastLed := rows, lastDrops := drops, drops := h.flw.dropsNext, dropsNext := List.replicate 16 0,
                                        led := (List.range 8).map fun c =>
                                          { next.getD c LedRow.zero with heldStart := (rows.getD c LedRow.zero).heldEnd },
                                        ledNext := List.replicate 8 LedRow.zero, replayEnd := none,
                                        endStamp := none } }
  let st := match end_st with | some x => { x with nt := end_ * 65536, frc := h.tickOf end_ } | none => h.stampOwnAt end_
  let loc := match h.prof with | .l => 0x0000 | _ => 0x1003
  let h := h.handOver [h.mkRec 0x40 1 loc h.ownGrade st p]
  (h.startPeriod start 0).raise 0x30 18

/-- The longest time that an ACK of the ended period may still be on its way (R370): the largest one-way delay of a link that is up. -/
def Hw.ackDelay (h : Hw) : Nat := (h.fab.links.map fun k => if k.up then k.delayNs else 0).foldl max 0

/-- LEDGER_PERIOD_CLOSE (R369, R374): past the period's boundary, once no ACK sent before it can still arrive (log entry 167). -/
def execLedgerPeriodClose (s : State) : Result := s.go fun h =>
  if h.flwWorks && h.timed && h.periodEnd + h.ackDelay ≤ h.ns then h.closePeriod h.periodEnd h.periodEnd 0 else h

/-- A period whose end has passed closes before the one that runs since then. -/
def Hw.closeEnded (h : Hw) : Hw := if h.pastEnd then h.closePeriod h.periodEnd h.periodEnd 0 else h

/-- A step of NT closes the running period at the step with STEPPED; the next is numbered from the new NT (R369). `old` and `new` are NT
before and after it (ns). -/
def Hw.stepPeriod (h : Hw) (old new : Nat) : Hw := if h.flwWorks then h.closeEnded.closePeriod old new 2 else h

/-! ### Rehoming and stepping (R375, R376) -/

/-- An instant since which something has held for `d` ns. -/
def Hw.since (h : Hw) (o : Option Nat) (d : Nat) : Bool := match o with | some t => decide (t + d ≤ h.frc) | none => false

/-- REHOME_MS and FAILBACK_MS in ns. -/
def Hw.rehomeNs (h : Hw) : Nat := h.g R.FLW_CFG_REHOME_MS * 1000000
def Hw.failbackNs (h : Hw) : Nat := h.g R.CUL_CFG_FAILBACK_MS * 1000000

/-- LEAF_REHOME (R375): PRESSURE on A for REHOME_MS, HEADROOM on B. -/
def execLeafRehome (s : State) : Result := s.go fun h =>
  if h.prof = .l ∧ h.running 0x30 ∧ h.g R.CUL_LEAF_ACTIVE = 1 ∧ !h.on R.FLW_STAT_REHOMED ∧ (h.link 0).up ∧ (h.link 1).up ∧
      h.since (h.flw.pressSince.getD 0 none) h.rehomeNs ∧ (h.flw.headSince.getD 1 none).isSome then
    (((h.s R.CUL_LEAF_ACTIVE 2).s R.FLW_STAT_REHOMED 1).raise 0x30 23).choice 12
  else h

/-- LEAF_REHOME_RETURN (R375): FAILBACK_MS without PRESSURE on A. -/
def execLeafRehomeReturn (s : State) : Result := s.go fun h =>
  if h.prof = .l ∧ h.on R.FLW_STAT_REHOMED ∧ (h.link 0).up ∧ h.since (h.flw.noPressSince.getD 0 none) h.failbackNs then
    (h.s R.CUL_LEAF_ACTIVE 1).s R.FLW_STAT_REHOMED 0
  else h

/-- The encoding in force with the steps down (R376): FRM_CFG ENC and the steps, at most summary. -/
def Hw.encoding (h : Hw) : Nat := min 2 (h.g R.FRM_CFG_ENC + h.cnt.stepDown)

/-- STEPPED_DOWN (R212): steps down keep the encoding in force below FRM_CFG ENC. -/
def Hw.showSteps (h : Hw) : Hw :=
  h.s R.FRM_STAT_STEPPED_DOWN (b2n ((h.cnt.stepDown != 0 || h.on R.FRM_STAT_STEPPED_DOWN) && h.g R.FRM_CFG_ENC < h.g R.FRM_STAT_ENC_ACTIVE))

/-- Set the number of steps down; it takes effect at the streams' next frame (R198). -/
def Hw.setSteps (h : Hw) (n : Nat) : Hw := (Hw.showSteps { h with cnt := { h.cnt with stepDown := n, stepFrc := h.frc } }).choice 11

/-- The home in use of a leaf by culvert. -/
def Hw.homeInUse (h : Hw) : Nat := if h.g R.CUL_LEAF_ACTIVE = 2 then 1 else 0

/-- PRESSURE has held for `d` ns without a way out (R376): on a leaf that of the home in use, the other home not usable or without HEADROOM
throughout; on a Boldal T its own. -/
def Hw.noRelief (h : Hw) (d : Nat) : Bool :=
  match h.prof with
  | .l =>
    let i := h.homeInUse
    h.since (h.flw.pressSince.getD i none) d && (!(h.link (1 - i)).up || !h.since (h.flw.headSince.getD (1 - i) none) d)
  | .t => h.on R.FLW_STAT_PRESSURE && decide (h.flw.pressFrc + d ≤ h.frc)
  | .g => false

/-- LEAF_ENC_STEP_DOWN (R376): one level after REHOME_MS, and one more after each further REHOME_MS. -/
def execLeafEncStepDown (s : State) : Result := s.go fun h =>
  if h.running 0x30 ∧ h.noRelief h.rehomeNs ∧ h.encoding < 2 ∧ (h.cnt.stepDown = 0 ∨ h.cnt.stepFrc + h.rehomeNs ≤ h.frc) then
    h.setSteps (h.cnt.stepDown + 1)
  else h

/-- No PRESSURE for FAILBACK_MS, at the home in use or here. -/
def Hw.calm (h : Hw) (d : Nat) : Bool :=
  match h.prof with
  | .l => h.since (h.flw.noPressSince.getD h.homeInUse none) d
  | _ => !h.on R.FLW_STAT_PRESSURE && decide (h.flw.pressFrc + d ≤ h.frc)

/-- LEAF_ENC_STEP_UP (R376): one level each time FAILBACK_MS pass without PRESSURE. -/
def execLeafEncStepUp (s : State) : Result := s.go fun h =>
  if 0 < h.cnt.stepDown ∧ h.calm h.failbackNs ∧ h.cnt.stepFrc + h.failbackNs ≤ h.frc then h.setSteps (h.cnt.stepDown - 1) else h

/-! ### Delivery (R378, R379) -/

/-- A function of this node takes the record when it arrives: a check, a reduction, a launch, the verdict engine's own records. -/
def Hw.takenHere (h : Hw) (x : HeldRec) : Bool :=
  let r := x.r
  h.contributes r || h.checkTakes r || h.takesSet x || (h.running 0x24 && r.typ == 0x28 && x.dst.isSome && nth r.payload 2 != 5) ||
    (r.typ == 0x31 && x.dst.isSome) || (h.running 0x44 && r.typ == 0x30 && nth r.payload 3 == 1 && r.source / 2 ^ 20 != h.nodeId)

/-- A write of the delivery ring of a class has no response yet. -/
def Hw.ringBusy (h : Hw) (c : Nat) : Bool := h.dma.any fun d => match d.purpose with | .ring k _ => k == c | _ => false

/-- The next record for the ring of a class. -/
def Hw.ringNext (h : Hw) (c : Nat) : Option HeldRec := h.flw.held.find? fun x => x.r.cls == c && h.arrived x && !h.takenHere x

/-- Where a record goes in the ring of a class: the filler bytes before it, its offset, the next tail; none while the ring lacks room. -/
def Hw.ringAt (h : Hw) (c : Nat) (r : Rec) : Option (Nat × Nat × Nat) :=
  ringPlace (1024 * h.g (R.DLV_SIZE_KIB.at c)) (h.g (R.DLV_HEAD_HEAD.at c)) (h.g (R.DLV_TAIL_TAIL.at c)) (roundUp r.size 64)

/-- DELIVERY_RING_WRITE (R378): a duplicate is discarded (R342); a record is written whole, with a filler where it would cross the end of the
ring. -/
def execDeliveryRingWrite (c : Nat) (s : State) : Result := s.go fun h =>
  if !h.flwWorks || h.ringBusy c then h else
  let h := h.coverLosses
  match h.ringNext c with
  | none => h
  | some x =>
    if h.duplicate x.r then (h.deliver x).1 else
    let base := h.g64 (R.DLV_BASE_LO_BASE.at c) (R.DLV_BASE_HI_BASE.at c)
    match h.ringAt c x.r with
    | none => h
    | some (fill, at_, _) =>
      let h := if fill = 0 then h else
        h.dmaWrite h.operCtx (base + h.g (R.DLV_TAIL_TAIL.at c)) (le 2 fill ++ List.replicate 14 0) (.filler 0x30)
      h.dmaWrite h.operCtx (base + at_) x.r.bytes (.ring c x.r)

/-- The write response of a delivery (R46, R378): the record is DELIVERED and the tail moves; with an error it is dropped. -/
def Hw.ringWritten (h : Hw) (c : Nat) (r : Rec) (ok : Bool) : Hw :=
  match h.flw.held.find? fun x => x.r.source == r.source && x.r.seq == r.seq && x.r.typ == r.typ with
  | none => h
  | some x =>
    if !ok then (h.release x).dropHeld x 7 E.dmaFault else
    let next := match h.ringAt c r with | some (_, _, t) => t | none => h.g (R.DLV_TAIL_TAIL.at c)
    ((h.deliver x).1.s (R.DLV_TAIL_TAIL.at c) next).raise 0x30 21

/-- ROUTE_WAIT_EXPIRY (R379): records whose destination has stayed unknown for FLW_ROUTE_WAIT are delivered here. -/
def execRouteWaitExpiry (s : State) : Result := s.go fun h =>
  if h.prof = .l ∨ !h.flwWorks then h else
  let due (x : HeldRec) : Bool := !h.arrived x && (h.route (h.dstOf x)).isNone && x.route.isEmpty &&
    decide (x.waitFrom + h.g R.FLW_ROUTE_WAIT_MS * 1000000 ≤ h.frc)
  let n := (h.flw.held.filter due).length
  if n = 0 then h else
  let me := h.g R.FAB_ID_NODE
  let h' := { h with flw := { h.flw with held := h.flw.held.map fun (x : HeldRec) => if due x then { x with dst := some me } else x } }
  (h'.add R.FLW_NOROUTE_COUNT n).raise 0x30 22

/-! ### The copy engine (R380) -/

/-- A HOST record of a payload (R204, R380). -/
def Hw.hostRec (h : Hw) (packed : Bool) (bytes : List Nat) : Hw :=
  let loc := match h.prof with | .l => 0x0030 | _ => 0x1000
  h.handOver [h.mkRec 0x12 1 loc (3 + 8 * b2n packed) h.stampOwn (padMul 4 bytes)]

/-- HOSTREC. -/
def Hw.descHostrec (h : Hw) (q : Nat) (d : DescWords) : Hw :=
  let n := dw d 2 0 12
  if 4080 < n then h.descFail q E.badDescriptor
  else if n = 0 then (h.hostRec (dw d 0 16 1 == 1) []).descDone q
  else h.descRead q (nth d 1) n

/-- COPY. -/
def Hw.descCopy (h : Hw) (q : Nat) (d : DescWords) : Hw :=
  if dw d 2 0 40 = 0 then h.descFail q E.badDescriptor else h.descRead q (nth d 1) (dw d 2 0 40)

/-- The source bytes of a copy engine's descriptor have arrived. A host-originated record whose bytes come while the firmware is paused waits, and is
read again once it runs (R538; log entry 192). -/
def Hw.copyArrived (h : Hw) (q : Nat) (d : DescWords) (bs : List Nat) : Hw :=
  if dw d 0 0 8 = 0x40 then (if h.firmware then (h.hostRec (dw d 0 16 1 == 1) bs).descDone q else h)
  else match h.started q with
    | some r => h.dmaWrite (h.qCtx q) (nth d 3) bs (.payload q r.index)
    | none => h

/-- COPY_HOSTREC (R380): a host-originated record waits while the firmware, which stamps it, is paused (R132, R538). -/
def execCopyHostrec (q : Nat) (s : State) : Result := s.go fun h => if !h.firmware then h else
  h.withDesc q 7 0x40 [(0, 16, 1), (1, 0, 64), (2, 0, 12)] fun h d => h.descHostrec q d

/-- COPY_BYTES (R380). -/
def execCopyBytes (q : Nat) (s : State) : Result := s.go fun h =>
  h.withDesc q 7 0x41 [(1, 0, 64), (2, 0, 40), (3, 0, 64)] fun h d => h.descCopy q d

end Sys2Proof.Machine
end

