-- ==== Sys2Proof/Machine/Shaper.lean ====
section
/-!
DEFINITION. Machine/Shaper.lean: tide gates (R384–R387) and the egress shaper (R381–R383).
-/
namespace Sys2Proof.Machine

/-! ### Gate lists -/

/-- List `g`. -/
def Hw.gateList (h : Hw) (g : Nat) : GateList := h.shp.lists.getD g GateList.off

/-- Store list `g`. -/
def Hw.putGates (h : Hw) (g : Nat) (l : GateList) : Hw := { h with shp := { h.shp with lists := setAt h.shp.lists g l } }

/-- The entry in force `t` units after the first began: its number, its gates, the units until its end; the last entry holds. -/
def entryAt : List (Nat × Nat) → Nat → Nat → Nat × Nat × Option Nat
  | [], i, _ => (i, 0xFF, none)
  | [e], i, _ => (i, e.1, none)
  | e :: r, i, t => if t < e.2 then (i, e.1, some (e.2 - t)) else entryAt r (i + 1) (t - e.2)

/-- The entry in force at an angle (R386), from the entry that begins at `start` on: starts saturate at 0xFFFF, and the last entry holds. -/
def entryAtAngle : List (Nat × Nat) → Nat → Nat → Nat → Nat × Nat × Option Nat
  | [], i, _, _ => (i, 0xFF, none)
  | [e], i, _, _ => (i, e.1, none)
  | e :: r, i, start, angle =>
    let next := min 0xFFFF (start + e.2)
    if angle < next then (i, e.1, some (next - angle)) else entryAtAngle r (i + 1) next angle

/-- The instants in a list's cycle in NT mode (R141, R385): ns since the cycle start in force, and until the next. After a step of NT backwards the
next is the one that the list's timer waits for; before the start already served stands its first entry (log entry 180). -/
def Hw.cycleNow (h : Hw) (g : Nat) (c : GateCfg) : Nat × Nat :=
  let served := (h.tim.timers.find? fun t => t.use == .gateList g).map fun t => t.next
  match served with
  | some n => if h.ns < n ∧ c.base < n then (h.ns - (n - c.cycle), n - h.ns) else ((h.ns - c.base) % c.cycle, c.cycle - (h.ns - c.base) % c.cycle)
  | none => ((h.ns - c.base) % c.cycle, c.cycle - (h.ns - c.base) % c.cycle)

/-- What a port that follows list `g` sees (R384–R386): the entry, its gates, whether FALLBACK is in force, the ns until its end. The end of an
angle entry is predicted from p_pred. -/
def Hw.gatesNow (h : Hw) (g : Nat) : Nat × Nat × Bool × Option Nat :=
  let l := h.gateList g
  let c := l.cfg
  let off : Nat × Nat × Bool × Option Nat := (0, c.fallback, true, none)
  if !h.running 0x34 then (0, h.g (R.SHP_GL_CFG_FALLBACK.at g), true, none)
  else if c.mode = 1 then
    if h.ns < c.base ∨ c.cycle = 0 ∨ !h.timed then off else
    let t := h.cycleNow g c
    let e := entryAt (c.entries.map fun x => (x.1, 16 * x.2)) 0 t.1
    (e.1, e.2.1, false, some (match e.2.2 with | some r => min r t.2 | none => t.2))
  else if c.mode = 2 then
    match l.a0, h.tracker c.tracker with
    | some a, some k =>
      if h.trkState c.tracker ≠ 3 then off else
      match l.hold with
      | some i => (i, (c.entries.getD i (0xFF, 0)).1, false, none)
      | none =>
        let e := entryAtAngle c.entries 0 a (h.angleOf k)
        (e.1, e.2.1, false, e.2.2.map fun r => r * k.pPred.toNat / 2 ^ 32)
    | _, _ => off
  else off

/-- The entry in force of list `g` ends now: a frame of queues 1–7 still in transmission on a port that follows it completes, and SHP_OVERRUN counts it
(R384, R392). -/
def Hw.gateOverrun (h : Hw) (g : Nat) : Hw :=
  h.each (h.fab.links.filter fun k => h.g (R.SHP_PCFG_GLIST.at k.port) == g + 1 && k.txQueue != 0 && h.frc < k.txEnd) fun h k =>
    ((h.inc (R.SHP_OVERRUN_COUNT.at k.port)).raise 0x34 17).onLink k.port fun k => { k with txEnd := 0 }

/-- Show list `g` in its status register; bit 0 of GATES is as the entry gives it, queue 0 being open in any case. -/
def Hw.showGates (h : Hw) (g : Nat) : Hw :=
  let x := h.gatesNow g
  let other := h.g (R.SHP_GL_STAT_ENTRY.at g) != x.1 || h.g (R.SHP_GL_STAT_FALLBACK_ON.at g) != b2n x.2.2.1
  let h := if other then h.gateOverrun g else h
  let h := ((h.s (R.SHP_GL_STAT_ENTRY.at g) x.1).s (R.SHP_GL_STAT_GATES.at g) x.2.1).s (R.SHP_GL_STAT_FALLBACK_ON.at g) (b2n x.2.2.1)
  h.s (R.SHP_GL_STAT_SWAP_PENDING.at g) (b2n (h.gateList g).pending.isSome)

/-- The timers that act for gate lists follow the lists in NT mode (R140, R385): one held timer each, its target the next cycle start. -/
def Hw.gateTimers (h : Hw) : Hw :=
  let cfg (l : GateList) : GateCfg := match l.pending with | some c => c | none => l.cfg
  let want := (List.range 2).filter fun g => (cfg (h.gateList g)).mode == 1
  let mine (t : Timer) : Bool := match t.use with | .gateList _ => true | _ => false
  let held := h.heldTimers 0x34
  let next (c : GateCfg) : Nat := if h.ns ≤ c.base then c.base else c.base + ceilDiv (h.ns - c.base) (max 1 c.cycle) * c.cycle
  let new := (want.zip held).map fun (x : Nat × Nat) =>
    let c := cfg (h.gateList x.1)
    (⟨x.2, 0x34, .gateList x.1, c.base, next c, c.cycle, false⟩ : Timer)
  { h with tim := { h.tim with timers := h.tim.timers.filter (fun t => !mine t) ++ new } }

/-- The pending list takes effect (R387); a timer that no list needs any longer stays claimed until the page is OFF (R98). -/
def Hw.gateSwap (h : Hw) (g : Nat) : Hw :=
  let l := h.gateList g
  match l.pending with
  | none => h
  | some c => (((h.putGates g ⟨c, none, 0, none, none⟩).gateTimers.raise 0x34 16).showGates g)

/-- A swap whose instant has come takes effect; a list that goes off needs no instant (log entry 50). -/
def Hw.gateRefresh (h : Hw) (g : Nat) : Hw :=
  let l := h.gateList g
  let due := match l.pending with | some c => c.mode == 0 || (c.mode == 1 && decide (l.at_ ≤ h.ns)) | none => false
  if due && h.running 0x34 then h.gateSwap g else h.showGates g

/-- The number that stands for the tracker of a schedule entry that fires by NT. -/
def ntTracker : Nat := 0xFFFF

/-- A firing from `t` starts a cycle of a list (R161, R386): its tracker's, or that of an NT entry, which has no tracker (log entry 154). -/
def GateCfg.heeds (c : GateCfg) (t : Nat) : Bool := c.mode == 2 && (c.tracker == t || t == ntTracker)

/-- A GATE entry of the schedule table fires for list `g` from tracker `t` at a published angle (R386). -/
def Hw.gateFire (h : Hw) (g t : Nat) : Hw :=
  let h := match (h.gateList g).pending with | some c => if c.heeds t then h.gateSwap g else h | none => h
  let l := h.gateList g
  if l.cfg.heeds t && h.running 0x34 then
    ((h.gateOverrun g).putGates g { l with a0 := some (match h.tracker l.cfg.tracker with | some k => h.angleOf k | none => 0), hold := none }).showGates g
  else h.incSat (R.SHP_GL_STAT_IGNORED.at g)

/-- A step mark of tracker `t`: the entry in force holds until the next firing (R386). `before` gives each list's entry just before the mark. -/
def Hw.gateMark (h : Hw) (t : Nat) (before : List Nat) : Hw :=
  h.each (List.range 2) fun h g =>
    let l := h.gateList g
    if l.cfg.mode = 2 ∧ l.cfg.tracker = t ∧ l.a0.isSome ∧ l.hold.isNone then (h.putGates g { l with hold := some (nth before g) }).showGates g
    else h

/-- GATE_ENTRY_CHANGE (R385, R386): the duration of an entry of list `g` has passed. -/
def execGateEntryChange (g : Nat) (s : State) : Result := s.go fun h => if g < 2 then h.gateRefresh g else h

/-- The shadow list `g`. -/
def Hw.shadowGates (h : Hw) (g : Nat) : GateCfg :=
  { mode := h.g (R.SHP_GL_CFG_MODE.at g), tracker := h.g (R.SHP_GL_CFG_TRACKER.at g), fallback := h.g (R.SHP_GL_CFG_FALLBACK.at g),
    base := h.g64 (R.SHP_GL_BASE_LO_NT.at g) (R.SHP_GL_BASE_HI_NT.at g), cycle := h.g (R.SHP_GL_CYCLE_NS.at g),
    entries := (List.range (h.g (R.SHP_GL_CFG_LEN.at g) + 1)).map fun e =>
      (h.g (R.SHP_GE_GATES.at (256 * g + e)), h.g (R.SHP_GE_DUR.at (256 * g + e))) }

/-- SHP_CMD GSWAP (R387): the checks, the timer's claim, then the swap waits for its instant; while the page is OFF the claim comes with its
enable. -/
def Hw.gswap (h : Hw) (g : Nat) : Tried :=
  let c := h.shadowGates g
  let trackerOn := bit (h.g (R.STP_TRK_EN_EN.at (c.tracker / 32))) (c.tracker % 32)
  if 3 ≤ c.mode ∨ (c.mode = 1 ∧ (c.cycle < 1000 ∨ 4000000000 < c.cycle)) ∨ (c.mode = 2 ∧ (h.prof = .g ∨ !trackerOn)) then .error E.badValue
  else
    let at_ := if h.ns ≤ c.base then c.base else c.base + ceilDiv (h.ns - c.base) (max 1 c.cycle) * c.cycle
    let h' := h.putGates g { h.gateList g with pending := some c, at_ := at_ }
    if h.off 0x34 then .ok (h'.gateRefresh g) else
    match h'.claim 0x34 [] (h'.needTimers 0x34) with
    | .ok x => .ok (x.gateTimers.gateRefresh g)
    | .error r => .error (E.held r)

/-- SHP_GSWAP (R387). -/
def execShpGswap (a : Acc) (g : Nat) (s : State) : Result := s.go fun h => h.operWrite a 0x34 0x0C0 fun h => h.gswap (g % 2)

/-! ### Egress (R381–R384) -/

/-- Where a held record leaves: the port and the rest of its path. -/
def Hw.exitOf (h : Hw) (x : HeldRec) : Option (Nat × List Nat) :=
  match h.prof with
  | .l => h.activeHome.map fun p => (p, [])
  | _ => h.wayTo (h.dstOf x) x.route

/-- Queue `c` of port `p`. -/
def Hw.egressQueue (h : Hw) (p c : Nat) : List HeldRec :=
  h.flw.held.filter fun x => x.r.cls == c && !h.arrived x && !h.contributes x.r && (match h.exitOf x with | some e => e.1 == p | none => false)

/-- The records of a queue's head frame: those from its head that share destination, path, builder's frame and REPLAY, within `room` bytes. -/
def takeFrame (h : Hw) (x0 : HeldRec) : Nat → List HeldRec → List HeldRec
  | _, [] => []
  | room, x :: t =>
    if h.dstOf x = h.dstOf x0 ∧ x.dst.isSome = x0.dst.isSome ∧ x.route = x0.route ∧ x.grp = x0.grp ∧ x.r.replay = x0.r.replay ∧ x.r.size ≤ room
    then x :: takeFrame h x0 (room - x.r.size) t else []

/-- The head frame of queue `c` of port `p`, with its records (R323, R326, R335, R381). A frame in transit keeps its builder; records of a leaf, which
has no node ID, leave in a frame that its home builds. -/
def Hw.headFrame (h : Hw) (p c : Nat) : Option (Frame × List HeldRec) :=
  match h.egressQueue p c with
  | [] => none
  | x0 :: t =>
    let rest := match h.exitOf x0 with | some e => e.2 | none => []
    let pfx := routePrefix rest
    let room := (if isCulvert p then 4608 else 4608 - fabricCover) - 16 - pfx.length
    let rs := x0 :: (takeFrame h x0 (room - x0.r.size) t)
    some ({ kind := 4, cls := c, replay := x0.r.replay, routed := !rest.isEmpty, src := if x0.grp = 0 ∨ x0.builder = 0 then h.frameSrc else x0.builder,
            dst := match h.prof with | .l => 0xFFF | _ => h.dstOf x0, hseq := 0, pfx := pfx, payload := rs.flatMap fun x => x.r.bytes }, rs)

/-- Credit outstanding in a class (R361). -/
def Link.outstanding (k : Link) (c : Nat) : Nat := total ((k.retained.filter fun t => t.kind == 4 && t.cls == c).map fun t => t.bytes.length)

/-- The retention store of a port (R340, R343, R344). -/
def Hw.storeSize (h : Hw) (p : Nat) : Nat := if isCulvert p then 2097152 else if h.longhaul p then 33554432 else 4194304

/-- Bytes in the retention store that a port uses, the records taken back with them: a leaf has one for both culverts. -/
def Hw.storeUse (h : Hw) (p : Nat) : Nat :=
  if isCulvert p then h.replayBytes else
  total (((h.link p).retained.filter fun t => t.kind == 4).map fun t => t.bytes.length) +
    total (h.flw.held.map fun x => if x.keptBy = some p then x.r.size else 0)

/-- Bytes that a frame newly asks of a port's retention store: none where its records are kept there already. -/
def storeNeed (p n : Nat) (rs : List HeldRec) : Nat :=
  if rs.all fun x => (match x.keptBy with | some q => q == p || (isCulvert p && isCulvert q) | none => false) then 0 else n

/-- Counted length of a frame (R382). -/
def Hw.counted (h : Hw) (p n : Nat) : Nat := linkBytes p n + h.g (R.SHP_PCFG_OVERHEAD.at p)

/-- The token bucket of a port now, in 1/8,000 byte (R383). -/
def Hw.bucketNow (h : Hw) (p : Nat) : Int :=
  let k := h.link p
  min (((h.g (R.SHP_BURST_BYTES.at p) * 8000 : Nat)) : Int) (k.bucket + (((h.frc - k.bucketFrc) * h.g (R.SHP_RATE_MBPS.at p) : Nat) : Int))

/-- The gate of queue `c` is open on port `p` (R384). -/
def Hw.gateOpen (h : Hw) (p c : Nat) : Bool :=
  if c = 0 then true else
  match h.g (R.SHP_PCFG_GLIST.at p) with
  | 0 => true
  | g => bit (h.gatesNow (g - 1)).2.1 c

/-- A frame of `len` counted bytes of queue `c` completes, at SHP_RATE, before the entry in force ends (R384). -/
def Hw.completes (h : Hw) (p c len : Nat) : Bool :=
  if c = 0 then true else
  match h.g (R.SHP_PCFG_GLIST.at p) with
  | 0 => true
  | g => match (h.gatesNow (g - 1)).2.2.2 with | some ns => decide (len * 8000 ≤ ns * h.g (R.SHP_RATE_MBPS.at p)) | none => true

/-- The bucket holds a frame's length: one of queue 0 and one with REPLAY do not ask it (R383). -/
def Hw.paid (h : Hw) (p c len : Nat) (replay : Bool) : Bool := c == 0 || replay || decide (((len * 8000 : Nat) : Int) ≤ h.bucketNow p)

/-- Queue `c` is eligible (R381): its gate is open, its head frame covered by credit and by room in the retention store. -/
def Hw.eligible (h : Hw) (p c : Nat) : Option (Frame × List HeldRec × Nat) :=
  match h.headFrame p c with
  | none => none
  | some (f, rs) =>
    let n := f.bytes.length
    if h.gateOpen p c && (h.link p).outstanding c + n ≤ h.window p c && h.storeUse p + storeNeed p n rs ≤ h.storeSize p
    then some (f, rs, h.counted p n) else none

/-- The PTP frame at the head of queue 2 of a fabric port (R127); it goes before the records there (log entry 162). -/
def Hw.ptpHead (h : Hw) (p c : Nat) : Option PtpWait := if isCulvert p || c ≠ 2 then none else (h.ptpPort (fabIndex p)).queue.head?

/-- The counted length of a PTP frame (R382): its bytes on the stream, in clear. -/
def Hw.ptpLen (h : Hw) (p : Nat) (w : PtpWait) : Nat := 14 + w.bytes.length + h.g (R.SHP_PCFG_OVERHEAD.at p)

/-- The counted length of the head frame of an eligible queue. -/
def Hw.headLen (h : Hw) (p c : Nat) : Option Nat :=
  match h.ptpHead p c with
  | some w => if h.gateOpen p 2 then some (h.ptpLen p w) else none
  | none => (h.eligible p c).map fun e => e.2.2

/-- The state of the deficit round robin while it looks for a queue. -/
structure Drr where
  rr : Nat
  deficit : List Nat
  fresh : List Nat
deriving DecidableEq, Repr

/-- The quantum of a queue (R392). -/
def Hw.quantum (h : Hw) (p q : Nat) : Nat :=
  if q % 2 = 0 then h.g (R.SHP_QUANTUM_QA.at (3 * p + (q - 2) / 2)) else h.g (R.SHP_QUANTUM_QB.at (3 * p + (q - 3) / 2))

/-- The selection of R382 among queues 2–7, from queue `q` on: `empty` and `len` describe the queues, `len` none where not eligible. -/
def drrSelect (quantum : Nat → Nat) (empty : Nat → Bool) (len : Nat → Option Nat) : Nat → Nat → Drr → Option Nat × Drr
  | 0, _, d => (none, d)
  | fuel + 1, q, d =>
    let next := if q = 7 then 2 else q + 1
    if empty q then drrSelect quantum empty len fuel next { d with deficit := setAt d.deficit q 0, fresh := setAt d.fresh q 1 }
    else match len q with
    | none => drrSelect quantum empty len fuel next d
    | some n =>
      let d := if nth d.fresh q = 1 then { d with deficit := bump d.deficit q (quantum q), fresh := setAt d.fresh q 0 } else d
      if n ≤ nth d.deficit q then (some q, { d with deficit := setAt d.deficit q (nth d.deficit q - n), rr := q })
      else drrSelect quantum empty len fuel next { d with fresh := setAt d.fresh q 1 }

/-- The queue that a port serves next (R381): queue 0, queue 1, then the deficit round robin. With no queue eligible the loop of R382 goes round once:
empty queues lose their deficit. -/
def Hw.selectQueue (h : Hw) (p : Nat) : Option Nat × Hw :=
  if (h.headLen p 0).isSome then (some 0, h)
  else if (h.headLen p 1).isSome then (some 1, h)
  else
    let k := h.link p
    let els := (List.range 8).map fun q => if q < 2 then none else h.headLen p q
    let emp := (List.range 8).map fun q => q < 2 || ((h.egressQueue p q).isEmpty && (h.ptpHead p q).isNone)
    let fuel := if els.all fun e => e.isNone then 6 else 900
    let r := drrSelect (h.quantum p) (fun q => emp.getD q true) (fun q => els.getD q none) fuel (max 2 k.rr) ⟨k.rr, k.deficit, k.fresh⟩
    (r.1, h.putLink { k with rr := r.2.rr, deficit := r.2.deficit, fresh := r.2.fresh })

/-- A frame of queue `c` and of `len` counted bytes starts on a port: the bucket is charged but for one with REPLAY, and the transmission lasts as
SHP_RATE gives (R383, R384). -/
def Hw.startFrame (h : Hw) (p c len : Nat) (replay : Bool) : Hw :=
  let b := h.bucketNow p
  let t := h.frc + ceilDiv (len * 8000) (max 1 (h.g (R.SHP_RATE_MBPS.at p)))
  let h := if replay then h else h.onLink p fun k => { k with bucket := b - ((len * 8000 : Nat) : Int), bucketFrc := h.frc }
  h.onLink p fun k => { k with txEnd := t, txQueue := c }

/-- When records of their streams last went out for the first time on a link (R336). -/
def Link.noteSources (k : Link) (now : Nat) (rs : List HeldRec) : Link :=
  let new := ((rs.filter fun x => x.firstSent.isNone).map fun x => x.r.source).eraseDups
  { k with sources := new.map (fun s => (s, now)) ++ k.sources.filter fun s => !new.contains s.1 }

/-- Send the head frame of a queue: its records leave the buffers for the retention store (R360, R381, R383). -/
def Hw.sendHead (h : Hw) (p c : Nat) (f : Frame) (rs : List HeldRec) (len : Nat) : Hw :=
  let h := h.startFrame p c len f.replay
  let h := h.each rs fun h x => h.release x
  let now := h.frc
  let h := h.onLink p fun k => k.noteSources now rs
  let out := rs.map fun (x : HeldRec) => { x with firstSent := match x.firstSent with | some t => some t | none => some now, keptBy := none }
  let n := (h.link p).freeSlot
  let h := h.sendRel p 4 c f.dst out f
  let h := if f.replay && isCulvert p then
      (h.add R.CUL_REPLAYED_COUNT rs.length).count 6 (0x030 + p) 0 rs.length
    else h
  if h.longhaul p then
    h.dmaWrite h.operCtx (h.slotAddr p n) f.bytes (.longhaul p)
  else h

/-- Send the PTP frame at the head of queue 2 (R127, R128): the correction of an event message takes the egress predicted now. -/
def Hw.sendWaiting (h : Hw) (p : Nat) (w : PtpWait) : Hw :=
  let i := fabIndex p
  let h := (h.startFrame p 2 (h.ptpLen p w) false).onPort i fun x => { x with queue := x.queue.drop 1 }
  if w.typ < 2 then h.ptpSend i 0 w.seq (w.bytes.take 8 ++ be 8 (unsigned 64 (w.base + (h.egress i : Int))) ++ w.bytes.drop 16)
  else h.ptpSend i 3 0 w.bytes

/-- The SHP page holds no queue closed: it does not abort, has not faulted, and has run since its last abort (R90, R94). -/
def Hw.shpOpen (h : Hw) : Bool := !h.shp.closed && h.state 0x34 != 5

/-- The queue that a port's selection names sends its head frame where that may start (R383, R384); else the port waits with the selection unmade
(log entry 181). -/
def Hw.serveQueue (h : Hw) (p : Nat) (q : Option Nat × Hw) : Hw :=
  match q.1 with
  | none => q.2
  | some c =>
    match q.2.ptpHead p c with
    | some w => if h.completes p 2 (h.ptpLen p w) && h.paid p 2 (h.ptpLen p w) false then q.2.sendWaiting p w else h
    | none =>
      match q.2.eligible p c with
      | some (f, rs, len) => if h.completes p c len && h.paid p c len f.replay then q.2.sendHead p c f rs len else h
      | none => q.2

/-- EGRESS_FRAME_SELECT (R381): an idle port selects a queue, builds a frame and sends it. A fabric port whose link or FLW page does not serve records
has PTP frames alone. -/
def execEgressFrameSelect (p : Nat) (s : State) : Result := s.go fun h =>
  if !h.shpOpen then h else
  let works := (h.link p).up && h.flwWorks
  let h := ((if works then h.coverLosses else h).gateRefresh 0).gateRefresh 1
  if works then h.serveQueue p (h.selectQueue p)
  else h.serveQueue p (if (h.ptpHead p 2).isSome && h.gateOpen p 2 then (some 2, h) else (none, h))

/-- The SHP page aborts: its queues are held closed until it runs again (R94). -/
def Hw.shpAbort (h : Hw) : Hw := Hw.dropTimers { h with shp := { h.shp with closed := true } } 0x34

/-- The SHP page enters RUNNING. -/
def Hw.shpRun (h : Hw) : Hw := Hw.gateTimers { h with shp := { h.shp with closed := false } }

end Sys2Proof.Machine
end

