-- ==== Sys2Proof/Machine/Frames.lean ====
section
/-!
DEFINITION. Machine/Frames.lean: latches of the counter set (R171–R178), the frame encodings with slot maps and key frames (R194–R199), and the
proxy leaves (R205–R210).
-/
namespace Sys2Proof.Machine

/-! ### Latches (R173–R176) -/

/-- The value of a gauge slot of a sensor channel (R172): MODE 1 the last result; 3 and 4 the largest and smallest since the latch. -/
def Hw.gaugeResult (h : Hw) (s : Slot) (v : Int) : Hw :=
  let old := signed 64 (h.slotVal s.num)
  let first := !h.cnt.touched.contains s.num
  let new := match s.mode with
    | 1 => v
    | 3 => if first then v else max old v
    | _ => if first then v else min old v
  let h := h.setSlot s.num (unsigned 64 new)
  if s.mode = 1 ∨ !first then h else { h with cnt := { h.cnt with touched := s.num :: h.cnt.touched } }

/-- A result of a sensor channel in every slot that names it (R171, R172). -/
def Hw.countSensor (h : Hw) (ch : Nat) (v : Int) : Hw :=
  if !h.counting then h else
  h.each (h.liveSlots.filter fun s => s.cls == 3 && s.index == ch) fun h s =>
    match s.mode with
    | 0 => h.setSlot s.num (h.slotVal s.num + 1)
    | 2 => h.setSlot s.num (unsigned 64 (signed 64 (h.slotVal s.num) + v))
    | _ => h.gaugeResult s v

/-- A latch (R173): the values of the nonzero slots at this tick, without the CNT_SOFT additions of this tick (R174). Latches of one tick
are one (R176). -/
def Hw.latch (h : Hw) : Hw × List (Nat × Nat) × Bool :=
  match h.cnt.lat with
  | some (f, vs, st) => if f = h.frc then (h, vs, st) else take
  | none => take
where
  take : Hw × List (Nat × Nat) × Bool :=
    let h := h.countBusy
    let soft := h.cnt.soft.filter fun x => x.2.2 == h.frc
    let vs := soft.foldl (fun (l : List (Nat × Nat)) x =>
      RegFile.put l x.1 (((RegFile.find l x.1).getD 0 + 2 ^ 64 - x.2.1 % 2 ^ 64) % 2 ^ 64)) h.cnt.vals
    let st := h.cnt.stopped
    ({ h with cnt := { h.cnt with lat := some (h.frc, vs, st), touched := [], stopped := false } }, vs, st)

/-! ### Frame streams (R194–R199) -/

/-- A frame stream, new where none has begun since the page entered RUNNING. -/
def Hw.frameStream (h : Hw) (p : Option Nat) (loc : Nat) : FrameStream :=
  (h.cnt.streams.find? fun f => f.proxy == p && f.loc == loc).getD ⟨p, loc, 0, none, 0, false, none, [], [], 0⟩

def Hw.putFrames (h : Hw) (f : FrameStream) : Hw :=
  { h with cnt := { h.cnt with streams := f :: h.cnt.streams.filter fun x => !(x.proxy == f.proxy && x.loc == f.loc) } }

/-- The slots of a set in set order (R178): the full set of the leaf, of a proxy leaf (log entry 53), or a partial set. -/
def Hw.setSlots (h : Hw) (f : FrameStream) : List Nat :=
  match f.proxy with
  | some _ => List.range 256
  | none => if f.loc = 1 then List.range 0x4000 else h.members (f.loc - 0x10)

/-- CNT_SRC of a slot of a stream. -/
def Hw.streamSrc (h : Hw) (f : FrameStream) (slot : Nat) : Nat :=
  match f.proxy with | some p => h.proxySrc p slot | none => h.srcWord slot

/-- The flags of a stream's records: GRADE, and PROXY (R181, R205). -/
def FrameStream.flags (f : FrameStream) : Nat := match f.proxy with | some _ => 6 | none => 0

/-- A record of a frame stream's leaf or proxy leaf. -/
def Hw.frameRec (h : Hw) (f : FrameStream) (typ cls loc : Nat) (st : Stamp) (payload : List Nat) : Rec :=
  { typ := typ, flags := f.flags, source := h.frameSource f.proxy loc, seq := 0, tdelta := 0, payload := payload, cls := cls, stamp := st,
    yellow := false, replay := false }

/-- Pieces of at most `n` elements with their positions; one empty piece of nothing. -/
def pieces (n : Nat) (l : List (List Nat)) : List (Nat × Nat × List Nat) :=
  if l.isEmpty then [(0, 0, [])] else
  (List.range (ceilDiv l.length n)).map fun i => let c := (l.drop (n * i)).take n; (n * i, c.length, c.flatten)

/-- The slot map of a stream, before its first frame since the CNT page entered RUNNING (R199). The control stream emits it at once: no path can
hand an earlier record over, once a ledger period that has ended is closed. DESIGN CHOICE: the map of a partial set lists the set's members, and
FIRST counts places in the set (log entry 179). -/
def Hw.slotMap (h : Hw) (f : FrameStream) (st : Stamp) : Hw :=
  if h.cnt.mapped.contains (f.proxy, f.loc) then h else
  let h := if h.flwWorks && h.timed && h.periodEnd ≤ h.ns then h.closePeriod h.periodEnd h.periodEnd 0 else h
  let h := { h with cnt := { h.cnt with mapped := (f.proxy, f.loc) :: h.cnt.mapped } }
  let es := (h.setSlots f).map fun n =>
    le 4 (h.streamSrc f n) ++ le 2 (match f.proxy with | some _ => 0 | none => h.g (R.CNT_SETS_MASK.at n)) ++ [0, 0]
  let h : Hw := h.handOver (contFlags ((pieces 509 es).map fun c => h.frameRec f 0x11 2 0 st (le 2 c.1 ++ le 2 c.2.1 ++ c.2.2)))
  let src := h.frameSource f.proxy 0
  h.releaseStream src true (h.stream src).held.length

/-- 7 bits a byte, the least significant group first (R196). -/
def varintBytes : Nat → Nat → List Nat
  | 0, _ => []
  | n + 1, v => if v < 128 then [v] else (v % 128 + 128) :: varintBytes n (v / 128)

/-- The delta codes of values against their reference, one byte string a slot (R196). -/
def deltaCodes (vals ref : List Nat) : List (List Nat) :=
  List.zipWith (fun v r => varintBytes 10 (zig ((v + 2 ^ 64 - r % 2 ^ 64) % 2 ^ 64))) vals ref

/-- Pieces of a delta frame: as many slots as fit in 4,064 bytes (R196). -/
def deltaPieces : List (List Nat) → Nat → Nat → List Nat → List (Nat × Nat × List Nat)
  | [], first, n, acc => [(first, n, acc)]
  | c :: t, first, n, acc =>
    if 4064 < acc.length + c.length then (first, n, acc) :: deltaPieces t (first + n) 1 c
    else deltaPieces t first (n + 1) (acc ++ c)

/-- The bytes of a frame's records. -/
def piecesSize (ps : List (Nat × Nat × List Nat)) : Nat := total (ps.map fun p => 32 + roundUp p.2.2.length 4)

/-- The least and the greatest of a list of integers. -/
def least (l : List Int) : Int := match l with | [] => 0 | x :: t => t.foldl min x
def greatest (l : List Int) : Int := match l with | [] => 0 | x :: t => t.foldl max x

/-- Differences of consecutive values modulo 2^64. -/
def increments : Nat → List Nat → List Int
  | _, [] => []
  | p, v :: t => (((v + 2 ^ 64 - p % 2 ^ 64) % 2 ^ 64 : Nat) : Int) :: increments v t

/-- One entry of a summary frame (R197): the increments of a counting slot, the values of a gauge; CNT leaves out captures flagged STOPPED
and stale segments. -/
def summaryEntry (src base : Nat) (vals : List Nat) (counted : Nat) : List Nat :=
  let xs := if srcGauge src then vals.map (signed 64) else increments base vals
  le 8 (unsigned 64 (least xs)) ++ le 8 (unsigned 64 (greatest xs)) ++ le 12 (unsigned 96 (xs.foldl (· + ·) 0)) ++ le 4 counted

/-- A capture counts for a slot (R197). -/
def Cap.counts (c : Cap) (src : Nat) : Bool := !c.stopped && !(src % 16 == 8 && bit c.stale (bits src 4 12))

/-- Emit one frame (R194): its records with CONT, one FRAME_NO, one event time. -/
def Hw.emitFrame (h : Hw) (f : FrameStream) (enc x span : Nat) (stopped stale skew : Bool) (st : Stamp) (ps : List (Nat × Nat × List Nat)) :
    Hw × FrameStream :=
  let set := if f.loc = 1 then 0xFF else f.loc - 0x10
  let eb := enc + 16 * b2n stopped + 32 * b2n stale + 64 * b2n skew
  let last := ps.length - 1
  let rs := ps.zipIdx.map fun p => h.frameRec f 0x10 3 f.loc st
    (le 4 f.frameNo ++ le 2 p.1.1 ++ le 2 p.1.2.1 ++ [eb + 8 * b2n (p.2 == last), set] ++ le 2 x ++ le 4 span ++ p.1.2.2)
  let f := { f with frameNo := succ32 f.frameNo }
  let h := if f.loc = 1 then h.inc R.FRM_FRAMES_COUNT else h.inc R.FRM_PFRAMES_COUNT
  ((h.putFrames f).handOver (contFlags rs), f)

/-- Emit the summary of the captures that a stream holds (R197). -/
def Hw.flushFrames (h : Hw) (f : FrameStream) : Hw × FrameStream :=
  match f.caps.getLast? with
  | none => (h, f)
  | some c =>
    let es := (h.setSlots f).zipIdx.map fun s =>
      let src := h.streamSrc f s.1
      summaryEntry src (nth f.base s.2) (f.caps.map fun k => nth k.vals s.2) (f.caps.filter fun k => k.counts src).length
    let ns := c.stamp.nt / 65536
    let r := h.emitFrame f 2 f.caps.length (min (ns - f.baseNs) (2 ^ 32 - 1)) (f.caps.any fun k => k.stopped)
      (f.caps.any fun k => k.stale != 0) false c.stamp (pieces 127 es)
    let f := { r.2 with caps := [], base := c.vals, baseNs := ns, since := r.2.since + 1, lost := (r.1.frameStream f.proxy f.loc).lost }
    (r.1.putFrames f, f)

/-- A capture of a stream is encoded (R194–R199). -/
def Hw.encode (h : Hw) (f : FrameStream) (c : Cap) : Hw :=
  let h := h.slotMap f c.stamp
  let want := h.encoding
  let h := if h.g R.FRM_STAT_ENC_ACTIVE = want then h else (h.s R.FRM_STAT_ENC_ACTIVE want).showSteps.raise 0x09 17
  let key := f.ref.isNone || (f.enc.isSome && f.enc != some want) || f.lost || h.g R.FRM_CFG_KEY_EVERY ≤ f.since
  let hf := if key then h.flushFrames f else (h, f)
  let h := hf.1
  let f := { hf.2 with enc := some want, lost := false }
  let full := pieces 508 (c.vals.map (le 8))
  let asKey (h : Hw) (f : FrameStream) : Hw × FrameStream :=
    let r := h.emitFrame f 0 c.stale c.span c.stopped (c.stale != 0) c.skew c.stamp full
    (r.1, { r.2 with since := 0, caps := [], base := c.vals, baseNs := c.stamp.nt / 65536 })
  let hf := match want with
    | 0 => asKey h f
    | 1 =>
      let ps := deltaPieces (deltaCodes c.vals (f.ref.getD [])) 0 0 []
      if key then asKey h f
      else if piecesSize full < piecesSize ps then asKey (h.inc R.FRM_KEY_FORCED_COUNT) f
      else
        let r := h.emitFrame f 1 c.stale c.span c.stopped (c.stale != 0) c.skew c.stamp ps
        (r.1, { r.2 with since := r.2.since + 1 })
    | _ =>
      if key then asKey h f else
      let f := { f with caps := f.caps ++ [c] }
      if h.g R.FRM_CFG_SUM_N ≤ f.caps.length then h.flushFrames f else (h, f)
  let lost := (hf.1.frameStream f.proxy f.loc).lost
  hf.1.putFrames { hf.2 with ref := some c.vals, lost := lost }

/-! ### Captures (R176, R177) -/

/-- A skipped capture (R177). -/
def Hw.skipCapture (h : Hw) (full limit : Bool) : Hw :=
  let h := if full then h.inc R.FRM_SKIP_FULL_COUNT else h.inc R.FRM_SKIP_PART_COUNT
  let h := (h.raise 0x09 16).count 6 (if full then 0x040 else 0x041) 0 1
  if limit then h.choice 6 else h

/-- A latch of the leaf encoded in one of its streams. -/
def Hw.captureInto (h : Hw) (loc : Nat) : Hw :=
  let l := h.latch
  let f := l.1.frameStream none loc
  l.1.encode f ⟨(l.1.setSlots f).map fun n => (RegFile.find l.2.1 n).getD 0, l.2.2, 0, false, 0, l.1.stampAt 0 0⟩

/-- A capture that is requested on a Boldal L (R176, R177): the full set, or a partial set. One requested while a page of the two is not
RUNNING is ignored. -/
def Hw.capture (h : Hw) (set : Option Nat) : Hw :=
  if !h.running 0x09 || !h.running 0x08 then h
  else if !h.timed then h.skipCapture set.isNone false
  else match set with
    | none =>
      if (match h.cnt.lastFull with | some f => decide (h.frc < f + 400000) | none => false) then h.skipCapture true true
      else Hw.captureInto { h with cnt := { h.cnt with lastFull := some h.frc } } 1
    | some k =>
      if h.cnt.tokens = 0 then h.skipCapture false true
      else Hw.captureInto { h with cnt := { h.cnt with tokens := h.cnt.tokens - 1 } } (0x10 + k % 16)

/-! ### Proxy leaves (R205–R210) -/

def Hw.proxyOf (h : Hw) (p : Nat) : Proxy := (h.proxy p).getD ⟨p, List.replicate 256 0, List.replicate 256 0, none, none, false, Stamp.zero⟩

def Hw.putProxy (h : Hw) (x : Proxy) : Hw :=
  { h with prx := { h.prx with proxies := x :: h.prx.proxies.filter fun y => y.num != x.num } }

/-- A poll is skipped (R208); by a limit, it is a choice (R281). -/
def Hw.skipPoll (h : Hw) (p : Nat) (limit : Bool) : Hw :=
  let h := (h.inc (R.PRX_SKIP_COUNT.at p)).raise 0x0A 17
  if limit then h.choice 7 else h

/-- A poll of a proxy leaf falls due (R176, R208): less than 4 ms after the previous accepted one it is skipped; one that still waits is
skipped for it. -/
def Hw.pollDue (h : Hw) (p : Nat) : Hw :=
  if !h.running 0x09 || !h.running 0x08 || !h.running 0x0A || !h.on (R.PRX_DIE_EN.at p) then h
  else if !h.timed then h.skipPoll p false
  else
    let x := h.proxyOf p
    if (match x.lastPoll with | some f => decide (h.frc < f + 4000000) | none => false) then h.skipPoll p true
    else
      let h := if x.due.isSome then h.skipPoll p true else h
      h.putProxy { x with due := some h.frc, lastPoll := some h.frc }

/-- Every proxy leaf in service, or those bound to tracker `t`, is to be polled (R162, R176). -/
def Hw.pollAll (h : Hw) (t : Option Nat) : Hw :=
  h.each ((List.range 128).filter fun p => h.on (R.PRX_DIE_EN.at p) &&
    (match t with | some t => h.g (R.PRX_DIE_TRACKER.at p) == t | none => true)) fun h p => h.pollDue p

/-- A full capture: a latch of the leaf, or on a Boldal T the polls (R161, R176). DESIGN CHOICE: an NT entry, which has no tracker, polls every
proxy leaf in service (R162; log entry 177). -/
def Hw.captureFull (h : Hw) (t : Option Nat) : Hw :=
  match h.prof with | .l => h.capture none | .t => h.pollAll t | .g => h

/-- The waiting polls of a bus, the one that fell due first in front (R208). -/
def Hw.waiting (h : Hw) (b : Nat) : Option Proxy :=
  (h.prx.proxies.filter fun x => h.g (R.PRX_DIE_BUS.at x.num) == b && x.due.isSome).foldl (fun (m : Option Proxy) x =>
    match m with | none => some x | some y => if x.due.getD 0 < y.due.getD 0 then some x else some y) none

/-- The bus carries a poll. -/
def Hw.busBusy (h : Hw) (b : Nat) : Bool := h.prx.proxies.any fun x => x.busy && h.g (R.PRX_DIE_BUS.at x.num) == b

/-- The transaction of a poll (R75, R205, R207): the die's address, the bus's mode, packet error checking, the latch write, and the reads as
(register, registers, bytes of one). -/
def Hw.pollOut (h : Hw) (b p : Nat) : Out :=
  let latch := if h.g (R.PRX_DIE_LATCH_MODE.at p) = 1 then some (h.g (R.PRX_LATCH_REG.at p), h.g (R.PRX_LATCH_VAL.at p)) else none
  .busPoll b p (h.g (R.PRX_DIE_ADDR.at p)) (h.g (R.PRX_BUS_CFG_MODE.at b)) (h.on (R.PRX_BUS_CFG_PEC.at b)) latch
    ((h.segments p).map fun s => let i := p * 16 + s.1; (h.g (R.PRX_SEG_REG.at i), h.g (R.PRX_SEG_COUNT.at i), 2 ^ h.g (R.PRX_SEG_WIDTH.at i)))

/-- The stamp of a poll: every field as at the stamped edge, which for a latch write LATCH_DLY moves (R189, R207). -/
def Hw.pollStamp (h : Hw) (p : Nat) : Stamp :=
  let dly : Int := if h.g (R.PRX_DIE_LATCH_MODE.at p) = 1 then signed 16 (h.g (R.PRX_LATCH_DLY_DLY.at p)) else 0
  { Hw.stampAt { h with frc := ((h.frc : Int) + dly).toNat } (h.g (R.PRX_DIE_TRACKER.at p)) 1 with
    nt := unsigned 80 ((h.nt : Int) + dly * 65536) }

/-- The proxies work: page PRX is RUNNING or drains; in FAULTED the function has stopped (R90). -/
def Hw.prxWorks (h : Hw) : Bool := h.running 0x0A || h.state 0x0A == 3 || h.state 0x0A == 6

/-- PROXY_POLL_START (R207, R208): the poll of bus `b` that fell due first starts, in a drain too (R87); the frame time is the stamped edge, of
the latch write corrected by LATCH_DLY, or of the first read. -/
def execProxyPollStart (b : Nat) (s : State) : Result := s.go fun h =>
  if h.prof ≠ .t || !h.prxWorks || h.busBusy b then h else
  match h.waiting b with
  | none => h
  | some x => (h.putProxy { x with due := none, busy := true, stamp := h.pollStamp x.num }).emit (h.pollOut b x.num)

/-- The raw values of a segment's bytes: `w` bytes each, in the die's byte order (R205). -/
def rawValues (w n : Nat) (big : Bool) (bs : List Nat) : List Nat :=
  (List.range n).map fun i => if big then fldBe bs (w * i) w else fld bs (w * i) w

/-- The slots of a segment that has been read (R206); they count where `counts`, the CNT page being RUNNING (R171). -/
def Proxy.widen (x : Proxy) (first bits_ : Nat) (gauge counts : Bool) (raws : List Nat) : Proxy :=
  raws.zipIdx.foldl (fun x r =>
    let i := first + r.2
    let v := if !counts then nth x.vals i else if gauge then r.1 else nth x.vals i + (r.1 + 2 ^ bits_ - nth x.raws i % 2 ^ bits_) % 2 ^ bits_
    { x with raws := setAt x.raws i r.1, vals := setAt x.vals i (v % 2 ^ 64) }) x

/-- One segment of a poll: its bytes, or none where its retry failed (R209): the proxy leaf, the mask of stale segments. -/
def Hw.readSegs (h : Hw) (p : Nat) : List (Nat × Nat) → Nat → List (Option (List Nat)) → Proxy → Nat → Proxy × Nat
  | [], _, _, x, m => (x, m)
  | (s, n) :: t, first, bs, x, m =>
    let i := p * 16 + s
    let w := 2 ^ h.g (R.PRX_SEG_WIDTH.at i)
    match (bs[s]?).join with
    | some b => h.readSegs p t (first + n) bs (x.widen first (8 * w) (h.on (R.PRX_SEG_GAUGE.at i)) h.counting (rawValues w n (h.on (R.PRX_SEG_BIG.at i)) b)) m
    | none => h.readSegs p t (first + n) bs x (m + 2 ^ s)

/-- A poll in which every segment failed (R209). -/
def Hw.pollFailed (h : Hw) (p : Nat) : Hw :=
  let h := (h.inc (R.PRX_FAIL_COUNT.at p)).incSat (R.PRX_STAT_FAIL_RUN.at p)
  let h := h.putFrames { h.frameStream (some p) 1 with lost := true }
  if 16 ≤ h.g (R.PRX_STAT_FAIL_RUN.at p) ∧ !h.on (R.PRX_STAT_UNREACHABLE.at p) then
    let h := (h.s (R.PRX_STAT_UNREACHABLE.at p) 1).raise 0x0A 16
    let key := h.nodeId * 128 + p
    Hw.advise { h with agt := { h.agt with unreachable := key :: h.agt.unreachable } } key
  else h

/-- What a sync record of a stream is stamped with now, and the flags of the stream's records (R188–R190). -/
def Hw.syncStamp (h : Hw) (src : Nat) : Stamp × Nat :=
  match h.prof with
  | .l => (h.stampAt 0 0, 0)
  | _ =>
    if bit src 12 then (if localOf src = 0x1020 then h.stampSteps else h.stampNode, 0)
    else (h.stampAt (h.g (R.PRX_DIE_TRACKER.at (src / 2 ^ 13 % 128))) 1, 6)

/-- A poll of the proxy leaf whose stream `src` is, is under way: its frame has an earlier event time than a sync of this instant (R184). -/
def Hw.polling (h : Hw) (src : Nat) : Bool :=
  h.prof == .t && !bit src 12 && (match h.proxy (src / 2 ^ 13 % 128) with | some x => x.busy | none => false)

/-- A sync record of a stream at this instant (R189). Where a record of an earlier event time may still come, it waits in the stream (R184, R580);
else it follows the records that the stream holds. -/
def Hw.syncStream (h : Hw) (src : Nat) : Hw :=
  if !h.timed then h else
  let s := h.stream src
  let x := h.syncStamp src
  if h.polling src || h.pathBefore src x.1 then
    h.putStream { s with held := insertByTime { h.syncRec s x.1 x.2 with flags := x.2 } s.held }
  else
    let h := h.releaseStream src true s.held.length
    h.emitSync (h.stream src) x.1 x.2

/-- A poll is over: what its streams held behind it goes on. -/
def Hw.pollOver (h : Hw) (p : Nat) : Hw :=
  h.each ((h.flw.streams.filter fun s => !bit s.source 12 && s.source / 2 ^ 13 % 128 == p).map fun s => s.source) fun h src =>
    h.releaseStream src true (h.stream src).held.length

/-- PROXY_POLL_COMPLETE (R206, R207, R209): the bytes of each segment (none where it failed its retry) and the ns from the first to the last
read. A transaction that was under way when PRX stopped only frees its bus (R95). -/
def execProxyPollComplete (p : Nat) (segs : List (Option (List Nat))) (span : Nat) (s : State) : Result := s.go fun h =>
  let x := h.proxyOf p
  if h.prof = .t ∧ x.busy = false ∧ h.prx.ending.contains p then
    { h with prx := { h.prx with ending := h.prx.ending.filter fun q => q != p } }
  else if h.prof ≠ .t || !x.busy then h
  else if !h.prxWorks then (h.putProxy { x with busy := false }).pollOver p else
  let ss := h.segments p
  let r := h.readSegs p ss 0 segs { x with busy := false } 0
  let bad := (ss.filter fun s => bit r.2 s.1).length
  let h := { h with trc := { h.trc with polled := p :: h.trc.polled } }
  let h := ((h.putProxy r.1).inc (R.PRX_POLLS_COUNT.at p)).add (R.PRX_STALE_COUNT.at p) bad
  if !ss.isEmpty && bad == ss.length then (h.pollFailed p).pollOver p else
  let h := (h.s (R.PRX_STAT_FAIL_RUN.at p) 0).s (R.PRX_STAT_UNREACHABLE.at p) 0
  let key := h.nodeId * 128 + p
  let h := { h with agt := { h.agt with unreachable := h.agt.unreachable.filter (· != key) } }
  if !h.running 0x09 || !h.running 0x08 then h.pollOver p else
  let latch := h.g (R.PRX_DIE_LATCH_MODE.at p) == 1
  h.encode (h.frameStream (some p) 1) ⟨r.1.vals, false, r.2, !latch, if latch then 0 else min span (2 ^ 32 - 1), r.1.stamp⟩ |>.pollOver p

/-! ### The pages -/

/-- CNT enters STARTING (R171): every slot is cleared. -/
def Hw.cntStart (h : Hw) : Hw :=
  { h with cnt := { h.cnt with vals := [], touched := [], soft := [], lat := none },
           prx := { h.prx with proxies := h.prx.proxies.map fun (x : Proxy) => { x with vals := List.replicate 256 0 } } }

/-- CNT enters RUNNING: busy ticks count from here, and slot maps go out anew (R199). -/
def Hw.cntRun (h : Hw) : Hw :=
  { h with cnt := { h.cnt with mapped := [], busy := h.cnt.busy.map fun (b : Nat × Int × Nat) => (b.1, b.2.1, h.frc) } }

/-- The sources of the streams that the FRM page of this part produces: frames, and the slot maps of proxy leaves (R199, R205). -/
def Hw.frameSources (h : Hw) : List Nat :=
  match h.prof with
  | .l => h.source 1 :: (List.range 16).map fun k => h.source (0x10 + k)
  | _ => (List.range 128).flatMap fun p => [h.proxySource p 1, h.proxySource p 0]

/-- FRM enters RUNNING (R177, R183, R194): streams, budget and sequence numbers begin anew. -/
def Hw.frmRun (h : Hw) : Hw :=
  { h with cnt := { h.cnt with streams := [], tokens := 8, tokenFrc := h.frc, lastFull := none },
           flw := { h.flw with streams := h.flw.streams.filter fun s => !h.frameSources.contains s.source } }

/-- FRM drains (R197): pending summaries go out with what they have. -/
def Hw.frmDrain (h : Hw) : Hw := h.each h.cnt.streams fun h f => (h.flushFrames f).1

/-- A record of this part's own frame streams that is still here and was never sent. -/
def Hw.heldFrame (h : Hw) (x : HeldRec) : Bool :=
  x.src.isNone && x.firstSent.isNone && x.r.typ != 0x02 && h.frameSources.contains x.r.source

/-- FRM aborts (R89, R94, R197): the captures held are discarded without a record, the encoded records that are held are dropped with ABORTED,
and the stream's next frame is a key frame. -/
def Hw.frmAbort (h : Hw) : Hw :=
  let stop (f : FrameStream) : FrameStream := { f with lost := f.lost || !f.caps.isEmpty, caps := [] }
  let h := { h with cnt := { h.cnt with streams := h.cnt.streams.map stop } }
  h.each (h.flw.held.filter h.heldFrame) fun h x => (h.release x).dropHeld x 6 E.aborted

/-- PRX stops (R94, R95): the polls that wait are dropped, and its buses end what they carry. -/
def Hw.prxStop (h : Hw) : Hw :=
  { h with prx := { proxies := h.prx.proxies.map fun (x : Proxy) => { x with due := none, busy := false },
                    ending := h.prx.ending ++ (h.prx.proxies.filter fun x => x.busy).map fun x => x.num } }

/-- PRX enters RUNNING: on an I3C bus the controller assigns the dynamic addresses of the dies in service (R75, R213). DESIGN
CHOICE: one output names the assignment, whether the die takes it by ENTDAA or by SETDASA (log entry 143). -/
def Hw.prxRun (h : Hw) : Hw :=
  h.each ((List.range 16).filter fun b => h.g (R.PRX_BUS_CFG_MODE.at b) == 1) fun h b =>
    let ps := (List.range 128).filter fun p => h.on (R.PRX_DIE_EN.at p) && h.on (R.PRX_DIE_DYN.at p) && h.g (R.PRX_DIE_BUS.at p) == b
    if ps.isEmpty then h else h.emit (.busAssign b (ps.map fun p => h.g (R.PRX_DIE_ADDR.at p)))

/-! ### Commands -/

/-- FRM_CMD (R176, R189): CAPTURE_FULL, CAPTURE_SET of SET, SYNC. -/
def Hw.frmCmd (h : Hw) (full set sync : Bool) (k : Nat) : Tried :=
  if (full || set || sync) && !h.running 0x09 then .error E.badState else
  let h := if full then h.captureFull none else h
  let h := if set && decide (h.prof = .l) then h.capture (some k) else h
  .ok (if sync then h.each (h.flw.streams.map fun s => s.source) fun h src => h.syncStream src else h)

/-- FRM_CAPTURE_FULL (R176). -/
def execFrmCaptureFull (a : Acc) (s : State) : Result := s.go fun h => h.hostWrite a 0x09 0x048 false fun h => h.frmCmd true false false 0

/-- FRM_CAPTURE_SET (R176). -/
def execFrmCaptureSet (a : Acc) (set : Nat) (s : State) : Result :=
  s.go fun h => h.hostWrite a 0x09 0x048 false fun h => h.frmCmd false true false (set % 16)

/-- FRM_SYNC (R189). -/
def execFrmSync (a : Acc) (s : State) : Result := s.go fun h => h.hostWrite a 0x09 0x048 false fun h => h.frmCmd false false true 0

/-- PARTIAL_TOKEN_REFILL (R177): one token every 25 µs, at most 8. -/
def execPartialTokenRefill (s : State) : Result := s.go fun h =>
  if h.running 0x09 && h.cnt.tokenFrc + 25000 ≤ h.frc then
    { h with cnt := { h.cnt with tokens := min 8 (h.cnt.tokens + 1), tokenFrc := h.cnt.tokenFrc + 25000 } }
  else h

/-- CNT_SOFT (R174, R211). -/
def Hw.softAdd (h : Hw) (v : Nat) : Tried :=
  let n := h.g R.CNT_SOFT_SLOT_SLOT
  if h.prof ≠ .l ∨ h.g (R.CNT_SRC_CLASS.at n) ≠ 7 then .error E.badValue
  else if !h.running 0x08 then .error E.badState
  else
    let h := h.setSlot n (h.slotVal n + v)
    .ok { h with cnt := { h.cnt with soft := (n, v, h.frc) :: h.cnt.soft.filter fun x => x.2.2 == h.frc } }

/-- CNT_SOFT_WRITE (R174): a 32-bit write at 0x058 adds its value zero-extended; one at 0x05C alone gets a bus error (R42, R211). -/
def execCntSoftWrite (a : Acc) (v : Nat) (s : State) : Result := s.go fun h => h.hostWrite a 0x08 0x058 false fun h => h.softAdd (v % 2 ^ 64)

end Sys2Proof.Machine
end

