-- ==== Sys2Proof/Machine/Trackers.lean ====
section
/-!
DEFINITION. Machine/Trackers.lean: the step trackers (R145–R158) and the schedule table (R159–R167).
-/
namespace Sys2Proof.Machine

/-! ### Trackers -/

/-- A tracker that has seen nothing since the core domain's reset. -/
def Tracker.blank (t : Nat) : Tracker :=
  { num := t, seen := false, index := 0, loadIndex := none, fLast := 0, pPred := 0, d := 0, outRun := 0, outSign := 0, phase0 := 0,
    phaseFrc := 0, w := 0, pub := 0, stallFrc := 0, stallAcq := false, stallReason := 0, fired := [], marks := [], refs := [],
    armed := true }

def Hw.trackerOf (h : Hw) (t : Nat) : Tracker := (h.tracker t).getD (Tracker.blank t)

def Hw.putTracker (h : Hw) (k : Tracker) : Hw :=
  { h with stp := { h.stp with trackers := k :: h.stp.trackers.filter fun x => x.num != k.num } }

/-- STP_TRK_EN of a tracker. -/
def Hw.trackerOn (h : Hw) (t : Nat) : Bool := t < h.trackerCount && bit (h.g (R.STP_TRK_EN_EN.at (t / 32))) (t % 32)

/-- STP_PERIOD_MIN and STP_PERIOD_MAX in 2^-16 tick. -/
def Hw.periodMin (h : Hw) : Nat := h.g R.STP_PERIOD_MIN_MIN * 1000 * 2 ^ 16
def Hw.periodMax (h : Hw) : Nat := h.g R.STP_PERIOD_MAX_MAX * 1000000 * 2 ^ 16

/-- The local source of step and lag records (R182, R201). -/
def Hw.stepLocal (h : Hw) : Nat := match h.prof with | .l => 0x0020 | _ => 0x1020

/-- The stamp of the tracker stream at tick `f` for an event of tracker `t` (R189, R190). -/
def Hw.stampStepsAt (h : Hw) (t f : Nat) : Stamp :=
  let now := { Hw.stampSteps { h with frc := f } with nt := h.ntAt f, tstat := h.tstatAt f }
  if h.frc ≤ f || h.lowTracker == some t then now else
  match h.stp.views.find? fun v => v.frc ≤ f with
  | none => now
  | some v => match v.tracker with
    | none => { now with pstat := 0, tracker := 0, sp := noPosition }
    | some k => { now with pstat := v.pstat, tracker := k.num, sp := k.positionIn (v.pstat % 8) f }

/-- A STEP record (R201) with its event at FRC `f`. -/
def Hw.stepRecord (h : Hw) (t event reason ticks f : Nat) : Hw :=
  h.handOver [h.mkRec 0x04 2 h.stepLocal h.ownGrade (h.stampStepsAt t f)
    ([t, event, reason, 0, 0, 0, 0, 0] ++ le 8 (Hw.position { h with frc := f } t) ++ le 8 (unsigned 64 (h.trackerOf t).pPred) ++ le 8 ticks)]

/-- The period loop of R152 for a measured period in 2^-16 tick: the tracker after it, whether it clipped an outlier, whether it took the
period outright. -/
def Tracker.loop (k : Tracker) (kp kd reinit lo hi t16 : Nat) : Tracker × Bool × Bool :=
  let e0 : Int := (t16 : Int) - k.pPred
  let lim := k.pPred / 8
  let out := decide (lim < (e0.natAbs : Int))
  let sg : Int := if 0 < e0 then 1 else -1
  let err := if out then sg * lim else e0
  let run := if out then (if k.outSign = sg then k.outRun + 1 else 1) else 0
  let again := run == reinit
  let p : Int := if again then (t16 : Int) else k.pPred + err / ((2 ^ kp : Nat) : Int)
  let d : Int := if again then 0 else (clampTo (-(p / 64)) (p / 64) (k.d + err / ((2 ^ kd : Nat) : Int))).1
  ({ k with pPred := (clampTo (lo : Int) (hi : Int) (p + d)).1, d := d, outRun := if again then 0 else run,
            outSign := if out && !again then sg else 0 }, out, again)

/-- The index of the step that a mark begins (R146). -/
def Tracker.nextIndex (k : Tracker) : Nat :=
  match k.loadIndex with
  | some v => v
  | none => if !k.seen then 0 else if 2 ^ 48 - 2 ≤ k.index then 0 else k.index + 1

/-- A step begins with the mark of FRC `f`, accepted now (R152, R153, R155): the angle is 0 at this tick, LATE clears, the references written since take effect (R170). -/
def Hw.beginStep (h : Hw) (k : Tracker) (f : Nat) : Hw :=
  let refs := (List.range 15).map fun j => (h.g (R.PH_CFG_REF.at j), h.g (R.PH_CFG_TOL.at j))
  (h.putTracker { k with index := k.nextIndex, loadIndex := none, seen := true, fLast := f, phase0 := 0, phaseFrc := h.frc, pub := 0,
                         w := if 0 < k.pPred then 2 ^ 80 / k.pPred.toNat else 0, fired := [], marks := [], refs := refs, armed := true }).s
    (R.TRK_STAT_LATE.at k.num) 0

/-- Put a tracker in IDLE (R151). -/
def Hw.trackerIdle (h : Hw) (t : Nat) : Hw :=
  let k := h.trackerOf t
  ((h.putTracker { k with pPred := 0, d := 0, outRun := 0, outSign := 0, fired := [], marks := [], armed := true }).setTrk t 1).s
    (R.TRK_STAT_LATE.at t) 0

/-- A tracker in ACQUIRING or TRACKING enters STALLED (R156, R158); any other keeps its state. -/
def Hw.stall (h : Hw) (t reason : Nat) : Hw :=
  let st := h.trkState t
  if st = 2 ∨ st = 3 then
    let k := h.trackerOf t
    let h := ((h.putTracker { k with stallFrc := h.frc, stallAcq := st == 2, stallReason := reason }).setTrk t 4).s (R.TRK_STAT_REASON.at t) reason
    h.stepRecord t 0 reason 0 h.frc
  else h

/-- A stall with reason TIMEOUT (R151, R156). -/
def Hw.stallTimeout (h : Hw) (t : Nat) : Hw := (((h.err 0x06 E.stalled).raise 0x06 16).stall t 0).windowsStall t

/-! ### The schedule table (R159–R163) -/

/-- PERIOD of an NT entry (R170). -/
def SchEntry.period (e : SchEntry) : Nat := e.angle + 2 ^ 16 * e.div

/-- The entry fires on tracker `t` (R162): 0xFF names every tracker bound to a proxy leaf in service. -/
def Hw.drives (h : Hw) (e : SchEntry) (t : Nat) : Bool :=
  (e.kind == 1 || e.kind == 2) && e.action != 0 &&
    (e.tracker == t || (e.tracker == 0xFF && decide (h.prof = .t) &&
      (List.range 128).any fun p => h.on (R.PRX_DIE_EN.at p) && h.g (R.PRX_DIE_TRACKER.at p) == t))

/-- The angle at which an entry fires in the present step, and whether it stands for a mark that is missing (R159, R160). -/
def Hw.fireAngle (h : Hw) (k : Tracker) (e : SchEntry) : Nat × Bool :=
  if e.kind = 1 then (e.angle, false) else
  let ref := k.refs.getD e.phase (0, 0)
  if h.prof = .l ∧ h.g (R.PH_CFG_MODE.at e.phase) ≠ 0 then
    match k.marks.find? fun m => m.1 == e.phase with
    | some m => (min (m.2 + e.angle) 0xFFFF, false)
    | none => (min (ref.1 + 16 * ref.2 + e.angle) 0xFFFF, true)
  else (min (ref.1 + e.angle) 0xFFFF, false)

/-- Insert in ascending order of angle, then of entry. -/
def insertDue (x : Nat × SchEntry × Bool) : List (Nat × SchEntry × Bool) → List (Nat × SchEntry × Bool)
  | [] => [x]
  | y :: t => if x.1 < y.1 ∨ (x.1 = y.1 ∧ x.2.1.num < y.2.1.num) then x :: y :: t else y :: insertDue x t

/-- The entries of a tracker's present step that have not fired, in the order in which they do (R159). -/
def Hw.unfired (h : Hw) (t : Nat) : List (Nat × SchEntry × Bool) :=
  let k := h.trackerOf t
  let st := h.trkState t
  if st < 2 || !k.armed then [] else
  ((h.stp.table.filter fun e => h.drives e t && !k.fired.contains e.num && (e.div < 2 || k.index % e.div == 0)).map fun e =>
    let a := h.fireAngle k e
    (a.1, e, a.2)).foldl (fun l x => insertDue x l) []

/-- One pulse on CONV_START[n] (R142): its rising edge comes 0 to 10 ns later and is stamped. -/
def Hw.convStart (h : Hw) (n : Nat) : Hw :=
  let c := h.fresh
  let d := c.1 % 11
  let st := { h.stampOwn with nt := h.ntAt (h.frc + d), frc := h.frc + d }
  { c.2 with hlt := { c.2.hlt with conv := (n, st) :: c.2.hlt.conv.filter fun x => x.1 != n } }.emit (.convStart n)

/-- STP_LAG_GRP of a tracker (R170). DESIGN CHOICE: the eight groups of a register stand side by side from bit 0 (log entry 178). -/
def Hw.lagGroup (h : Hw) (t : Nat) : Nat := bits (h.g (R.STP_LAG_GRP_GRP.at (t / 8))) (3 * (t % 8)) 3

/-- A lag capture of a group (R167, R202): `n` is its number. -/
def Hw.lagCapture (h : Hw) (grp n : Nat) : Hw :=
  let ts := (List.range h.trackerCount).filter fun t => h.trackerOn t && h.lagGroup t == grp
  if ts.isEmpty then h else
  let grade := match h.prof with | .l => 0 | _ => 1
  let es := ts.flatMap fun t => le 8 (h.position t) ++ [t, h.trkState t + 8 * h.g (R.TRK_STAT_LATE.at t), grade, 0]
  h.handOver [h.mkRec 0x05 3 h.stepLocal h.ownGrade h.stampSteps
    ([grp, ts.length, 0, 0] ++ le 4 (n % 2 ^ 32) ++ le 10 h.nt ++ [0, 0, 0, 0, 0, 0] ++ es)]

/-- The action of an entry (R161), for tracker `t`, or for an NT firing number `n`. -/
def Hw.act (h : Hw) (e : SchEntry) (t : Option Nat) (n : Nat) : Hw :=
  match e.action with
  | 1 => h.captureFull t
  | 2 => h.capture (some e.arg)
  | 3 => h.convStart e.arg
  | 4 => h.gateFire e.arg (t.getD ntTracker)
  | 5 => h.windowOpen e.arg (some (t.getD ntTracker))
  | 6 => if (h.win e.arg).tracker.isSome then h.windowClose e.arg false false else h
  | 7 => h.lagCapture e.arg n
  | _ => h

/-- Skip entries (R163, R166): each counts in STP_MISSED. -/
def Hw.skipEntries (h : Hw) (n : Nat) : Hw := if n = 0 then h else (h.add R.STP_MISSED_COUNT n).raise 0x06 19

/-- The unfired entries of a step that ends (R163): a WIN_END whose window is open fires, unless its WIN_BEGIN was skipped with it. -/
def Hw.closeStep (h : Hw) (t : Nat) : List (Nat × SchEntry × Bool) → List Nat → Hw
  | [], _ => h
  | x :: l, skipped =>
    let e := x.2.1
    if e.action = 6 ∧ !skipped.contains e.arg ∧ h.on (R.WIN_STAT_OPEN.at e.arg) then (h.act e (some t) 0).closeStep t l skipped
    else (h.skipEntries 1).closeStep t l (if e.action = 5 then e.arg :: skipped else skipped)

/-- The first entry of tracker `t`, once the published angle has reached it. -/
def Hw.dueEntry (h : Hw) (t : Nat) : Option (Nat × SchEntry × Bool) :=
  match h.unfired t with
  | [] => none
  | x :: _ => if h.trkState t = 4 ∨ h.angleOf (h.trackerOf t) < x.1 then none else some x

/-- An entry due on another tracker acts before this one: ascending angle, then ascending entry (R159). -/
def Hw.laterThan (h : Hw) (x : Nat × SchEntry × Bool) : Bool :=
  (List.range h.trackerCount).any fun u => match h.dueEntry u with
    | some y => decide (y.1 < x.1 ∨ (y.1 = x.1 ∧ y.2.1.num < x.2.1.num))
    | none => false

/-- The first due entry of tracker `t`, once the published angle has reached it, if it is (or is not) one whose mark is missing, and no entry
of another tracker comes before it. -/
def Hw.fireNext (h : Hw) (t : Nat) (missing : Bool) : Hw :=
  match h.dueEntry t with
  | none => h
  | some (a, e, miss) =>
    let k := h.trackerOf t
    if miss ≠ missing ∨ h.laterThan (a, e, miss) then h else
    let h := if miss then h.inc (R.PH_MISS_COUNT.at e.phase) else h
    (h.putTracker { k with fired := e.num :: k.fired }).act e (some t) 0

/-! ### The NT entries (R159, R164, R166) -/

/-- The first instant T0 + n × PERIOD at or after now. -/
def firstTarget (t0 period ns : Nat) : Nat := if ns ≤ t0 then t0 else t0 + ceilDiv (ns - t0) (max 1 period) * period

/-- One held timer for each NT entry of the active table. DESIGN CHOICE: an entry whose T0 has passed when the page enters RUNNING starts as R166
has it after a swap (log entry 176). -/
def Hw.stepTimers (h : Hw) : Hw :=
  let es := h.stp.table.filter fun e => e.kind == 3 && e.action != 0
  let new := (es.zip (h.heldTimers 0x06)).map fun (x : SchEntry × Nat) =>
    (⟨x.2, 0x06, .entry x.1.num, x.1.t0, firstTarget x.1.t0 x.1.period h.ns, x.1.period, false⟩ : Timer)
  { h with tim := { h.tim with timers := h.tim.timers.filter (fun t => t.page != 0x06) ++ new } }

/-! ### The swap of the table (R165, R166) -/

/-- The shadow table. -/
def Hw.shadowTable (h : Hw) : List SchEntry :=
  (List.range 64).map fun e =>
    { num := e, kind := h.g (R.SCH_CTL_KIND.at e), action := h.g (R.SCH_CTL_ACTION.at e), arg := h.g (R.SCH_CTL_ARG.at e),
      tracker := h.g (R.SCH_CTL_TRACKER.at e), phase := h.g (R.SCH_CTL_PHASE.at e), angle := h.g (R.SCH_WHEN_ANGLE.at e),
      div := h.g (R.SCH_WHEN_DIV.at e), t0 := h.g64 (R.SCH_T0_LO_T0.at e) (R.SCH_T0_HI_T0.at e) }

/-- The largest ARG of an action (R161). -/
def argMax (action : Nat) : Nat := match action with | 2 => 15 | 3 => 31 | 4 => 1 | 5 => 15 | 6 => 15 | 7 => 7 | _ => 255

/-- An entry of the shadow table is legal (R165); KIND 0 and ACTION NONE make it inactive. -/
def Hw.entryLegal (h : Hw) (e : SchEntry) : Bool :=
  e.action < 8 && (e.kind == 0 || (!(e.action == 2 && decide (h.prof ≠ .l)) && !(e.action == 7 && e.kind != 3) &&
    (e.action == 0 || (decide (e.arg ≤ argMax e.action) &&
      (if e.kind = 3 then decide (1000 ≤ e.period)
       else (e.kind == 1 || e.phase != 15) && (h.trackerOn e.tracker || (e.tracker == 0xFF && decide (h.prof = .t))))))))

/-- The shadow table takes effect at tracker `t`'s mark, with the ending step closed (R166). -/
def Hw.takeSwap (h : Hw) (t : Nat) (tab : List SchEntry) : Hw :=
  let h := h.windowsSwap
  let h := h.each ((List.range h.trackerCount).filter fun u => u != t) fun h u =>
    let h := h.skipEntries (h.unfired u).length
    if h.trkState u < 2 then h else h.putTracker { h.trackerOf u with armed := false, fired := [] }
  let h := { h with stp := { h.stp with table := tab, pending := none } }
  (((h.s R.STP_SCHED_STAT_SWAP_PENDING 0).inc R.STP_SCHED_STAT_SWAPS).raise 0x06 18).stepTimers

/-- STP_CMD SWAP (R165). -/
def Hw.stpSwap (h : Hw) (t : Nat) : Tried :=
  let tab := h.shadowTable
  if h.trackerCount ≤ t then .error E.badValue
  else if !h.off 0x06 && !h.running 0x06 then .error E.badState
  else if !tab.all h.entryLegal then .error E.badValue
  else if h.off 0x06 then .ok { h with stp := { h.stp with table := tab, pending := none } }
  else match h.claim 0x06 (schPins tab) (schTimers tab) with
    | .error r => .error (E.held r)
    | .ok h => .ok (Hw.s { h with stp := { h.stp with pending := some (tab, t) } } R.STP_SCHED_STAT_SWAP_PENDING 1)

/-- STP_CMD SET_INDEX (R146, R170). DESIGN CHOICE: the value of STP_INDEX_SET at the command is the one loaded (log entry 174). -/
def Hw.setIndex (h : Hw) (t : Nat) : Tried :=
  let v := h.g R.STP_INDEX_SET_LO_INDEX + 2 ^ 32 * h.g R.STP_INDEX_SET_HI_INDEX
  if h.trackerCount ≤ t ∨ v = 2 ^ 48 - 1 then .error E.badValue
  else .ok (h.putTracker { h.trackerOf t with loadIndex := some v })

/-- STP_CMD with its bits. -/
def Hw.stpCmd (h : Hw) (swap set : Bool) (t : Nat) : Tried :=
  let r : Tried := if swap then h.stpSwap t else .ok h
  match r with
  | .ok h => if set then h.setIndex t else .ok h
  | .error c => .error c

/-- End an STP_CMD write: after a refused SWAP no swap is pending (R165). -/
def Hw.finishSwap (h : Hw) (swap : Bool) (r : Tried) : Hw :=
  match r with
  | .ok _ => h.finish 0x06 r
  | .error _ => if swap then (h.finish 0x06 r).dropSwap else h.finish 0x06 r

/-! ### Step marks (R150–R153, R157) -/

/-- A mark comes too soon after the last accepted one (R150). -/
def Hw.bounces (h : Hw) (k : Tracker) (f : Nat) : Bool :=
  let t16 := (f - k.fLast) * 2 ^ 16
  match h.trkState k.num with
  | 2 => t16 < h.periodMin
  | 3 => decide ((8 * t16 : Nat) < k.pPred)
  | _ => false

/-- The tracker after an accepted mark at FRC `f`, before its new step begins: the state it goes to (R151, R152, R157). -/
def Hw.trackMark (h : Hw) (k : Tracker) (f : Nat) : Hw × Tracker × Nat :=
  let t16 : Nat := (f - k.fLast) * 2 ^ 16
  match h.trkState k.num with
  | 1 => (h, k, 2)
  | 2 => (h, { k with pPred := (t16 : Int), d := 0, outRun := 0, outSign := 0 }, 3)
  | 3 =>
    let r := k.loop (h.g R.STP_CFG_KP_SHIFT) (h.g R.STP_CFG_KD_SHIFT) (h.g R.STP_CFG_REINIT_N) h.periodMin h.periodMax t16
    let h := if r.2.1 then h.incSat (R.TRK_STAT_OUTLIERS.at k.num) else h
    (if r.2.2 then h.raise 0x06 17 else h, r.1, 3)
  | _ => (h, k, if k.stallAcq then 2 else 3)

/-- An edge that is a step mark of tracker `t`, at FRC `f` (R150, R152, R157, R163, R166). -/
def Hw.stepMark (h : Hw) (t f : Nat) : Hw :=
  let st := h.trkState t
  if !h.running 0x06 || h.trackerCount ≤ t || st = 0 then h else
  let k := h.trackerOf t
  if h.bounces k f then (h.inc R.STP_BOUNCE_COUNT).raise 0x06 20 else
  let gates := (List.range 2).map fun g => (h.gatesNow g).1
  let h := h.closeStep t (h.unfired t) []
  let swap := match h.stp.pending with | some p => if p.2 = t ∧ st = 3 then some p.1 else none | none => none
  let h := match swap with | some tab => h.takeSwap t tab | none => h
  let r := h.trackMark (h.trackerOf t) f
  let h := (r.1.beginStep r.2.1 f).setTrk t r.2.2
  let h := if st = 4 then h.stepRecord t 1 k.stallReason (f - k.stallFrc) f else h
  h.gateMark t gates

/-- An edge that may violate the minimum pulse widths (R64): one that does is taken or missed. -/
def Hw.edge (h : Hw) (clean : Bool) (f : Hw → Hw) : Hw :=
  if clean then f h else
  let c := h.fresh
  if c.1 % 2 = 0 then f c.2 else c.2

/-- STEP_MARK_EDGE (R64, R152): `clean` says that the pulse keeps the minimum widths. -/
def execStepMarkEdge (clean : Bool) (s : State) : Result := s.go fun h =>
  if h.prof ≠ .l || !h.pwr.core then h else h.edge clean fun h => (h.count 5 0x01F 0 1).stepMark 0 h.frc

/-- STEP_IN_EDGE (R65, R148): the input of tracker `t` has been high for `high` ns; the filter's own delay and the wiring delay are taken from
the time. -/
def execStepInEdge (t high : Nat) (s : State) : Result := s.go fun h =>
  if h.prof ≠ .t || !h.pwr.core || !bit (h.g (R.STP_IN_MASK_MASK.at (t / 32))) (t % 32) || high < h.g (R.STP_IN_CFG_FILTER.at t) then h
  else h.edge (decide (4 ≤ high)) fun h => h.stepMark t (h.frc - high - h.g (R.STP_IN_CFG_DELAY.at t))

/-! ### Phase marks (R150, R154) -/

/-- The correction of R154. -/
def Tracker.correct (k : Tracker) (ref pub f : Nat) : Tracker :=
  let el := f - k.fLast
  let p := k.pPred.toNat / 2 ^ 16
  let rem := max (p - el) (p / 16)
  { k with pub := pub, phase0 := ref * 2 ^ 48, phaseFrc := f, w := (2 ^ 64 - ref * 2 ^ 48) / max 1 rem }

/-- Phase mark `j` of the tick (R154). DESIGN CHOICE: OUT_TOL counts marks of MODE 1 in TRACKING alone (log entry 175). -/
def Hw.phaseMark (h : Hw) (j : Nat) : Hw :=
  let mode := h.g (R.PH_CFG_MODE.at j)
  let st := h.trkState 0
  if !h.running 0x06 || mode = 0 || st < 2 then h else
  let k := h.trackerOf 0
  if k.marks.any fun m => m.1 == j then h.incSat (R.PH_LAST_REPEAT.at j) else
  let pub := h.angleOf k
  let h := h.s (R.PH_LAST_ANGLE.at j) pub
  let k := { k with marks := (j, pub) :: k.marks }
  let h := h.putTracker k
  if mode ≠ 1 ∨ st ≠ 3 then h else
  let ref := k.refs.getD j (0, 0)
  let a := k.internal h.frc
  if ref.1 ≤ a + 16 * ref.2 ∧ a ≤ ref.1 + 16 * ref.2 then h.putTracker (k.correct ref.1 pub h.frc)
  else h.incSat (R.PH_LAST_OUT_TOL.at j)

/-- A phase mark arrives: it is handled with its tick, after the tick's step mark (R150). -/
def Hw.latchMark (h : Hw) (j : Nat) : Hw := { h with stp := { h.stp with marks := h.stp.marks ++ [j] } }

/-- A schedule point is reached: it acts with its tick, after the tick's marks (R150). -/
def Hw.latchPoint (h : Hw) (x : TickPoint) : Hw := { h with stp := { h.stp with points := h.stp.points ++ [x] } }

/-- PHASE_MARK_EDGE (R150, R154). -/
def execPhaseMarkEdge (j : Nat) (clean : Bool) (s : State) : Result := s.go fun h =>
  if h.prof ≠ .l || !h.pwr.core || 15 ≤ j then h else h.edge clean fun h => (h.count 5 (0x010 + j) 0 1).latchMark j

/-! ### Late steps and stalls -/

/-- ANGLE_LATE (R155): the internal angle of tracker `t` has reached 0xFFFF. -/
def execAngleLate (t : Nat) (s : State) : Result := s.go fun h =>
  if h.running 0x06 && h.trkState t == 3 && (h.trackerOf t).internal h.frc == 0xFFFF then h.s (R.TRK_STAT_LATE.at t) 1 else h

/-- TRACKER_STALL_TIMEOUT (R156). -/
def execTrackerStallTimeout (t : Nat) (s : State) : Result := s.go fun h =>
  let k := h.trackerOf t
  if h.running 0x06 && h.trkState t == 3 && decide (2 * k.pPred < (((h.frc - k.fLast) * 2 ^ 16 : Nat) : Int)) then h.stallTimeout t else h

/-- ACQUIRE_TIMEOUT (R151). -/
def execAcquireTimeout (t : Nat) (s : State) : Result := s.go fun h =>
  let k := h.trackerOf t
  if h.running 0x06 && h.trkState t == 2 && h.periodMax < (h.frc - k.fLast) * 2 ^ 16 then h.stallTimeout t else h

/-- SCHEDULE_ANGLE_FIRE (R159): the next entry of tracker `t` whose point the published angle has reached. -/
def execScheduleAngleFire (t : Nat) (s : State) : Result := s.go fun h => if h.running 0x06 then h.latchPoint (.entry t false) else h

/-- SCHEDULE_MARK_MISSING_FIRE (R160). -/
def execScheduleMarkMissingFire (t : Nat) (s : State) : Result := s.go fun h => if h.running 0x06 then h.latchPoint (.entry t true) else h

/-- The phase marks of the tick in ascending index (R150). -/
def Hw.tickMarks (h : Hw) : Hw :=
  let ms := (List.range 15).flatMap fun j => h.stp.marks.filter (· == j)
  Hw.each { h with stp := { h.stp with marks := [] } } ms fun h j => h.phaseMark j

/-- Point `x` acts now: no entry of another tracker comes before it (R159). -/
def Hw.pointReady (h : Hw) : TickPoint → Bool
  | .timed _ _ => true
  | .entry t missing => match h.dueEntry t with | some d => d.2.2 == missing && !h.laterThan d | none => false

/-- Point `x` acts. -/
def Hw.pointActs (h : Hw) : TickPoint → Hw
  | .timed num n => match h.stp.table.find? fun e => e.num == num with | some e => h.act e none n | none => h
  | .entry t missing => h.fireNext t missing

/-- The schedule points of the tick, each as soon as it comes first; one that no tracker has reached passes without effect. -/
def Hw.firePoints : Nat → Hw → List TickPoint → Hw
  | 0, h, _ => h
  | fuel + 1, h, xs => match xs.find? h.pointReady with
    | some x => (h.pointActs x).firePoints fuel (xs.erase x)
    | none => h

/-- A tick keeps what a later stamp of the tracker stream may need: the lowest tracker where it changed (R189). -/
def Hw.noteView (h : Hw) : Hw :=
  let v : StepView := ⟨h.frc, h.lowTracker.map fun t => h.trackerOf t, match h.lowTracker with | some t => h.pstat t 1 | none => 0⟩
  match h.prof, h.stp.views with
  | .t, [] => { h with stp := { h.stp with views := [v] } }
  | .t, x :: l =>
    if x = { v with frc := x.frc } then h else
    let old := (x :: l).takeWhile fun y => h.frc < y.frc + 2 ^ 18
    { h with stp := { h.stp with views := v :: old ++ ((x :: l).drop old.length).take 1 } }
  | _, _ => h

/-- What a tick does on page STP after its step marks: the phase marks, then the schedule points (R150). -/
def Hw.tickSteps (h : Hw) : Hw :=
  let h := h.tickMarks
  let xs := h.stp.points
  let h := { h with stp := { h.stp with points := [] } }
  if h.running 0x06 then h.firePoints xs.length xs else h

/-- STP_SWAP (R165). -/
def execStpSwap (a : Acc) (t : Nat) (s : State) : Result :=
  s.go fun h => h.access a 0x06 0x050 false fun h => h.finishSwap true (h.stpCmd true false t)

/-- STP_SET_INDEX (R146). -/
def execStpSetIndex (a : Acc) (t : Nat) (s : State) : Result := s.go fun h => h.hostWrite a 0x06 0x050 false fun h => h.stpCmd false true t

/-- A write of STP_TRK_EN register `i` (R158, R170). -/
def Hw.trkEnWrite (h : Hw) (i v : Nat) : Tried :=
  let v := v % 2 ^ 32
  let may := match h.prof with | .l => if i = 0 then 1 else 0 | _ => h.g (R.STP_IN_MASK_MASK.at i)
  if v &&& may ≠ v then .error E.badValue else
  let h := h.s (R.STP_TRK_EN_EN.at i) v
  .ok (h.each ((List.range 32).map (32 * i + ·)) fun h t =>
    let st := h.trkState t
    if bit v (t % 32) then (if st = 0 && h.running 0x06 then h.trackerIdle t else h)
    else if st = 0 then h
    else ((h.s (R.TRK_STAT_REASON.at t) 3).stepRecord t 0 3 0 h.frc).trackerOff t)

/-- STP_TRK_EN_WRITE (R158). -/
def execStpTrkEnWrite (a : Acc) (i v : Nat) (s : State) : Result :=
  s.go fun h => if i < 4 then h.hostWrite a 0x06 (0x080 + 4 * i) false fun h => h.trkEnWrite i v else h

/-! ### The page -/

/-- STP enters RUNNING: enabled trackers are IDLE, NT entries have their timers, the stream begins anew (R151, R183). -/
def Hw.stpRun (h : Hw) : Hw :=
  let src := h.source h.stepLocal
  let h := { h with flw := { h.flw with streams := h.flw.streams.filter fun s => s.source != src } }
  (h.each ((List.range h.trackerCount).filter h.trackerOn) fun h t => h.trackerIdle t).stepTimers

/-- STP aborts (R158): trackers in ACQUIRING or TRACKING are stalled until the page is OFF. -/
def Hw.stpAbort (h : Hw) : Hw := h.dropSwap.dropTimers 0x06 |>.each (List.range h.trackerCount) fun h t => h.stall t 2

end Sys2Proof.Machine
end

