-- ==== Sys2Proof/Machine/Time.lean ====
section
/-!
DEFINITION. Machine/Time.lean: steps of NT (R115, R120, R123, R141), TIME_LOST (R122), measurements (R119–R121), thermal transients and the
feed-forward (R137, R138), holdover's limits (R139), and the time probes of culverts (R124, R125, R366).
-/
namespace Sys2Proof.Machine

/-! ### Steps -/

/-- NT steps to `new` (2^-48 ns) at the FRC value `f` (R115): FIRST_STEP_DONE, TIM_STEPS, the TIME_STEP entry (R493), every stream's next sync
record marked (R189), the ledger period closed or the first begun (R369), the timers that the step goes over marked late (R141). -/
def Hw.stepTo (h : Hw) (new f : Nat) : Hw :=
  let old := h.t48 f
  let oldNs := old / 2 ^ 48
  let newNs := new / 2 ^ 48
  let first := !h.timed
  let h := if first then h else h.stepPeriod oldNs newNs
  let beyond (t : Timer) : Timer := { t with late := t.late || (decide (oldNs < t.next) && decide (t.next ≤ newNs)) }
  let fresh (k : Link) : Link := { k with probeT := none, probeRx := none, exch := none }
  let d : Int := ((new : Int) - (old : Int)) / 2 ^ 32
  let h := { h with tim := { h.tim.rebase new f with stepSynced := [], timers := h.tim.timers.map beyond },
                    fab := { h.fab with links := h.fab.links.map fresh },
                    trc := { h.trc with lastSync := h.trc.lastSync + ((newNs : Int) - (oldNs : Int)) },
                    ptp := { h.ptp with lastOffset := h.ptp.lastOffset.map fun (x : Int × Nat) => (x.1 + d, x.2) } }
  let h := (h.s R.TIM_STATUS_FIRST_STEP_DONE 1).inc R.TIM_STEPS_COUNT
  let h := h.event 0x0010 1 (le 8 (unsigned 64 d) ++ le 2 (h.g R.TIM_STEPS_COUNT))
  let h := if first && h.flwWorks then h.startPeriod newNs 1 else h
  h.startCheck

/-- NT steps by `d` units of 2^-16 ns now. -/
def Hw.stepNt (h : Hw) (d : Int) : Hw := h.stepTo (((h.t48 h.frc : Nat) : Int) + d * 2 ^ 32).toNat h.frc

/-- The SETs that wait take effect at this tick, each a step of its own (R123). -/
def Hw.stepDue (h : Hw) : Hw := Hw.each { h with tim := { h.tim with setDue := [] } } h.tim.setDue fun h t => h.stepTo t h.frc

/-- TIM_CMD with its bits (R123): STEP waits for the next valid measurement; SET takes effect at the next tick. -/
def Hw.timCmd (h : Hw) (step set : Bool) : Tried :=
  let sv := h.g R.TIM_STATUS_SERVO
  let loc := h.g R.TIM_CFG_SOURCE == 3
  if (step && (loc || sv == 0 || sv == 1 || sv == 4)) || (set && (!h.running 0x04 || !loc)) then .error E.badState else
  let h := if step then { h with tim := { h.tim with stepPending := true } } else h
  let nt := h.g (R.TIM_SET_NT_NT.at 0) + 2 ^ 32 * h.g (R.TIM_SET_NT_NT.at 1) + 2 ^ 64 * (h.g (R.TIM_SET_NT_NT.at 2) % 2 ^ 16)
  .ok (if set then { h with tim := { h.tim with setDue := h.tim.setDue ++ [nt * 2 ^ 32] } } else h)

/-- TIM_STEP (R123). -/
def execTimStep (a : Acc) (s : State) : Result := s.go fun h => h.operWrite a 0x04 0x04C fun h => h.timCmd true false

/-- TIM_SET (R123). -/
def execTimSet (a : Acc) (s : State) : Result := s.go fun h => h.operWrite a 0x04 0x04C fun h => h.timCmd false true

/-! ### TIME_LOST (R122) -/

/-- TIME_LOST sets: `v` (2^-16 ns) is the measured error, or the holdover bound where `hold`. -/
def Hw.loseTime (h : Hw) (v : Int) (hold : Bool) : Hw :=
  if h.on R.TIM_STATUS_TIME_LOST then h else
  let h := ((h.s R.TIM_STATUS_TIME_LOST 1).err 0x04 E.timeLost).raise 0x04 17
  let h := h.event 0x0011 2 (le 8 (unsigned 64 v) ++ [b2n hold])
  let h := { h with flw := { h.flw with lflags := h.flw.lflags ||| 4 } }
  h.breach 6 0x08 0

/-- TIME_LOST clears; its condition pairs when the servo is LOCKED. -/
def Hw.findTime (h : Hw) : Hw :=
  if !h.on R.TIM_STATUS_TIME_LOST then h else
  let h := h.s R.TIM_STATUS_TIME_LOST 0
  if h.g R.TIM_STATUS_SERVO = 3 then h.restore 6 0x08 else h

/-! ### Thermal transients (R137, R138) -/

/-- The bound of a transient (R138). -/
def Hw.wideBound (h : Hw) : Nat := match h.prof with | .l => 12 | _ => 40

/-- A transient begins; the settling period counts from here at the earliest (log entry 61). -/
def Hw.enterTransient (h : Hw) : Hw :=
  if h.on R.TIM_STATUS_TRANSIENT || h.g R.TIM_STATUS_SERVO == 0 then h else
  let thermal := if h.g R.TIM_STATUS_SERVO = 4 ∧ h.tim.thermalFrom.isNone then some h.frc else h.tim.thermalFrom
  let h := { h with tim := { h.tim with thermalFrom := thermal, belowSince := h.tim.belowSince.map fun _ => h.frc } }
  ((h.s R.TIM_STATUS_TRANSIENT 1).raise 0x04 19).breach 6 0x0A h.wideBound

/-- Nanoseconds of an interval given as a base-2 logarithm of seconds from -7 to +4. -/
def logNs (l : Int) : Nat := if l < 0 then 1000000000 / 2 ^ min 7 l.natAbs else 1000000000 * 2 ^ min 4 l.natAbs

/-- A transient ends: a node keeps the bound for three Sync intervals. -/
def Hw.leaveTransient (h : Hw) : Hw :=
  if !h.on R.TIM_STATUS_TRANSIENT then h else
  let h := match h.prof with
    | .l => h
    | _ => { h with tim := { h.tim with widenUntil := h.frc + 3 * logNs h.ptp.syncLog } }
  (h.s R.TIM_STATUS_TRANSIENT 0).restore 6 0x0A

/-- TRANSIENT_SETTLE_EXPIRY (R138): the slope has stayed below EXIT_SLOPE for SETTLE_MS. -/
def execTransientSettleExpiry (s : State) : Result := s.go fun h => if h.faulted 0x04 then h else
  match h.tim.belowSince with
  | some t => if t + h.g R.TIM_TRANSIENT_SETTLE_MS * 1000000 ≤ h.frc then h.leaveTransient else h
  | none => h

/-- TIM_FF at a temperature (0.1 °C), in 0.01 ppm as a fraction: by linear interpolation between two successive points that enclose it (R137);
none beyond the ends of the table. -/
def ffAt (v : Int) : List (Nat × Nat) → Option (Int × Int)
  | a :: b :: t =>
    let ta := signed 16 a.1
    let tb := signed 16 b.1
    let fa := signed 16 a.2
    if ta ≠ tb ∧ (ta ≤ v ∧ v ≤ tb ∨ tb ≤ v ∧ v ≤ ta) then some (fa * (tb - ta) + (signed 16 b.2 - fa) * (v - ta), tb - ta)
    else ffAt v (b :: t)
  | _ => none

/-- The table TIM_FF as (TEMP, FREQ). -/
def Hw.ffTable (h : Hw) : List (Nat × Nat) := (List.range 16).map fun n => (h.g (R.TIM_FF_TEMP.at n), h.g (R.TIM_FF_FREQ.at n))

/-- Store a table in TIM_FF. -/
def Hw.putFf (h : Hw) (t : List (Nat × Nat)) : Hw :=
  h.each (List.range 16) fun h n =>
    let x := t.getD n (0, 0)
    (h.s (R.TIM_FF_TEMP.at n) x.1).s (R.TIM_FF_FREQ.at n) x.2

/-- The rate after a step of the interpolated frequency offset, 0.01 ppm of the nominal rate a unit, to nearest (R137); beyond the ends of the table
the rule gives no value (log entry 60). -/
def Hw.ffRate (h : Hw) (old new : Option (Int × Int)) : Nat :=
  match old, new with
  | some a, some b =>
    let n := (b.1 * a.2 - a.1 * b.2) * 2 ^ 48
    let d := a.2 * b.2 * 100000000
    (((h.tim.rate : Nat) : Int) + (2 * n + d.natAbs * d.sign) / (2 * d)).toNat
  | _, _ => Config.feedForward old new h.tim.rate

/-- A result on TEMP_CH (R137, R138), the slope taken over the time between the arrivals of two results (log entry 152): the
slope, the feed-forward, learning while LOCKED with a low slope, the entry of a transient. -/
def Hw.tempResult (h : Hw) (v : Int) : Hw :=
  let old := signed 16 (h.g R.TIM_TEMP_TEMP)
  let had := h.tim.haveTemp && decide (h.tim.tempFrc < h.frc)
  let dt := h.frc - h.tim.tempFrc
  let h := Hw.s { h with tim := { h.tim with tempFrc := h.frc, haveTemp := true } } R.TIM_TEMP_TEMP (unsigned 16 v)
  if !had || !h.running 0x04 then h else
  let rise := (v - old).natAbs * 1000000
  let low := decide (rise < h.g R.TIM_TRANSIENT_EXIT_SLOPE * dt)
  let since := if low then (match h.tim.belowSince with | some t => some t | none => some h.frc) else none
  let h := { h with tim := { h.tim with belowSince := since } }
  let sv := h.g R.TIM_STATUS_SERVO
  let h := if h.on R.TIM_CFG_FF_EN && (sv == 2 || sv == 3 || sv == 4) then h.steer (h.ffRate (ffAt old h.ffTable) (ffAt v h.ffTable)) else h
  let h := if sv = 3 ∧ low then h.putFf (Config.learn h.ffTable v h.tim.rate) else h
  if h.g R.TIM_TRANSIENT_ENTER_SLOPE * dt ≤ rise then h.enterTransient else h

/-! ### Measurements (R119–R122) -/

/-- The lock threshold (2^-16 ns). -/
def Hw.lockThreshold (h : Hw) : Int := if h.g R.TIM_CFG_SOURCE = 1 then 4 * 65536 else 8 * 65536

/-- The rate after a measurement of `off` (R121, R122): the servo's law (log entry 13), at the largest rate while TIME_LOST. -/
def Hw.discipline (h : Hw) (off : Int) : Hw :=
  if h.on R.TIM_STATUS_TIME_LOST then h.steer (if 0 < off then 0 else 2 ^ 49)
  else h.steer (Config.servoRate off (2 * h.g R.TIM_CFG_SOURCE + h.g R.TIM_STATUS_TRANSIENT) h.tim.rate)

/-- A tick keeps TSTAT where it changed, for stamps of this tick that are taken later (R189). -/
def Hw.noteStat (h : Hw) : Hw :=
  match h.tim.stats with
  | [] => { h with tim := { h.tim with stats := [(h.frc, h.tstat)] } }
  | x :: l => if x.2 = h.tstat then h else { h with tim := { h.tim with stats := (h.frc, h.tstat) :: x :: l } }

/-- Insert in ascending order. -/
def insertInt (x : Int) : List Int → List Int
  | [] => [x]
  | y :: t => if x ≤ y then x :: y :: t else y :: insertInt x t

/-- The lower median of eight (R120): the fourth smallest. -/
def lowerMedian (l : List Int) : Int := (l.foldl (fun a x => insertInt x a) []).getD 3 0

/-- A measurement in ACQUIRING: at the eighth the first step, if none has been made, and LOCKING (R119, R120). -/
def Hw.acquire (h : Hw) (off : Int) : Hw :=
  let l := h.tim.offsets ++ [off]
  let h := { h with tim := { h.tim with offsets := l } }
  if l.length < 8 then h else
  let h := if h.timed then h else h.stepNt (-(lowerMedian l))
  h.setServo 2

/-- A measurement in LOCKING or LOCKED (R119, R138). -/
def Hw.track (h : Hw) (off : Int) : Hw :=
  let e : Int := (off.natAbs : Nat)
  let h := if h.g R.TIM_STATUS_SERVO = 3 then
      let n := if 2 * h.lockThreshold < e then h.tim.outLock + 1 else 0
      let h := { h with tim := { h.tim with outLock := n } }
      if 16 ≤ n then h.setServo 2
      else if ((h.g R.TIM_TRANSIENT_RESID_NS * 65536 : Nat) : Int) < e then h.enterTransient else h
    else
      let n := if e ≤ h.lockThreshold then h.tim.inLock + 1 else 0
      let h := { h with tim := { h.tim with inLock := n } }
      if 16 ≤ n then h.setServo 3 else h
  h.discipline off

/-- A valid measurement from the source in use: `off` is this clock's time less the source's, in 2^-16 ns. -/
def Hw.measure (h : Hw) (off : Int) : Hw :=
  if !h.running 0x04 || h.g R.TIM_STATUS_SERVO = 0 then h else
  let h := h.s R.TIM_ERR_OFFSET (unsigned 32 (clampTo (-(2 ^ 31)) (2 ^ 31 - 1) (shiftRne off (-12))).1)
  let h := if (10000 * 65536 : Int) < (off.natAbs : Nat) then h.loseTime off false
    else if ((off.natAbs : Nat) : Int) < 5000 * 65536 then h.findTime else h
  let h := if h.g R.TIM_STATUS_SERVO = 4 then h.setServo 2 else h
  if h.tim.stepPending then Hw.stepNt { h with tim := { h.tim with stepPending := false } } (-off)
  else if h.g R.TIM_STATUS_SERVO = 1 then h.acquire off
  else h.track off

/-! ### The TIM page's states (R119, R143) -/

/-- The page enters RUNNING. -/
def Hw.timRun (h : Hw) : Hw :=
  let h := { h with tim := { h.tim with lastSrc := 0, srcUntil := 0, stepPending := false } }
  let h := if h.g R.TIM_CFG_SOURCE = 3 then h else h.setServo 1
  (if h.g R.TIM_CFG_SOURCE = 1 then h.pickCulvert else h).startCheck

/-- The page leaves RUNNING: the servo stops and the rate stays. -/
def Hw.timOff (h : Hw) : Hw :=
  let h := (h.leaveTransient.setServo 0).s R.TIM_STATUS_SRC_USED 0
  { h with tim := { h.tim with stepPending := false, srcUntil := 0 } }

/-! ### Holdover's limits and the change of source (R122, R125, R139) -/

/-- The holdover limit in ns (R139). -/
def Hw.holdLimit (h : Hw) : Nat := match h.prof with | .l => 2000000 | _ => 250000000

/-- HOLDOVER_LIMIT_EXPIRY (R139). -/
def execHoldoverLimitExpiry (s : State) : Result := s.go fun h => if h.faulted 0x04 then h else
  if h.g R.TIM_STATUS_SERVO = 4 ∧ !h.tim.limitDone ∧ h.tim.holdFrc + h.holdLimit ≤ h.frc then
    Hw.breach { h with tim := { h.tim with limitDone := true } } 6 0x09 h.timBound
  else h

/-- HOLDOVER_BOUND_TIME_LOST (R122): the holdover bound exceeds 10 µs. A HOLDOVER entered from LOCKING keeps the reading 0xFFFF, which is no bound:
DESIGN CHOICE, TIME_LOST never sets by it (log entry 165). -/
def execHoldoverBoundTimeLost (s : State) : Result := s.go fun h => if h.faulted 0x04 then h else
  if h.g R.TIM_STATUS_SERVO = 4 ∧ h.tim.holdBound ≠ 0xFFFF ∧ 10000 < h.timBound then h.loseTime ((h.timBound * 65536 : Nat) : Int) true else h

/-- SOURCE_CHANGE_SETTLED (R125): TIM_BOUND returns to the usual bound. -/
def execSourceChangeSettled (s : State) : Result := s.go fun h => if h.faulted 0x04 then h else
  if h.tim.srcUntil ≠ 0 ∧ h.tim.srcUntil ≤ h.frc then { h with tim := { h.tim with srcUntil := 0 } } else h

/-! ### Time probes (R124, R366) -/

/-- Probes run on the port: a culvert, or a long-haul hop that a G node terminates (R124, R135). -/
def Hw.probes (h : Hw) (p : Nat) : Bool := isCulvert p || (h.prof == .g && h.longhaul p)

/-- The link header of a probe (R323, R324): KIND 7 in class 2, a payload of the probe's length (log entry 62). -/
def Hw.probeHeader (h : Hw) : List Nat := (h.plainFrame 7 2 (List.replicate (Config.probeLen % 4096) 0)).bytes.take 16

/-- TIME_PROBE_TX (R124, R135, R366): every 16 µs. The probe carries the servo state, TIME_LOST, PRESSURE, HEADROOM, the instant it leaves, and
that at which the peer's last one arrived; the layout of its payload is open (log entry 62). -/
def execTimeProbeTx (p : Nat) (s : State) : Result := s.go fun h =>
  let k := h.link p
  if h.probes p && k.up && h.inService p && k.lastProbe + 16000 ≤ h.frc then
    let t := ((h.nt : Int) + fine (if isCulvert p then h.g (R.CUL_LAT_TX.at p) else h.g (R.PTP_TX_LAT_LAT.at (fabIndex p)))).toNat
    let h := h.sendOut p (.probe p h.probeHeader [h.g R.TIM_STATUS_SERVO, h.g R.TIM_STATUS_TIME_LOST, h.g R.FLW_STAT_PRESSURE, h.g R.FLW_STAT_HEADROOM, t,
      k.probeRx.getD 0])
    h.onLink p fun k => { k with lastProbe := h.frc, probeT := some t }
  else h

/-- Since when something holds. -/
def sinceWhen (holds : Bool) (frc : Nat) (o : Option Nat) : Option Nat :=
  if holds then (match o with | some t => some t | none => some frc) else none

/-- PRESSURE and HEADROOM of home `p` as its probes show them (R366, R375). -/
def Hw.homeShows (h : Hw) (p : Nat) (press head : Bool) : Hw :=
  { h with flw := { h.flw with
    pressSince := setAt h.flw.pressSince p (sinceWhen press h.frc (h.flw.pressSince.getD p none)),
    noPressSince := setAt h.flw.noPressSince p (sinceWhen (!press) h.frc (h.flw.noPressSince.getD p none)),
    headSince := setAt h.flw.headSince p (sinceWhen head h.frc (h.flw.headSince.getD p none)) } }

/-- Two-way time transfer (R124): delay and offset from the four stamps, halves rounded down (log entry 62). -/
def twoWay (t1 t2 t3 t4 : Int) : Int × Int :=
  let d := ((t2 - t1) + (t4 - t3)) / 2
  (d, (t2 - t1) - d)

/-- A received probe as a frame: its header, with a payload of the length that the header gives. -/
def probeFrame (hdr : List Nat) : List Nat := hdr ++ List.replicate (fld hdr 6 2) 0

/-- When the frame that now arrives at a port did so: on a culvert now, less the PHY's latency; on a fabric port as its pulse says (R53, R124). -/
def Hw.arrivedAt (h : Hw) (p : Nat) : Option Int :=
  if isCulvert p then some ((h.nt : Int) - fine (h.g (R.CUL_LAT_RX.at p))) else (h.takeStamp p).1.map Int.ofNat

/-- A probe that arrives at `t2` on a long-haul hop (R135, R345): the two-way exchange stands for LONGHAUL_TIME_RECORD, and its delay is that of the
hop's cost. -/
def Hw.hopExchange (h : Hw) (p : Nat) (t2 : Int) (stamps : Nat × Option Nat) : Hw :=
  let k := { h.link p with probeRx := some t2.toNat }
  match k.probeT, stamps.2 with
  | some t3, some t4 =>
    let m := twoWay stamps.1 t2 t3 t4
    let d := (m.1 / 65536).toNat
    let h := h.putLink { k with exch := some m, delayNs := d }
    (if d = k.delayNs then h else { h with fab := { h.fab with lsaDirty := true, dbDirty := true } }).triggerCond
  | _, _ => h.putLink k

/-- TIME_PROBE_RX (R124, R125, R135): `hdr` is the probe's link header; `stamps` is when the peer sent this probe and when this part's last one
reached it, both in the peer's NT. On a long-haul hop no clock follows it. -/
def execTimeProbeRx (p sec : Nat) (hdr : List Nat) (servo : Nat) (lost press head : Bool) (stamps : Nat × Option Nat) (s : State) : Result :=
  s.go fun h =>
  if !h.probes p then h else
  let arrived := h.arrivedAt p
  h.receive p sec (probeFrame hdr) 7 fun _ h =>
    match arrived with
    | none => h
    | some t2 =>
    let k := h.link p
    if !isCulvert p then h.hopExchange p t2 stamps else
    let h := h.putLink { k with peerServo := servo % 8, peerLost := lost, probeRx := some t2.toNat }
    let h := if lost then { h with flw := { h.flw with lflags := h.flw.lflags ||| 4 } } else h
    let h := match h.prof with | .l => h.homeShows p press head | _ => h
    let h := h.pickCulvert
    match k.probeT, stamps.2 with
    | some t3, some t4 =>
      let m := twoWay stamps.1 t2 t3 t4
      let h := (h.onLink p fun k => { k with delayNs := (m.1 / 65536).toNat }).triggerCond
      if h.prof = .l ∧ h.g R.TIM_CFG_SOURCE = 1 ∧ h.g R.TIM_STATUS_SRC_USED = p + 1 ∧ servo = 3 ∧ !lost then h.measure m.2 else h
    | _, _ => h

end Sys2Proof.Machine
end

