-- ==== Sys2Proof/Machine/Ptp.lean ====
section
/-!
DEFINITION. Machine/Ptp.lean: the IEEE 1588-2019 subset of fabric ports (R126–R131): the timestamp pulses (R53–R55), the ordinary clock as slave
and as master, the transparent clock, and the time of long-haul hops (R135). A PTP frame stands from its common header on; the fields lie where
IEEE 1588-2019 puts them (log entry 63). Ports of the PTP page are numbered from 0.
-/
namespace Sys2Proof.Machine

/-! ### Messages of IEEE 1588-2019 -/

/-- A PTP message: its type, domain, two-step flag, correction field (2^-16 ns), source port identity, sequenceId, logMessageInterval. -/
structure PtpMsg where
  typ : Nat
  domain : Nat
  twoStep : Bool
  corr : Int
  from_ : List Nat
  seq : Nat
  log : Int
  body : List Nat
deriving DecidableEq, Repr

/-- Read a message: versionPTP 2 and minorVersionPTP 0 or 1 alone are accepted (R126). -/
def readPtp (b : List Nat) : Option PtpMsg :=
  if b.length < 44 ∨ nth b 1 % 16 ≠ 2 ∨ 1 < nth b 1 / 16 % 16 then none else
  some { typ := nth b 0 % 16, domain := nth b 4, twoStep := bit (nth b 6) 1, corr := signed 64 (fldBe b 8 8), from_ := slice b 20 10,
         seq := fldBe b 30 2, log := signed 8 (nth b 33), body := b.drop 34 }

/-- The 34 bytes of a common header. -/
def ptpHeader (typ len domain flags : Nat) (corr : Int) (from_ : List Nat) (seq ctl : Nat) (log : Int) : List Nat :=
  [typ, 0x12] ++ be 2 len ++ [domain, 0, flags, 0] ++ be 8 (unsigned 64 corr) ++ [0, 0, 0, 0] ++ from_ ++ be 2 seq ++ [ctl, unsigned 8 log]

/-- A timestamp of ten bytes as 2^-16 ns. -/
def ptpTime (b : List Nat) : Nat := (fldBe b 0 6 * 1000000000 + fldBe b 6 4) * 65536

/-- The ten bytes of an instant (2^-16 ns) in whole nanoseconds. -/
def timeBytes (t : Nat) : List Nat := be 6 (t / 65536 / 1000000000) ++ be 4 (t / 65536 % 1000000000)

/-- This part's clock identity, octet 0 first (R530). -/
def Hw.clockId (h : Hw) : List Nat := le 4 (h.g R.PTP_CLOCK_ID_LO_ID) ++ le 4 (h.g R.PTP_CLOCK_ID_HI_ID)

/-- The port identity of fabric port `i`: PTP numbers ports from 1 (log entry 63). -/
def Hw.portIdentity (h : Hw) (i : Nat) : List Nat := h.clockId ++ be 2 (i + 1)

/-- The port lies in this profile. -/
def Hw.ptpHas (h : Hw) (i : Nat) : Bool := i < h.fabrics && h.running 0x05

/-! ### The ordinary clock as slave (R129–R131) -/

/-- The ordinary clock acts as master. -/
def Hw.ptpMaster (h : Hw) : Bool := h.on R.PTP_CFG_OC_EN && h.on R.PTP_CFG_MASTER

/-- The ordinary clock acts as slave. -/
def Hw.ptpSlave (h : Hw) : Bool := h.on R.PTP_CFG_OC_EN && !h.on R.PTP_CFG_MASTER

/-- The active slave port. -/
def Hw.slavePort (h : Hw) : Nat := if h.ptp.backup then h.g R.PTP_CFG_BACKUP_PORT else h.g R.PTP_CFG_SLAVE_PORT

/-- Show the active port, and let the servo follow it. -/
def Hw.showSlave (h : Hw) : Hw :=
  let h := h.each (List.range h.fabrics) fun h i => h.s (R.PTP_PORT_STAT_SLAVE_ACTIVE.at i) (b2n (h.ptpSlave && h.ptp.alive && h.slavePort == i))
  if h.g R.TIM_CFG_SOURCE = 2 then h.useSource (if h.ptpSlave && h.ptp.alive then 1 + b2n h.ptp.backup else 0) false else h

/-- The slave uses a port from now on (R130): measurements begin anew. -/
def Hw.slaveOn (h : Hw) (backup : Bool) : Hw :=
  let moved := h.ptp.backup != backup
  let h := { h with ptp := { h.ptp with backup := backup, alive := true, lastSync := h.frc, run := none } }
  let h := if moved then
      Hw.raise { h with ptp := { h.ptp with waiting := none, latest := none, dreq := none, mpd := none, outliers := [] } } 0x05 17
    else h
  h.showSlave

/-- A measurement of the slave (R131): an outlier while LOCKED is discarded and counted, until sixteen in a row agree. What the servo predicts is
free (log entry 151). -/
def Hw.ptpMeasure (h : Hw) (off : Int) : Hw :=
  let far := match h.ptp.lastOffset with
    | some p => decide (1000 * 65536 < (off - Config.predict p.1 (h.frc - p.2) h.tim.rate).natAbs)
    | none => false
  if h.g R.TIM_STATUS_SERVO = 3 ∧ far = true then
    let l := (off :: h.ptp.outliers).take 16
    let h := Hw.inc { h with ptp := { h.ptp with outliers := l } } R.PTP_OUTLIER_COUNT
    if l.length = 16 ∧ (l.all fun a => l.all fun b => decide ((a - b).natAbs ≤ 100 * 65536)) = true then
      Hw.measure (Hw.raise { h with ptp := { h.ptp with outliers := [], lastOffset := some (off, h.frc) } } 0x05 18) off
    else h
  else Hw.measure { h with ptp := { h.ptp with outliers := [], lastOffset := some (off, h.frc) } } off

/-- PTP_ASYM of a port in 2^-16 ns. -/
def Hw.asym (h : Hw) (i : Nat) : Int := signed 32 (h.g (R.PTP_ASYM_ASYM.at i)) * 4096

/-- A Sync is complete with its Follow_Up, or alone as one-step (R129): offset = t2 − t1 − mean path delay − corrections − asymmetry. -/
def Hw.syncDone (h : Hw) (y : PtpSync) : Hw :=
  let h := { h with ptp := { h.ptp with waiting := none, latest := some y } }
  match h.ptp.mpd with
  | some d => if h.g R.TIM_CFG_SOURCE = 2 then h.ptpMeasure ((y.t2 : Int) - (y.t1 : Int) - d - y.corr - h.asym h.slavePort) else h
  | none => h

/-- A Sync on the active slave port. -/
def Hw.takeSync (h : Hw) (m : PtpMsg) (t2 : Nat) : Hw :=
  let h := { h with ptp := { h.ptp with lastSync := h.frc, syncLog := if -7 ≤ m.log ∧ m.log ≤ 1 then m.log else h.ptp.syncLog } }
  let y : PtpSync := ⟨m.from_, m.seq, ptpTime m.body, t2, m.corr⟩
  if m.twoStep then { h with ptp := { h.ptp with waiting := some y } } else h.syncDone y

/-- A Follow_Up on the active slave port. -/
def Hw.takeFollowUp (h : Hw) (m : PtpMsg) : Hw :=
  match h.ptp.waiting with
  | some y => if y.from_ = m.from_ ∧ y.seq = m.seq then h.syncDone { y with t1 := ptpTime m.body, corr := y.corr + m.corr } else h
  | none => h

/-- A Delay_Resp on the active slave port (R129): the mean path delay from the last Sync and this exchange; PTP_MPD shows it in 2^-4 ns.
The half rounds down (log entry 62). -/
def Hw.takeDelayResp (h : Hw) (m : PtpMsg) : Hw :=
  match h.ptp.dreq, h.ptp.latest with
  | some (q, some t3), some y =>
    if q = m.seq ∧ slice m.body 10 10 = h.portIdentity h.slavePort then
      let d := (((y.t2 : Int) - (y.t1 : Int) - y.corr - h.asym h.slavePort) + ((ptpTime m.body : Int) - (t3 : Int) - m.corr)) / 2
      let h := { h with ptp := { h.ptp with mpd := some d, dreq := none } }
      h.s R.PTP_MPD_DELAY (unsigned 32 (shiftRne d (-12)))
    else h
  | _, _ => h

/-- A Sync on the primary port while another is in use (R130): after sixteen consecutive ones the slave moves back. -/
def Hw.primarySync (h : Hw) (m : PtpMsg) : Hw :=
  let n := match h.ptp.run with | some (q, n) => if m.seq = (q + 1) % 65536 then n + 1 else 1 | none => 1
  let h := { h with ptp := { h.ptp with run := some (m.seq, n) } }
  if 16 ≤ n then h.slaveOn false else h

/-- Syncs decide which slave port is active (R130); true where the message is then on the active port. -/
def Hw.pickPort (h : Hw) (i : Nat) (m : PtpMsg) : Hw :=
  if !h.ptpSlave || m.typ ≠ 0 || m.domain ≠ h.g R.PTP_CFG_DOMAIN then h
  else if !h.ptp.alive then
    if i = h.g R.PTP_CFG_SLAVE_PORT then h.slaveOn false
    else if h.on R.PTP_CFG_BACKUP_EN ∧ i = h.g R.PTP_CFG_BACKUP_PORT then h.slaveOn true else h
  else if h.ptp.backup ∧ i = h.g R.PTP_CFG_SLAVE_PORT then h.primarySync m
  else h

/-! ### The ordinary clock as master (R126) -/

/-- A Delay_Req is answered with a Delay_Resp; its correction field takes the fraction of t4 that whole nanoseconds leave out (log entry 63). -/
def Hw.answerDelay (h : Hw) (i : Nat) (m : PtpMsg) (t4 : Nat) : Hw :=
  h.ptpSend i 3 0 (ptpHeader 9 54 (h.g R.PTP_CFG_DOMAIN) 0 (m.corr - (t4 % 65536 : Nat)) (h.portIdentity i) m.seq 3 (signed 4 (h.g R.PTP_CFG_LOG_DREQ)) ++
    timeBytes t4 ++ m.from_)

/-! ### Reception (R126–R128) -/

/-- The ordinary clock takes a message of this kind on port `i`. -/
def Hw.ocTakes (h : Hw) (i : Nat) (m : PtpMsg) : Bool :=
  h.on R.PTP_CFG_OC_EN && m.domain == h.g R.PTP_CFG_DOMAIN &&
    (if h.on R.PTP_CFG_MASTER then m.typ == 1
     else h.ptp.alive && h.slavePort == i && (m.typ == 0 || m.typ == 8 || m.typ == 9 || m.typ == 11))

/-- What the ordinary clock does with a message; an event message needs its timestamp (R54, R129).
A Sync without one is not delivered (R130, log entry 148). The grandmaster identity stands in PTP_GM_ID with octets 4 to 7, the first highest, in
LO (R144, log entry 149). -/
def Hw.ocTake (h : Hw) (i : Nat) (m : PtpMsg) (ts : Option Nat) : Hw :=
  match m.typ with
  | 0 => match ts with | some t => h.takeSync m t | none => h
  | 1 => match ts with | some t => h.answerDelay i m t | none => h
  | 8 => h.takeFollowUp m
  | 9 => h.takeDelayResp m
  | _ => (h.s R.PTP_GM_ID_LO_ID (fldBe m.body 23 4)).s R.PTP_GM_ID_HI_ID (fldBe m.body 19 4)

/-- The ports to which the transparent clock forwards a frame of port `i`. -/
def Hw.tcPorts (h : Hw) (i : Nat) : List Nat :=
  if h.on R.PTP_CFG_TC_EN then (List.range h.fabrics).filter fun j => j != i && bit (h.g (R.PTP_TC_FWD_MASK.at i)) j else []

/-- The correction field of a forwarded event message but for its egress instant (R126, R128): less its ingress instant, with the asymmetry of the
port that a Sync arrives on, less that of the port that a Delay_Req leaves by (log entry 150). -/
def Hw.tcBase (h : Hw) (i : Nat) (m : PtpMsg) (t j : Nat) : Int :=
  m.corr - (t : Int) + (if m.typ = 0 then h.asym i else -(h.asym j))

/-- A frame that arrived on port `i` waits in queue 2 of port `j` (R127, log entry 162). -/
def Hw.tcSend (h : Hw) (i : Nat) (bs : List Nat) (m : PtpMsg) (ts : Option Nat) (j : Nat) : Hw :=
  h.onPort j fun x => { x with queue := x.queue ++ [⟨m.typ, m.seq, match ts with | some t => h.tcBase i m t j | none => 0, bs⟩] }

/-- PTP_FRAME_RX (R51, R127): the frame, and whether it ends with FRX_ERR. One longer than the block sends is not forwarded (R51). -/
def execPtpFrameRx (i : Nat) (rx : List Nat × Bool) (s : State) : Result := s.go fun h =>
  let bs := rx.1
  if h.fabrics ≤ i then h else
  let a := h.takeStamp (0x200 + i)
  let h := a.2
  if rx.2 || 9216 < wireBytes 0 bs.length then h.discard (0x200 + i)
  else if !h.running 0x05 then h else
  match readPtp bs with
  | none => h.inc (R.PTP_DISCARD_COUNT.at i)
  | some m =>
    if m.typ = 2 ∨ m.typ = 3 ∨ m.typ = 10 then h.inc (R.PTP_DISCARD_COUNT.at i) else
    let h := h.pickPort i m
    let oc := h.ocTakes i m
    let out := if m.typ < 2 ∧ a.1.isNone ∨ 4608 < wireBytes 0 bs.length then [] else h.tcPorts i
    let h := if oc then h.ocTake i m a.1 else h
    let h := h.each out fun h j => h.tcSend i bs m a.1 j
    if !oc && out.isEmpty then h.inc (R.PTP_DISCARD_COUNT.at i) else h

/-! ### Timestamp pulses (R53–R55) -/

/-- The NT of a pulse sampled now: less the 3-cycle synchroniser and the entered delay (2^-4 ns). -/
def Hw.pulseNt (h : Hw) (delay : Nat) : Nat :=
  (((h.t48 h.frc : Nat) : Int) / 2 ^ 32 - ((3 * h.tim.rate / 2 ^ 32 : Nat) : Int) - fine delay).toNat

/-- TS_RX_SOF_PULSE (R53, R54): queued, at most sixteen. -/
def execTsRxSofPulse (i : Nat) (s : State) : Result := s.go fun h =>
  if !h.ptpHas i then h else
  let t := h.pulseNt (h.g (R.PTP_RX_DLY_DELAY.at i))
  h.onPort i fun x => if x.stamps.length < 16 then { x with stamps := x.stamps ++ [t] } else { x with beyond := true }

/-- The prediction of a frame meets its pulse (R55): an error above 4 ns counts and makes the port unfit; sixteen agreeing frames make it fit. -/
def Hw.checkEgress (h : Hw) (i predicted t : Nat) : Hw :=
  if 4 * 65536 < ((predicted : Int) - (t : Int)).natAbs then
    let h := (h.inc (R.PTP_TX_TS_ERR_COUNT.at i)).s (R.PTP_PORT_STAT_AGREE.at i) 0
    if h.on (R.PTP_PORT_STAT_UNFIT.at i) then h else (h.s (R.PTP_PORT_STAT_UNFIT.at i) 1).raise 0x05 16
  else
    let n := min 16 (h.g (R.PTP_PORT_STAT_AGREE.at i) + 1)
    let h := h.s (R.PTP_PORT_STAT_AGREE.at i) n
    if n = 16 then h.s (R.PTP_PORT_STAT_UNFIT.at i) 0 else h

/-- TS_TX_SOF_PULSE (R53, R55, R126): the pulse of the oldest frame sent on the port that has had none. A Sync's Follow_Up carries it; it is a Delay_Req's t3. -/
def execTsTxSofPulse (i : Nat) (s : State) : Result := s.go fun h =>
  if !h.ptpHas i then h else
  match (h.ptpPort i).sent with
  | [] => h
  | (what, predicted, seq) :: l =>
    let t := h.pulseNt (h.g (R.PTP_TX_LAT_DELAY.at i))
    let h := h.onPort i fun x => { x with sent := l }
    match what with
    | 0 => h.checkEgress i predicted t
    | 1 => h.ptpSend i 3 0 (ptpHeader 8 44 (h.g R.PTP_CFG_DOMAIN) 0 (t % 65536 : Nat) (h.portIdentity i) seq 2 (signed 4 (h.g R.PTP_CFG_LOG_SYNC)) ++ timeBytes t)
    | 2 => match h.ptp.dreq with
      | some (q, none) => if q = seq then { h with ptp := { h.ptp with dreq := some (q, some t) } } else h
      | _ => h
    | _ => h

/-! ### Messages sent in time (R126, R130) -/

/-- An interval has passed since an instant, or it never began. -/
def Hw.elapsed (h : Hw) (since : Option Nat) (d : Nat) : Bool := match since with | some t => decide (t + d ≤ h.frc) | none => true

/-- PTP_SYNC_TX (R126): a two-step Sync of the master on a port at each Sync interval. -/
def execPtpSyncTx (i : Nat) (s : State) : Result := s.go fun h =>
  let x := h.ptpPort i
  let log := signed 4 (h.g R.PTP_CFG_LOG_SYNC)
  if h.ptpHas i && h.ptpMaster && h.elapsed x.syncFrc (logNs log) then
    let h := h.onPort i fun x => { x with syncFrc := some h.frc, syncSeq := (x.syncSeq + 1) % 65536 }
    h.ptpSend i 1 x.syncSeq (ptpHeader 0 44 (h.g R.PTP_CFG_DOMAIN) 2 0 (h.portIdentity i) x.syncSeq 0 log ++ timeBytes 0)
  else h

/-- PTP_DELAY_REQ_TX (R126, R129): a Delay_Req of the slave at each Delay_Req interval, its correction field less the asymmetry. -/
def execPtpDelayReqTx (s : State) : Result := s.go fun h =>
  let i := h.slavePort
  if h.ptpHas i && h.ptpSlave && h.ptp.alive && h.elapsed h.ptp.dreqFrc (logNs (signed 4 (h.g R.PTP_CFG_LOG_DREQ))) then
    let q := h.ptp.dreqSeq
    let h := { h with ptp := { h.ptp with dreqFrc := some h.frc, dreqSeq := (q + 1) % 65536, dreq := some (q, none) } }
    h.ptpSend i 2 q (ptpHeader 1 44 (h.g R.PTP_CFG_DOMAIN) 0 (-(h.asym i)) (h.portIdentity i) q 1 127 ++ timeBytes 0)
  else h

/-- PTP_ANNOUNCE_TX (R126): every second, clockClass 248 and timeSource 0xA0; the other fields are the model's (log entry 63). -/
def execPtpAnnounceTx (i : Nat) (s : State) : Result := s.go fun h =>
  let x := h.ptpPort i
  if h.ptpHas i && h.ptpMaster && h.elapsed x.annFrc 1000000000 then
    let h := h.onPort i fun x => { x with annFrc := some h.frc, annSeq := (x.annSeq + 1) % 65536 }
    h.ptpSend i 3 0 (ptpHeader 11 64 (h.g R.PTP_CFG_DOMAIN) 0 0 (h.portIdentity i) x.annSeq 5 0 ++ timeBytes 0 ++
      [0, 0, 0, 128, 248, 0xFE, 0xFF, 0xFF, 128] ++ h.clockId ++ [0, 0, 0xA0])
  else h

/-- PTP_SLAVE_PORT_TIMEOUT (R130): three Sync intervals without a Sync: the other port, or none. -/
def execPtpSlavePortTimeout (s : State) : Result := s.go fun h =>
  if !(h.running 0x05 && h.ptpSlave && h.ptp.alive) || h.frc < h.ptp.lastSync + 3 * logNs h.ptp.syncLog then h
  else if !h.ptp.backup && h.on R.PTP_CFG_BACKUP_EN then h.slaveOn true
  else Hw.showSlave { h with ptp := { h.ptp with alive := false, run := none } }

/-- The identity of the blob's PTP section is in force (R530, R574). -/
def Hw.applyPtpId (h : Hw) : Hw :=
  if h.sec.ptpId.isEmpty then h else (h.s R.PTP_CLOCK_ID_LO_ID (fld h.sec.ptpId 0 4)).s R.PTP_CLOCK_ID_HI_ID (fld h.sec.ptpId 4 4)

/-- The PTP page enters RUNNING: the primary port is the active one. -/
def Hw.ptpRun (h0 : Hw) : Hw :=
  let h := h0.applyPtpId
  Hw.showSlave { h with ptp := { Ptp.reset with alive := h.ptpSlave, lastSync := h.frc } }

/-- The PTP page aborts (R94): the frames in transit pass uncorrected and count as transmit timestamp errors (log entry 162). -/
def Hw.ptpAbort (h : Hw) : Hw :=
  h.each h.ptp.ports fun h x => h.each x.queue fun h w => (h.ptpSend x.port 3 0 w.bytes).inc (R.PTP_TX_TS_ERR_COUNT.at x.port)

/-- The PTP page leaves RUNNING: no port is usable. -/
def Hw.ptpOff (h : Hw) : Hw := Hw.showSlave { h with ptp := Ptp.reset }

/-! ### Long-haul hops (R135, R203) -/

/-- NT of a capture of the FRC on fabric port `i`, moved by a latency in 2^-4 ns (R53, R124). -/
def Hw.captured (h : Hw) (frc : Nat) (latency : Int) : Int := (h.ntAt frc : Int) + latency * 4096

/-- The TIME record of a hop from the delay and offset of an exchange: the apparent offset, the hop's asymmetry applied, and an advisory verdict on the
far node beyond 100 ns (R135, R203). -/
def Hw.hopRecord (h : Hw) (i : Nat) (m : Int × Int) : Hw :=
  let off := m.2 - h.asym i
  let h := h.onPort i fun x => { x with hopFrc := some h.frc }
  let p := le 2 (0x200 + i) ++ [0, 0] ++ le 4 (unsigned 32 (shiftRne off (-12))) ++ le 4 (unsigned 32 (shiftRne m.1 (-12))) ++ [0, 0, 0, 0]
  let h := h.handOver [h.mkRec 0x18 2 0x1004 h.ownGrade h.stampNode p]
  if 100 * 65536 < off.natAbs then h.advise ((h.link (0x200 + i)).peerNode * 2 ^ 7) else h

/-- LONGHAUL_TIME_RECORD (R135), every second: of the last exchange of probes on the hop. Where none stands since the link came up, it is the one that
the command brings (log entry 166): `t1` and `t4` in the far end's NT, `t2` and `t3` the FRC at which the far probe arrived and this part's left,
which its own clock turns into NT, the entered latencies removed. -/
def execLonghaulTimeRecord (i : Nat) (t1 : Int) (t2 t3 : Nat) (t4 : Int) (s : State) : Result := s.go fun h =>
  if h.prof ≠ .g ∨ !h.ptpHas i ∨ !h.longhaul (0x200 + i) ∨ !h.elapsed (h.ptpPort i).hopFrc 1000000000 then h else
  match (h.link (0x200 + i)).exch with
  | some m => h.hopRecord i m
  | none =>
    if h.frc < max t2 t3 then h else
    h.hopRecord i (twoWay t1 (h.captured t2 (-(h.g (R.PTP_RX_DLY_DELAY.at i) : Int))) (h.captured t3 (h.g (R.PTP_TX_LAT_LAT.at i))) t4)

end Sys2Proof.Machine
end

