-- ==== Sys2Proof/Machine/Wear.lean ====
section
/-!
DEFINITION. Machine/Wear.lean: sensor results (R60, R171, R420) with the hazard comparators (R547, R548), SENSOR records (R421), and the wear
sentinels with their fit (R422–R425).
-/
namespace Sys2Proof.Machine

/-! ### Hazard channels (R547, R548) -/

/-- A result reaches a comparator: its last P results all outside make the condition, and a result ends the channel's silence. -/
def Hw.hazardChan (h : Hw) (v : Int) (c : HzChan) : Hw :=
  let low := decide (v < c.lo)
  let out := low || decide (c.hi < v)
  let n := if out then min (c.outside + 1) c.p else 0
  let now := out && decide (c.p ≤ n)
  let side := if out then (if low then 0 else 1) else c.side
  let c' := { c with outside := n, side := side, last := v, lastFrc := h.frc, active := now, silent := false }
  let h := { h with saf := { h.saf with hz := h.saf.hz.map fun x => if x.ch = c.ch then c' else x } }
  let h := if c.silent then h.hazardEnd 3 c.ch v 2 else h
  if now && !c.active then h.hazardOnset 0 c.ch v side
  else if c.active && !now then h.hazardEnd 0 c.ch v c.side
  else h

/-- The hazard path takes a result; it runs while the always-on domain is powered. -/
def Hw.hazardResult (h : Hw) (ch : Nat) (v : Int) : Hw :=
  h.each (h.saf.hz.filter fun c => c.ch == ch) fun h c => h.hazardChan v c

/-! ### SENSOR records (R420, R421) -/

/-- Sensor channels of the profile (R60). -/
def Hw.sensorCount (h : Hw) : Nat := h.prof.sel 256 1024 4096

/-- The stamp of a result (R420): the latest pulse of the CONV_START output that its channel is mapped to, or its arrival. -/
def Hw.resultStamp (h : Hw) (ch : Nat) : Stamp :=
  match h.sec.sensorMap.find? fun m => m.1 == ch with
  | some m => match h.hlt.conv.find? fun x => x.1 == m.2 with | some x => x.2 | none => h.stampOwn
  | none => h.stampOwn

/-- Close the open SENSOR record. -/
def Hw.closeSensor (h : Hw) : Hw :=
  let es := h.hlt.open_
  if es.isEmpty then h else
  let st := h.hlt.openStamp
  let body := es.flatMap fun e => le 2 e.1 ++ le 2 (unsigned 16 e.2.1) ++ le 4 (unsigned 32 ((e.2.2 : Int) - ((st.nt / 65536 : Nat) : Int)))
  let h := { h with hlt := { h.hlt with open_ := [] } }
  h.handOver [h.mkRec 0x49 3 0x0900 h.ownGrade st (le 2 es.length ++ [0, 0, 0, 0, 0, 0] ++ body)]

/-- The buffer of stream 0x0900 has no room for one more result beside the records that wait in it and the open record (R421; log entry 186). -/
def Hw.sensorFull (h : Hw) : Bool :=
  let held := (h.stream (h.source 0x0900)).held
  !held.isEmpty && decide (Config.sensorRoom < total (held.map Rec.size) + 24 + 8 * (h.hlt.open_.length + 1))

/-- A result that finds no room is lost with reason SOURCE_FULL (R368, R421): it stands for a record of its own, which takes the stream's next
SEQ and is dropped. -/
def Hw.sourceFull (h : Hw) (ch : Nat) (v : Int) (st : Stamp) : Hw :=
  let s := h.stream (h.source 0x0900)
  let r := { h.mkRec 0x49 3 0x0900 h.ownGrade st (le 2 1 ++ [0, 0, 0, 0, 0, 0] ++ le 2 ch ++ le 2 (unsigned 16 v) ++ le 4 0) with seq := s.nextSeq }
  ((h.putStream { s with nextSeq := succ32 s.nextSeq }).ledger 3 fun l => { l with produced := l.produced + 1 }).dropRec r 8 0 []

/-- A result of a channel in HLT_SENS_EN enters the open record, which closes at 255 entries. -/
def Hw.sensorEntry (h : Hw) (ch : Nat) (v : Int) : Hw :=
  if !h.running 0x40 || !bit (h.g (R.HLT_SENS_EN_EN.at (ch / 32))) (ch % 32) then h else
  let st := h.resultStamp ch
  let x := h.hlt
  if h.sensorFull then h.sourceFull ch v st else
  let h := if x.open_.isEmpty then { h with hlt := { x with openFrc := h.frc, openStamp := st } } else h
  let h := { h with hlt := { h.hlt with open_ := h.hlt.open_ ++ [(ch, v, st.nt / 65536)] } }
  if h.hlt.open_.length = 255 then h.closeSensor else h

/-! ### Optical monitors -/

/-- Optical lanes (R426). -/
def Hw.opticalLanes (h : Hw) : Nat := h.prof.sel 0 64 256

/-- Heater groups (R434). -/
def Hw.groupCount (h : Hw) : Nat := h.prof.sel 0 4 16

/-- The state of a lane. -/
def Hw.lane (h : Hw) (n : Nat) : Lane := (h.opt.lanes.find? fun x => x.num == n).getD ⟨n, 0, 0, [], 0⟩

def Hw.putLane (h : Hw) (x : Lane) : Hw := { h with opt := { h.opt with lanes := x :: h.opt.lanes.filter fun y => y.num != x.num } }

/-- A result reaches the OPT page: the sums of the period (R427), the fade means (R430), the loops that wait for results (R434). -/
def Hw.opticalResult (h : Hw) (ch : Nat) (v : Int) : Hw :=
  if !h.running 0x42 then h else
  let h := { h with opt := { h.opt with sums := addSum ch v h.opt.sums } }
  let mine := (List.range h.opticalLanes).filter fun n => h.g (R.LN_CFG_MODE.at n) == 1 && h.g (R.LN_CH0_CH_LAS.at n) == ch
  let h := h.each mine fun h n => let l := h.lane n; h.putLane { l with fadeSum := l.fadeSum + v, fadeN := l.fadeN + 1 }
  if h.opt.latched then h else
  h.each (List.range h.groupCount) fun h g =>
    let b := h.g (R.HG_CFG_MEAS_BASE.at g)
    if h.on (R.HG_CFG_EN.at g) ∧ b ≤ ch ∧ ch < b + h.g (R.HG_CFG_N.at g) then
      let x := h.heatGroup g
      let x' := { x with meas := (ch - b, v) :: x.meas.filter fun m => m.1 != ch - b }
      { h with opt := { h.opt with groups := x' :: h.opt.groups.filter fun y => y.num != g } }
    else h

/-- SENSOR_RESULT (R60): `v` is the 16-bit result of channel `ch`. A channel above the profile's range is discarded and counted. -/
def execSensorResult (ch v : Nat) (s : State) : Result := s.go fun h =>
  if !h.pwr.aon then h
  else if h.sensorCount ≤ ch then (if h.pwr.core then h.inc R.HLT_SENS_RANGE_COUNT else h)
  else
    let x := signed 16 v
    let h := h.hazardResult ch x
    if !h.pwr.core then h else
    let h := h.countSensor ch x
    let h := if ch = h.g R.TIM_CFG_TEMP_CH then h.tempResult x else h
    let h := { h with hlt := { h.hlt with latest := (ch, x) :: h.hlt.latest.filter fun e => e.1 != ch } }
    (h.sensorEntry ch x).opticalResult ch x

/-- SENSOR_RECORD_CLOSE_TIMER (R421). -/
def execSensorRecordCloseTimer (s : State) : Result := s.go fun h =>
  if h.running 0x40 && !h.hlt.open_.isEmpty && h.hlt.openFrc + 100000 ≤ h.frc then h.closeSensor else h

/-! ### Wear sentinels (R422–R425) -/

/-- The sentinels whose WS_EN output is high. -/
def Hw.sentinelsOn (h : Hw) : List Nat := match h.prof with | .l => (List.range 64).filter Config.wsEn | _ => []

def Hw.sentinel (h : Hw) (n : Nat) : Sentinel := (h.hlt.sentinels.find? fun x => x.num == n).getD ⟨n, 0, []⟩

def Hw.putSentinel (h : Hw) (x : Sentinel) : Hw :=
  { h with hlt := { h.hlt with sentinels := x :: h.hlt.sentinels.filter fun y => y.num != x.num } }

/-- SENTINEL_SAMPLE_START (R422): every INTERVAL_S, all enabled sentinels together; a sample waits while TRANSIENT is set. -/
def execSentinelSampleStart (s : State) : Result := s.go fun h =>
  if h.prof = .l ∧ h.running 0x40 ∧ h.hlt.gate.isNone ∧ !h.on R.TIM_STATUS_TRANSIENT ∧
      h.hlt.lastFrc + h.g R.HLT_WS_CFG_INTERVAL_S * 1000000000 ≤ h.frc then
    let zero (x : Sentinel) : Sentinel := { x with edges := 0 }
    Hw.emit { h with hlt := { h.hlt with gate := some h.frc, lastFrc := h.frc, sentinels := h.hlt.sentinels.map zero } } .sentinelGate
  else h

/-- WS_OUT_EDGE (R171, R422): an edge of a sentinel's output in the counter slots that name it, and in the gate under way. -/
def execWsOutEdge (n : Nat) (s : State) : Result := s.go fun h =>
  if h.prof ≠ .l ∨ !h.pwr.core ∨ 64 ≤ n then h else
  let h := h.count 4 n 0 1
  if h.hlt.gate.isSome then let x := h.sentinel n; h.putSentinel { x with edges := x.edges + 1 } else h

/-- An FP32 parameter of a sentinel's class as FP64. -/
def Hw.wearParam (h : Hw) (n : Nat) (f : Field) : Nat := fp32F.conv fp64F (h.g (f.at (h.g (R.HLT_WS_CLASS_CLASS.at n))))

/-- hours of R424: HLT_AGE_H plus the whole hours of the operating time. -/
def Hw.wearHours (h : Hw) : Nat := h.g R.HLT_AGE_H_HOURS + h.g R.EVR_OPTIME_S / 3600

/-- Tenths of a degree as FP64 degrees. -/
def degrees (t : Int) : Nat := fp64F.enc (decide (t < 0)) t.natAbs 10 0

/-- 1e-6 and 20e-6 as FP64. -/
def micro (n : Nat) : Nat := fp64F.enc false n 1000000 0

/-- fc of R424: the frequency corrected to T_REF. -/
def Hw.wearCorrect (h : Hw) (n f : Nat) (temp : Int) : Nat :=
  let dt := fsub (degrees temp) (degrees (signed 16 (h.g R.HLT_T_REF_TEMP)))
  fmul (fofNat f) (fsub (fofNat 1) (fmul (fmul (h.wearParam n R.HLT_WM_TC_TC) (micro 1)) dt))

/-- The sums of a sentinel: N, S1, S2. -/
def Hw.wearSums (h : Hw) (n : Nat) : Nat × Nat × Nat :=
  (h.g (R.HLT_WS_N_N.at n), h.g64 (R.HLT_WS_S1_S1.at (2 * n)) (R.HLT_WS_S1_S1.at (2 * n + 1)),
   h.g64 (R.HLT_WS_S2_S2.at (2 * n)) (R.HLT_WS_S2_S2.at (2 * n + 1)))

def Hw.putSums (h : Hw) (n N s1 s2 : Nat) : Hw :=
  let h := (h.s (R.HLT_WS_N_N.at n) N).s64 (R.HLT_WS_S1_S1.at (2 * n)) (R.HLT_WS_S1_S1.at (2 * n + 1)) s1
  h.s64 (R.HLT_WS_S2_S2.at (2 * n)) (R.HLT_WS_S2_S2.at (2 * n + 1)) s2

/-- A sentinel's baseline becomes `f0`, which clears its sums (R423, R575). -/
def Hw.setBaseline (h : Hw) (n f0 : Nat) : Hw :=
  let old := h.g (R.HLT_WS_BASE_F0.at n)
  let h := ((h.s (R.HLT_WS_BASE_F0.at n) f0).putSums n 0 0 0).liveUpdate 8 n f0 old
  h.putSentinel { h.sentinel n with learn := [] }

/-- EOL, EARLY and LATE from the sums (R424): none below 8 samples. -/
def Hw.wearAges (h : Hw) (n : Nat) : Option (Nat × Nat × Nat) :=
  let t := h.wearSums n
  if t.1 < 8 then none else
  let N := fofNat t.1
  let a := fdiv t.2.1 N
  let v := fdiv (fsub t.2.2 (fdiv (fmul t.2.1 t.2.1) N)) (fsub N (fofNat 1))
  let s := fsqrt (if flt 0 v || fp64F.isNan v then v else 0)
  let base := fsub (fln (h.wearParam n R.HLT_WM_LIM_LIM)) a
  let zs := fmul (h.wearParam n R.HLT_WM_Z_Z) s
  let age (x : Nat) : Nat := ffloor 0xFFFFFFFF (fexp (fdiv x (h.wearParam n R.HLT_WM_NEXP_NEXP)))
  some (age base, age (fsub base zs), age (fadd base zs))

/-- One sentinel's sample (R422–R424): the frequency, the learning of its baseline or the fit, and its HEALTH record of kind 0. -/
def Hw.sampleSentinel (h : Hw) (temp : Int) (n : Nat) : Hw :=
  let x := h.sentinel n
  let f := x.edges * 100
  let h := h.s (R.HLT_WS_LAST_F_F.at n) f
  let f0 := h.g (R.HLT_WS_BASE_F0.at n)
  let hours := h.wearHours
  let fc := h.wearCorrect n f temp
  let d := fdiv (fsub (fofNat f0) fc) (fofNat f0)
  let low := flt d (micro 20) || hours < 1
  let done (h : Hw) (flags ppm : Nat) : Hw :=
    let ages := h.wearAges n
    let e := ages.getD (0xFFFFFFFF, 0xFFFFFFFF, 0xFFFFFFFF)
    let h := if bit flags 0 || bit flags 1 then h.raise 0x40 17 else h
    h.healthRec 0 (flags + 4 * b2n ages.isNone) n (le 4 f ++ le 4 (h.g (R.HLT_WS_BASE_F0.at n)) ++ le 2 (unsigned 16 temp) ++ [0, 0] ++ le 4 ppm ++
      le 4 (h.wearSums n).1 ++ le 4 e.1 ++ le 4 e.2.1 ++ le 4 e.2.2 ++ le 4 hours)
  if f = 0 then done h 1 0
  else if f0 = 0 then
    let l := x.learn ++ [fc]
    if l.length < 16 then done (h.putSentinel { x with learn := l }) 16 0 else
    let sorted := l.foldl (fun a y => insertInt (fp64F.key y) a) []
    let key := sorted.getD 7 0
    let median := if key < 0 then fp64F.sign + key.natAbs else key.natAbs
    done ((h.setBaseline n (fround 0 0xFFFFFFFF median).toNat).raise 0x40 16) 8 0
  else
    let ppm := unsigned 32 (fround (-(2 ^ 31)) (2 ^ 31 - 1) (fmul d (fofNat 1000000)))
    if low then done h 2 ppm else
    let t := h.wearSums n
    let y := fsub (fln d) (fmul (h.wearParam n R.HLT_WM_NEXP_NEXP) (fln (fofNat hours)))
    done (h.putSums n (t.1 + 1) (fadd t.2.1 y) (fadd t.2.2 (fmul y y))) 0 ppm

/-- The die's ages (R425): those of the sentinel with the smallest EARLY, in the registers and a HEALTH record of kind 1. -/
def Hw.dieWear (h : Hw) : Hw :=
  let all := h.sentinelsOn.filterMap fun n => (h.wearAges n).map fun a => (n, a)
  let best := all.foldl (fun (b : Option (Nat × Nat × Nat × Nat)) x =>
    match b with | none => some x | some y => if x.2.2.1 < y.2.2.1 then some x else some y) none
  let b := best.getD (0, 0xFFFFFFFF, 0xFFFFFFFF, 0xFFFFFFFF)
  let h := ((h.s R.HLT_EOL_H_HOURS b.2.1).s R.HLT_EARLY_H_HOURS b.2.2.1).s R.HLT_LATE_H_HOURS b.2.2.2
  h.healthRec 1 (4 * b2n best.isNone) b.1 (le 4 b.2.1 ++ le 4 b.2.2.1 ++ le 4 b.2.2.2 ++ le 4 h.wearHours)

/-- SENTINEL_GATE_COMPLETE (R422–R425): the gate of 1,000,000 ACLK cycles has ended. A temperature never read is open (log entry 64). -/
def execSentinelGateComplete (s : State) : Result := s.go fun h =>
  match h.hlt.gate with
  | none => h
  | some t =>
    if h.frc < t + 10000000 || !h.running 0x40 then h else
    let h := { h with hlt := { h.hlt with gate := none } }
    let known := h.hlt.latest.find? fun e => e.1 == h.g R.HLT_WS_CFG_TEMP_CH
    let h := if known.isSome then h else h.fresh.2
    let temp := match known with | some e => e.2 | none => signed 16 h.fresh.1
    (h.each h.sentinelsOn fun h n => h.sampleSentinel temp n).dieWear

/-- The HLT page may be enabled (R439): no enabled sentinel's class has NEXP 0 or a LIM outside (0, 1). -/
def Hw.wearOk (h : Hw) : Bool :=
  h.sentinelsOn.all fun n =>
    let lim := h.wearParam n R.HLT_WM_LIM_LIM
    fp64F.mag (h.wearParam n R.HLT_WM_NEXP_NEXP) != 0 && flt 0 lim && flt lim (fofNat 1)

/-- The HLT page enters RUNNING: an interval begins. -/
def Hw.hltRun (h : Hw) : Hw := { h with hlt := { h.hlt with lastFrc := h.frc, gate := none } }

/-- The HLT page drains: the open record goes out. -/
def Hw.hltDrain (h : Hw) : Hw := Hw.closeSensor { h with hlt := { h.hlt with gate := none } }

/-- The HLT page aborts: sampling stops and the open record's results are gone (R94). -/
def Hw.hltAbort (h : Hw) : Hw := { h with hlt := { h.hlt with gate := none, open_ := [] } }

end Sys2Proof.Machine
end

