-- ==== Sys2Proof/Machine/Optics.lean ====
section
/-!
DEFINITION. Machine/Optics.lean: optical lanes and loss localisation (R426–R429), laser fade (R430), pre-arming and switching (R431–R433), the
heater loops with their calibration (R434–R437), and the hardware timers' firings (R140, R141).
-/
namespace Sys2Proof.Machine

/-! ### The evaluation (R426–R429, R432) -/

/-- The mean kept under a key, rounded to nearest even. -/
def meanOf (k : Nat) (l : List (Nat × Int × Nat)) : Option Int := (l.find? fun x => x.1 == k).map fun x => rneInt x.2.1 x.2.2

/-- The powers of a transmit lane's five stages in this period, none where missing (R426, R427). -/
def Hw.stagePowers (h : Hw) (n : Nat) : List (Option Int) :=
  let ch (f : Field) : Option Int := let c := h.g (f.at n); if c = 0xFFF then none else meanOf c h.opt.sums
  [ch R.LN_CH0_CH_LAS, ch R.LN_CH0_CH_MOD, ch R.LN_CH1_CH_MUX, ch R.LN_CH1_CH_CPL,
   if h.g (R.LN_CH2_CH_RX.at n) = 0xFFF then meanOf (h.g (R.LN_KEY_KEY.at n)) h.opt.remote else ch R.LN_CH2_CH_RX]

/-- The excess of each present stage after the laser (R427): stage, excess, whether a missing stage's loss is merged. `prev` is the nearest
earlier power and `acc` the nominal losses (0.01 dB) since. -/
def excesses (noms : List Int) : List (Option Int) → Nat → Option Int → Int → Bool → List (Nat × Int × Bool)
  | [], _, _, _, _ => []
  | p :: t, k, prev, acc, skip =>
    let acc := acc + noms.getD k 0
    match p with
    | none => excesses noms t (k + 1) prev acc true
    | some v =>
      let r := excesses noms t (k + 1) (some v) 0 false
      match prev with | some q => (k, q - v - acc, skip) :: r | none => r

/-- Deficit and excesses of a lane (R427). -/
def Hw.losses (h : Hw) (n : Nat) (ps : List (Option Int)) : List (Nat × Int × Bool) :=
  let nom := h.g (R.LN_NOM_NOM.at n)
  let noms : List Int := 0 :: (List.range 4).map fun i => ((bits nom (8 * i) 8 * 10 : Nat) : Int)
  let las := ps.getD 0 none
  (match las with | some p => [(0, signed 16 (h.g (R.LN_PWR_P_LAS_NOM.at n)) - p, false)] | none => []) ++
    excesses noms (ps.drop 1) 1 las 0 las.isNone

/-- The located stage (R427): the earliest whose deficit or excess is greatest, above EXCESS. -/
def Hw.locate (h : Hw) (l : List (Nat × Int × Bool)) : Option (Nat × Int × Bool) :=
  let best := l.foldl (fun (b : Option (Nat × Int × Bool)) x => match b with | none => some x | some y => if y.2.1 < x.2.1 then some x else some y) none
  match best with
  | some x => if ((h.g R.OPT_LOC_EXCESS : Nat) : Int) < x.2.1 then some x else none
  | none => none

/-- A lane evaluated: its number, powers, located stage with its loss, whether a loss was merged. -/
structure LaneEval where
  num : Nat
  ps : List (Option Int)
  loc : Option (Nat × Int × Bool)
  merged : Bool
deriving DecidableEq, Repr

def Hw.evalLane (h : Hw) (n : Nat) : LaneEval :=
  let ps := h.stagePowers n
  let l := h.losses n ps
  let loc := h.locate l
  ⟨n, ps, loc, match loc with | some x => x.2.2 | none => l.any fun x => x.2.2⟩

/-- The scope of a located stage (R428): 0 the lane, 1 the multiplexer group, 2 the coupler group. -/
def Hw.lossScope (h : Hw) (all : List LaneEval) (e : LaneEval) : Nat :=
  match e.loc with
  | none => 0
  | some (k, _, _) =>
    let grp : Option (Field × Nat) := if k = 2 then some (R.LN_CFG_MUXGRP, 1) else if k = 3 then some (R.LN_CFG_CPLGRP, 2) else none
    match grp with
    | none => 0
    | some (f, scope) =>
      let g := h.g (f.at e.num)
      let same := all.filter fun x => h.g (f.at x.num) == g
      let here := (same.filter fun x => match x.loc with | some y => y.1 == k | none => false).length
      let having := (same.filter fun x => (x.ps.getD k none).isSome).length
      if g ≠ 0 ∧ 2 ≤ here ∧ having ≤ 2 * here then scope else 0

/-- A power of a HEALTH record. -/
def powerBytes (p : Option Int) : List Nat := le 2 (match p with | some v => unsigned 16 v | none => 0x8000)

/-- The crossing check (R432, R433): the DEBOUNCE-th evaluation below P_MIN in a row offers a SWITCH entry; after SWITCHED none
until the lane is redefined. -/
def Hw.crossing (h : Hw) (e : LaneEval) : Hw :=
  let l := h.lane e.num
  let under := match e.ps.getD 0 none with | some p => decide (p < signed 16 (h.g (R.LN_PWR_P_MIN.at e.num))) | none => false
  let n := if under then l.below + 1 else 0
  let h := h.putLane { l with below := n }
  let fs := h.g (R.LN_STAT_FSTATE.at e.num)
  if n = h.g R.OPT_LOC_DEBOUNCE ∧ fs ≠ 4 then
    let o := h.offer e.num 5
    let h := o.1.raise 0x42 18
    if o.2 && h.g (R.LN_STAT_FSTATE.at e.num) != 4 then h.setFstate e.num 3 else h
  else h

/-- One transmit lane's outcome (R427–R429): the HEALTH record, LN_STAT, LOCATED and the advisory verdict, the crossing. -/
def Hw.laneOutcome (h : Hw) (all : List LaneEval) (e : LaneEval) : Hw :=
  let scope := h.lossScope all e
  let stage := match e.loc with | some x => x.1 + 1 | none => 0
  let loss := match e.loc with | some x => unsigned 16 x.2.1 | none => 0
  let h := (h.s (R.LN_STAT_LOC.at e.num) stage).s (R.LN_STAT_SCOPE.at e.num) scope
  let h := h.healthRec 2 (b2n e.merged) e.num (e.ps.flatMap powerBytes ++ [stage, scope] ++ le 2 loss)
  let h := if e.loc.isSome then (h.raise 0x42 16).advise (2 ^ 31 + e.num) else h
  h.crossing e

/-- A receive lane's HEALTH record of kind 3 (R426). -/
def Hw.receiveLane (h : Hw) (n : Nat) : Hw :=
  let c := h.g (R.LN_CH2_CH_RX.at n)
  h.healthRec 3 0 n (le 4 (h.g (R.LN_KEY_KEY.at n)) ++ powerBytes (if c = 0xFFF then none else meanOf c h.opt.sums))

/-- The lanes of a mode. -/
def Hw.lanesOf (h : Hw) (mode : Nat) : List Nat := (List.range h.opticalLanes).filter fun n => h.g (R.LN_CFG_MODE.at n) == mode

/-- OPTICAL_EVALUATION (R427): every EVAL_MS. -/
def execOpticalEvaluation (s : State) : Result := s.go fun h =>
  if h.running 0x42 && h.opt.evalFrc + h.g R.OPT_CFG_EVAL_MS * 1000000 ≤ h.frc then
    let all := (h.lanesOf 1).map h.evalLane
    let rx := h.lanesOf 2
    let h := h.each all fun h e => h.laneOutcome all e
    let h := h.each rx fun h n => h.receiveLane n
    { h with opt := { h.opt with evalFrc := h.frc, sums := [], remote := [] } }
  else h

/-! ### Laser fade (R430, R431) -/

/-- The least-squares line of a lane (R430), exact and rounded once to FP64: the power at the newest mean (dBm), the slope (dB/h), its standard
error (log entry 65). Points are (hours from the newest mean, power). -/
def fitLine (pts : List (Frac × Frac)) : Nat × Nat × Nat × Frac :=
  let n : Frac := ⟨pts.length, 1⟩
  let sx := Frac.sum (pts.map fun p => p.1)
  let sy := Frac.sum (pts.map fun p => p.2)
  let sxx := (Frac.sum (pts.map fun p => p.1.mul p.1)).add ((sx.mul sx).div n).neg |>.low
  let sxy := (Frac.sum (pts.map fun p => p.1.mul p.2)).add ((sx.mul sy).div n).neg |>.low
  let syy := (Frac.sum (pts.map fun p => p.2.mul p.2)).add ((sy.mul sy).div n).neg |>.low
  let b := (sxy.div sxx).low
  let a := ((sy.div n).add ((b.mul sx).div n).neg).low
  let sse := (syy.add (b.mul sxy).neg).low
  let var := ((sse.div ⟨pts.length - 2, 1⟩).div sxx).low
  (a.enc fp64F, b.enc fp64F, fsqrt (var.enc fp64F), a)

/-- The prediction of a lane after a new mean (R430): the HEALTH record of kind 4, and the PREARM offer (R431). -/
def Hw.predict (h : Hw) (n : Nat) (l : Lane) : Hw :=
  match l.means.head? with
  | none => h
  | some m0 =>
    let pts := l.means.map fun m => ((⟨-((m0.1 - m.1 : Nat) : Int), 3600000000000⟩ : Frac).low, (⟨m.2.1, m.2.2 * 100⟩ : Frac).low)
    let f := fitLine pts
    let a := f.1
    let b := f.2.1
    let se := f.2.2.1
    let falls := fp64F.isNeg b && fp64F.mag b != 0
    let pmin := fp64F.enc (decide (signed 16 (h.g (R.LN_PWR_P_MIN.at n)) < 0)) (signed 16 (h.g (R.LN_PWR_P_MIN.at n))).natAbs 100 0
    let z := fp64F.enc false (h.g R.OPT_FADE_Z) 16 0
    let early := fdiv (fsub pmin a) (fsub b (fmul z se))
    let secs (t : Nat) : Nat := if falls then ffloor 0xFFFFFFFF (fmul t (fofNat 3600)) else 0xFFFFFFFF
    let fs := h.g (R.LN_STAT_FSTATE.at n)
    let a16 := unsigned 16 (rneInt (f.2.2.2.n * 100) f.2.2.2.d)
    let h := h.healthRec 4 0 n (le 2 a16 ++ [0, 0] ++ le 4 (fp64F.conv fp32F b) ++ le 4 (fp64F.conv fp32F se) ++
      le 4 (secs (fdiv (fsub pmin a) b)) ++ le 4 (secs early) ++ [fs])
    let soon := falls && !flt (fofNat (h.g R.OPT_FADE_PREARM_H)) early
    if soon && h.on (R.LN_SPARE_EN.at n) && fs == 0 then
      let o := h.offer n 4
      let h := o.1.raise 0x42 17
      if o.2 && h.g (R.LN_STAT_FSTATE.at n) == 0 then h.setFstate n 1 else h
    else h

/-- One lane's new mean. -/
def Hw.fadeMean (h : Hw) (n : Nat) : Hw :=
  let l := h.lane n
  if l.fadeN = 0 then h else
  let l := { l with fadeSum := 0, fadeN := 0, means := ((h.frc, l.fadeSum, l.fadeN) :: l.means).take 64 }
  let h := h.putLane l
  if 16 ≤ l.means.length then h.predict n l else h

/-- FADE_INTERVAL (R430): every FADE_INT_S. -/
def execFadeInterval (s : State) : Result := s.go fun h =>
  if h.running 0x42 && h.opt.fadeFrc + h.g R.OPT_FADE_FADE_INT_S * 1000000000 ≤ h.frc then
    let h := h.each (h.lanesOf 1) fun h n => h.fadeMean n
    { h with opt := { h.opt with fadeFrc := h.frc } }
  else h

/-- The lane's definition changes in MODE or CH_LAS (R430, R433): its means and crossing begin anew, and it is TRACKING. -/
def Hw.redefineLane (h : Hw) (n : Nat) : Hw := (h.putLane ⟨n, 0, 0, [], 0⟩).setFstate n 0

/-! ### SWITCH_EXECUTION (R432) -/

/-- SW_LIST is 0, or gate SW_GATE is open in that list. -/
def Hw.switchGate (h : Hw) : Bool :=
  match h.g R.OPT_CFG_SW_LIST with
  | 0 => true
  | g => bit (h.gatesNow (g - 1)).2.1 (h.g R.OPT_CFG_SW_GATE)

/-- An authorised SWITCH entry may execute: at once where the lane is PREARMED, else from 60 s on (R432). -/
def Hw.switchRipe (h : Hw) (e : VEntry) : Bool :=
  e.kind == 2 && e.state == 3 && !e.due && (e.prior == 2 || decide (e.authFrc + 60000000000 ≤ h.frc))

/-- It waits for an opening: the gate must have been closed since it may execute, and SW_LIST 0 asks for none. -/
def Hw.switchOpens (h : Hw) (e : VEntry) : Bool := h.switchGate && (e.shut || h.g R.OPT_CFG_SW_LIST == 0)

/-- A tick notes the ripe entries whose gate is closed (R432). -/
def Hw.switchTick (h : Hw) : Hw :=
  let es := h.vrd.entries.filter fun e => h.switchRipe e && !e.shut
  if es.isEmpty || h.switchGate then h else h.each es fun h e => h.putEntry { e with shut := true }

/-- SWITCH_EXECUTION: the execution instant of authorised SWITCH entry `n` (R432): its gate opens, 60 s after the authorisation where the lane was
not PREARMED. -/
def execSwitchExecution (n : Nat) (s : State) : Result := s.go fun h =>
  match h.vEntry n with
  | none => h
  | some e =>
    if h.running 0x42 && h.switchRipe e && h.switchOpens e then h.atInstant e else h

/-! ### Heater loops (R434–R437) -/

/-- HOLD of channel `j` of group `g`. -/
def Hw.heaterHeld (h : Hw) (g j : Nat) : Bool := bit (h.g (R.HG_HOLD_HOLD.at (2 * g + j / 32))) (j % 32)

/-- The start of a period (R434, R436): a swap takes effect, the measurements begin anew. -/
def Hw.loopStart (h : Hw) : Hw :=
  let h := h.each (List.range h.groupCount) fun h g =>
    let x := h.heatGroup g
    let h := if x.swap then h.liveUpdate 7 g x.done 0 else h
    let x := if x.swap then { x with active := x.shadow, swap := false } else x
    h.putGroup { x with meas := [] }
  Hw.convStart { h with opt := { h.opt with loopFrc := h.frc, latched := false } } (h.g R.OPT_CFG_CONV)

/-- The new codes of a group (R435). -/
def Hw.newCodes (h : Hw) (g : Nat) (x : HeatGroup) : List Nat :=
  let n := h.g (R.HG_CFG_N.at g)
  let gain : Int := (h.g (R.HG_GAIN_GAIN.at g) : Nat)
  let dmax : Int := (h.g (R.HG_GAIN_DMAX.at g) : Nat)
  let m (j : Nat) : Int := match x.meas.find? fun y => y.1 == j with | some y => y.2 | none => 0
  let e := (List.range n).map fun j => if h.heaterHeld g j then 0 else signed 16 (h.g (R.HG_SP_SP.at (64 * g + j))) - m j
  let minv (i j : Nat) : Int := match x.active.find? fun y => y.1 == 64 * i + j with | some y => y.2 | none => 0
  (List.range 64).map fun i =>
    let u := nth x.codes i
    if n ≤ i ∨ h.heaterHeld g i then u else
    let acc := ((List.range n).map fun j => minv i j * e.getD j 0).foldl (· + ·) 0
    let du := (clampTo (-dmax) dmax (shiftRne (acc * gain) (-(14 + ((h.g (R.HG_GAIN_GSHIFT.at g) : Nat) : Int))))).1
    (clampTo 0 65535 ((u : Int) + du)).1.toNat

/-- Drive the codes of a group on HTR, but for held heaters (R434). -/
def Hw.driveGroup (h : Hw) (g : Nat) (x : HeatGroup) : Hw :=
  h.each ((List.range (h.g (R.HG_CFG_N.at g))).filter fun j => !h.heaterHeld g j) fun h j => h.emit (.heater g j (nth x.codes j))

/-- DITHER in codes: its unit is 16 codes (R440). -/
def Hw.dither (h : Hw) (g : Nat) : Nat := 16 * h.g (R.HG_GAIN_DITHER.at g)

/-- Add the measurements of a period to a list of sums. -/
def addMeas (n : Nat) (meas : List (Nat × Int)) (l : List Int) : List Int :=
  (List.range n).map fun j => l.getD j 0 + (match meas.find? fun y => y.1 == j with | some y => y.2 | none => 0)

/-- One period of a calibration (R436), counted from the one after HG_CMD CAL: heater `j` is raised in periods 4 to 7, its column found, and eight
normal periods follow. The difference of the two-period sums is kept; a column is that over 2 × DITHER. -/
def Hw.calPeriod (h : Hw) (g : Nat) (x : HeatGroup) (c : HeatCal) : Hw :=
  let n := h.g (R.HG_CFG_N.at g)
  let k := c.period
  let c := if k = 0 then { c with code := nth x.codes c.j, low := [], high := [] } else c
  let c := if k = 2 ∨ k = 3 then { c with low := addMeas n x.meas c.low } else if k = 6 ∨ k = 7 then { c with high := addMeas n x.meas c.high } else c
  let x := if k = 4 ∧ !h.heaterHeld g c.j then { x with codes := setAt x.codes c.j (min 65535 (c.code + h.dither g)) }
    else if k = 8 then { x with codes := setAt x.codes c.j c.code } else x
  let c := if k = 8 then { c with cols := c.cols ++ [(List.range n).map fun i => c.high.getD i 0 - c.low.getD i 0] } else c
  let x := if 8 ≤ k then { x with codes := h.newCodes g x } else x
  let h := h.driveGroup g x
  if k = 15 ∧ c.j + 1 = n then h.putGroup { x with cal := none, result := some c.cols }
  else h.putGroup { x with cal := some (if k = 15 then { c with j := c.j + 1, period := 0 } else { c with period := k + 1 }) }

/-- The latched results of one group (R434): a missing one skips the period. -/
def Hw.loopGroup (h : Hw) (g : Nat) : Hw :=
  if !h.on (R.HG_CFG_EN.at g) then h else
  let x := h.heatGroup g
  let n := h.g (R.HG_CFG_N.at g)
  if !((List.range n).all fun j => x.meas.any fun y => y.1 == j) then (h.incSat (R.HG_STAT_MISSED.at g)).raise 0x42 21 else
  match x.cal with
  | some c => h.calPeriod g x c
  | none =>
    let x := { x with codes := h.newCodes g x }
    (h.putGroup x).driveGroup g x

/-- HEATER_RESULTS_LATCH (R434): 40 µs into a period. -/
def execHeaterResultsLatch (s : State) : Result := s.go fun h =>
  if h.running 0x42 && !h.opt.latched && h.opt.loopFrc + 40000 ≤ h.frc then
    h.each (List.range h.groupCount) Hw.loopGroup |> fun h => { h with opt := { h.opt with latched := true } }
  else h

/-- HG_CMD on the group that OPT_HSEL names (R436, R437); CAL is for a group whose loop runs (log entry 97). -/
def Hw.hgCmd (h : Hw) (swap cal : Bool) : Tried :=
  let g := h.g R.OPT_HSEL_GRP
  let busy := h.opt.groups.any fun x => x.cal.isSome || x.result.isSome
  if cal && (busy || !h.running 0x42 || !h.on (R.HG_CFG_EN.at g)) then .error E.badState else
  let x := h.heatGroup g
  let x := if swap then { x with swap := true } else x
  let x := if cal then { x with cal := some ⟨0, 0, 0, [], [], []⟩ } else x
  let h := h.putGroup x
  .ok (if cal then h.s (R.HG_STAT_CAL_RUN.at g) 1 else h)

/-- HG_SWAP (R436). -/
def execHgSwap (a : Acc) (s : State) : Result := s.go fun h => h.operWrite a 0x42 0x124 fun h => h.hgCmd true false

/-- HG_CAL (R436). -/
def execHgCal (a : Acc) (s : State) : Result := s.go fun h => h.operWrite a 0x42 0x124 fun h => h.hgCmd false true

/-! ### The inversion (R436) -/

/-- A matrix of FP64 values by rows. -/
abbrev FMat := List (List Nat)

/-- The row at or below `k` with the greatest magnitude in column `k`, the first of equals. -/
def pivotRow (m : FMat) (k : Nat) : Nat :=
  ((List.range (m.length - k)).map (k + ·)).foldl (fun b i =>
    if flt (fp64F.mag (nth (m.getD b []) k)) (fp64F.mag (nth (m.getD i []) k)) then i else b) k

/-- One step of Gauss–Jordan elimination on column `k`: none where the matrix is singular. -/
def eliminate (m : FMat) (k : Nat) : Option FMat :=
  let p := pivotRow m k
  let row := m.getD p []
  let v := nth row k
  if fp64F.mag v = 0 ∨ fp64F.isNan v ∨ fp64F.isInf v then none else
  let m := setAt (setAt m p (m.getD k [])) k row
  let row := row.map fun x => fdiv x v
  some ((List.range m.length).map fun i =>
    if i = k then row else
    let r := m.getD i []
    let c := nth r k
    (List.range r.length).map fun j => fsub (nth r j) (fmul c (nth row j)))

/-- Gauss–Jordan elimination from column `k` on, `n` columns. -/
def gaussJordan : Nat → Nat → FMat → Option FMat
  | 0, _, m => some m
  | n + 1, k, m => match eliminate m k with | some m => gaussJordan n (k + 1) m | none => none

/-- The inverse of a crosstalk matrix given by the columns' sums over 2 × DITHER codes, in Q2.14: none where it is singular or an entry lies outside
−2 to 2 − 2^-14. -/
def invertColumns (cols : List (List Int)) (den : Nat) : Option (List (Nat × Int)) :=
  let n := cols.length
  let m : FMat := (List.range n).map fun i =>
    ((List.range n).map fun j => let v := (cols.getD j []).getD i 0; fp64F.enc (decide (v < 0)) v.natAbs den 0) ++
      (List.range n).map fun j => if i = j then fofNat 1 else 0
  if den = 0 then none else
  match gaussJordan n 0 m with
  | none => none
  | some m =>
    let es := (List.range n).flatMap fun i => (List.range n).map fun j =>
      (64 * i + j, fround (-40000) 40000 (fmul (nth (m.getD i []) (n + j)) (fofNat 16384)))
    if es.all fun e => decide (-32768 ≤ e.2) && decide (e.2 ≤ 32767) then some (es.filter fun e => e.2 != 0) else none

/-- HEATER_CAL_COMPLETE (R436): controller firmware inverts the matrix of group `g` and swaps it in, or rejects it; it waits while the firmware
does not run (R538). -/
def execHeaterCalComplete (g : Nat) (s : State) : Result := s.go fun h =>
  let x := h.heatGroup g
  if !h.firmware || !h.running 0x42 then h else
  match x.result with
  | none => h
  | some cols =>
    match invertColumns cols (2 * h.dither g) with
    | some m => Hw.calOutcome (h.putGroup { x with shadow := m, swap := true, done := x.done + 1 }) g 1
    | none => h.calOutcome g 2

/-- The OPT page enters RUNNING: the periods begin. -/
def Hw.optRun (h : Hw) : Hw :=
  let held := h.heldTimers 0x42
  let new := (held.take 1).map fun t => (⟨t, 0x42, .heaters, h.ns, h.ns + 100000, 100000, false⟩ : Timer)
  let lanes := h.opt.lanes.map fun (l : Lane) => { l with fadeSum := 0, fadeN := 0 }
  { h with opt := { h.opt with evalFrc := h.frc, fadeFrc := h.frc, sums := [], remote := [], latched := true, lanes := lanes },
           tim := { h.tim with timers := h.tim.timers.filter (fun t => t.page != 0x42) ++ new } }

/-- The OPT page aborts or drains: codes stay, calibrations are abandoned (R437). -/
def Hw.optStop (h : Hw) : Hw := (h.each (List.range h.groupCount) fun h g => h.abandonCal g).dropTimers 0x42

/-! ### HW_TIMER_FIRE (R140, R141) -/

/-- What a timer acts for: `n` is the number of its period. -/
def Hw.timerActs (h : Hw) (u : TimerUse) (n : Nat) : Hw :=
  match u with
  | .entry num => h.latchPoint (.timed num n)
  | .gateList g => h.gateRefresh g
  | .heaters => if h.running 0x42 then h.loopStart else h

/-- HW_TIMER_FIRE (R140, R141): timer `t` has reached its target, and no due timer has a lower index. After a step over the target it fires late,
and its next target is the first of its period after NT. -/
def execHwTimerFire (t : Nat) (s : State) : Result := s.go fun h =>
  match h.timer t with
  | none => h
  | some x =>
    if h.ns < x.next ∨ (h.tim.timers.any fun y => decide (y.next ≤ h.ns) && decide (y.num < t)) = true then h else
    let per := max 1 x.period
    let next := if x.late then x.base + ((h.ns - x.base) / per + 1) * per else x.next + per
    let skipped := if x.late then (next - x.next) / per - 1 else 0
    let served (y : Timer) : Timer := if y.num = t then { y with next := next, late := false } else y
    let h := { h with tim := { h.tim with timers := h.tim.timers.map served } }
    let h := if x.late then (h.incSat (R.TMR_LATE_LATE.at t)).add (R.TMR_LATE_SKIPPED.at t) skipped else h
    h.timerActs x.use ((x.next - x.base) / per)

end Sys2Proof.Machine
end

