-- ==== Sys2Proof/Machine/Evr.lean ====
section
/-!
DEFINITION. Machine/Evr.lean: the event recorder's commands and its mirror (R487–R499, R506). Recording itself stands in Machine/Events.lean.
-/
namespace Sys2Proof.Machine

/-! ### The log (R489–R492) -/

/-- REPEAT_WINDOW_EXPIRY (R490): REPEAT_MS without a repeat closes the newest entry. -/
def execRepeatWindowExpiry (s : State) : Result := s.go fun h =>
  match h.evr.ring.getLast? with
  | none => h
  | some e =>
    if h.pwr.aon ∧ !e.closed ∧ e.latest + h.g R.EVR_CFG_REPEAT_MS * 1000000 ≤ h.frc then
      Hw.showRing { h with evr := { h.evr with ring := closeLast h.frc h.evr.ring } }
    else h

/-- OPTIME_SECOND (R491): 100,000,000 cycles of ACLK while the always-on domain is powered. -/
def execOptimeSecond (s : State) : Result := s.go fun h => if h.pwr.aon then h.inc R.EVR_OPTIME_S else h

/-- Record the entry of EVR_CMD WRITE. R492 gives it no SEV of its own (log entry 66). -/
def Hw.hostEntry (h : Hw) (bytes : List Nat) : Hw :=
  let r := h.fresh
  Hw.eventAs { r.2 with evr := { r.2.evr with hostWait := false } } true h.evr.hostCode (r.1 % 4) bytes

/-- EVR_CMD WRITE (R492). -/
def Hw.evrWriteCmd (h : Hw) : Tried :=
  let n := h.g R.EVR_HOST_LEN_BYTES
  let code := h.g R.EVR_HOST_LEN_CODE
  if h.evr.hostWait then .error E.badState
  else if code < 0x8000 ∨ 992 < n ∨ n % 8 ≠ 0 then .error E.badValue
  else
    let h := { h with evr := { h.evr with hostWait := true, hostCode := code } }
    .ok (if n = 0 then h.hostEntry []
         else h.dmaRead h.operCtx (h.g64 R.EVR_HOST_ADDR_LO_ADDR R.EVR_HOST_ADDR_HI_ADDR) n .evrHost)

/-- The payload of EVR_CMD WRITE has arrived. -/
def Hw.hostPayload (h : Hw) (bytes : List Nat) : Hw := h.hostEntry bytes

/-- The payload read was refused (R46). -/
def Hw.hostPayloadFailed (h : Hw) : Hw := Hw.fault { h with evr := { h.evr with hostWait := false } } 0x4C E.dmaFault

/-- EVR_RD_DATA_READ (R489, R506). -/
def Hw.readRing (h : Hw) : Hw :=
  let off := h.g R.EVR_RD_OFF_OFF
  let w := h.ringWord off
  let h := if (h.ringCover off).isSome then h else h.fresh.2
  (h.s R.EVR_RD_OFF_OFF ((off + 4) % h.evrSize)).reply w

/-- EVR_RD_DATA_READ (R506). -/
def execEvrRdDataRead (a : Acc) (s : State) : Result := s.go fun h =>
  h.operAccess a 0x4C 0x7C Hw.readRing

/-! ### The NV store port (R71) -/

/-- Start the write at the front. -/
def Hw.nvIssue (h : Hw) : Hw :=
  match h.evr.nv with
  | [] => h
  | w :: _ => Hw.emit { h with evr := { h.evr with nvFrc := h.frc } } (.nvWrite w.unit w.bytes)

/-- Queue writes, and start them where the port is free. -/
def Hw.nvPut (h : Hw) (ws : List NvWrite) : Hw :=
  let idle := h.evr.nv.isEmpty
  let h := { h with evr := { h.evr with nv := h.evr.nv ++ ws } }
  if idle then h.nvIssue else h

def Hw.nvBase (h : Hw) : Nat := h.g R.EVR_NV_BASE_UNIT
def Hw.nvUnits (h : Hw) : Nat := h.g R.EVR_NV_UNITS_UNITS

/-- The bytes of a superblock (R496). -/
def Hw.superblock (h : Hw) : List Nat :=
  let b := [0x42, 0x44, 0x45, 0x31] ++ le 4 h.evr.gen ++ le 4 (h.g R.EVR_PCYCLE_COUNT) ++ le 4 (h.g R.EVR_OPTIME_S) ++ le 4 h.evr.head ++
    le 4 h.evr.tail ++ le 4 h.evr.lastSeq ++ [h.g R.EVR_CFG_PACK]
  let b := padTo 60 b
  b ++ le 4 (crc32c b)

/-- Write the superblock that was not written last, one generation on (R496). -/
def Hw.putSuperblock (h : Hw) : Hw :=
  let h := { h with evr := { h.evr with gen := succ32 h.evr.gen } }
  h.nvPut [⟨h.nvBase + (1 - h.g R.EVR_STAT_SB), h.superblock, 1, false⟩]

/-- Empty the mirror's ring and write superblock A with GEN 0 (R498). -/
def Hw.emptyMirror (h : Hw) : Hw :=
  let h := { h with evr := { h.evr.dropCut with head := 2, tail := 2, items := [], gen := 0, nv := h.evr.nv.take 1 } }
  h.nvPut [⟨h.nvBase, h.superblock, 1, false⟩]

/-- EVR_CMD FORMAT (R498). -/
def Hw.evrFormat (h : Hw) : Tried := if h.running 0x4C then .error E.badState else .ok h.emptyMirror

/-- EVR_CMD MIRROR_RESTART (R497). -/
def Hw.evrRestart (h : Hw) : Hw :=
  if h.on R.EVR_STAT_NV_STOPPED ∧ h.running 0x4C then (h.s R.EVR_STAT_NV_STOPPED 0).s R.EVR_STAT_MIRROR_RUN 1 else h

/-- A write of EVR_CMD: every action it carries, or none. -/
def Hw.evrCmd (h : Hw) (write restart format : Bool) : Tried :=
  match (if write then h.evrWriteCmd else .ok h) with
  | .error c => .error c
  | .ok h =>
    let h := if restart then h.evrRestart else h
    if format then h.evrFormat else .ok h

/-- EVR_WRITE (R492). -/
def execEvrWrite (a : Acc) (s : State) : Result := s.go fun h => h.operWrite a 0x4C 0x8C fun h => h.evrCmd true false false

/-- EVR_MIRROR_RESTART (R497). -/
def execEvrMirrorRestart (a : Acc) (s : State) : Result := s.go fun h => h.operWrite a 0x4C 0x8C fun h => h.evrCmd false true false

/-- EVR_FORMAT (R498). -/
def execEvrFormat (a : Acc) (s : State) : Result := s.go fun h => h.operWrite a 0x4C 0x8C fun h => h.evrCmd false false true

/-! ### The mirror (R494–R497) -/

/-- The mirror works: its page runs or drains, and it has not stopped. -/
def Hw.mirroring (h : Hw) : Bool :=
  (h.state 0x4C == 2 || h.state 0x4C == 3 || h.state 0x4C == 6) && h.on R.EVR_STAT_MIRROR_RUN

/-- The closed entries that wait for the mirror, in SEQ order; in a drain those closed before it began (R499). -/
def Hw.unmirrored (h : Hw) : List EvrEntry :=
  h.evr.ring.filter fun e => e.closed && !e.mirrored && (h.state 0x4C == 2 || e.closedFrc ≤ h.evr.drainFrc)

/-- The leading entries that a cut of 65,536 bytes takes: whole ones. -/
def cutOf (room : Nat) : List EvrEntry → List EvrEntry
  | [] => []
  | e :: t => if e.len ≤ room then e :: cutOf (room - e.len) t else []

/-- The entries of the next item (R495): one entry, or those of a closed cut. -/
def Hw.nextItem (h : Hw) : List EvrEntry :=
  let w := h.unmirrored
  if !h.on R.EVR_CFG_PACK then w.take 1 else
  let c := cutOf 65536 w
  if h.state 0x4C != 2 || c.length < w.length || ringUsed c == 65536 then c else
  match h.evr.flush with
  | some q => c.filter fun e => ahead32 q e.seq
  | none => []

/-- The bytes of an entry as the mirror writes it: GAP_BEFORE marks entries that never reached it (R489). -/
def EvrEntry.mirrorBytes (e : EvrEntry) (gap : Bool) : List Nat := EvrEntry.bytes { e with eflags := e.eflags ||| (4 * b2n gap) }

/-- The bytes of an item: the first entry carries the gap. -/
def itemBytes (gap : Bool) : List EvrEntry → List Nat
  | [] => []
  | e :: t => e.mirrorBytes gap ++ t.flatMap EvrEntry.bytes

/-- Units of 64 bytes as writes from a unit of the area. -/
def unitWrites (base : Nat) : Nat → List Nat → List NvWrite
  | 0, _ => []
  | n + 1, bs => ⟨base, bs.take 64, 0, false⟩ :: unitWrites (base + 1) n (bs.drop 64)

/-- Where an item of `n` units would go (R495): its unit, the unit after it, and the units it needs from the tail. -/
def Hw.placeItem (h : Hw) (n : Nat) : Nat × Nat × Nat :=
  let t := h.evr.tail
  let u := h.nvUnits
  if u < t + n then (2, 2 + n, u - t + n) else (t, if t + n = u then 2 else t + n, n)

/-- The ring has room for an item, or is empty. -/
def Hw.itemFits (h : Hw) (n : Nat) : Bool :=
  let size := h.nvUnits - 2
  let used := (h.evr.tail + size - h.evr.head) % size
  used == 0 || used + (h.placeItem n).2.2 < size

/-- Advance the head past the item there (R495): none where that item is not known here. -/
def Hw.dropItem (h : Hw) : Option Hw :=
  match h.evr.items with
  | [] => none
  | i :: t =>
    if i.1 = h.evr.head then some { h with evr := { h.evr with items := t, head := (t.head?.map fun x => x.1).getD h.evr.tail } } else none

/-- Make room by whole items, oldest first. -/
def Hw.makeRoom (n : Nat) : Nat → Hw → Option Hw
  | 0, _ => none
  | fuel + 1, h => if h.itemFits n then some h else match h.dropItem with | none => none | some h => Hw.makeRoom n fuel h

/-- Write an item: a unit of zeros at a tail it cannot use, then its units in order. -/
def Hw.putItem (h : Hw) (bs : List Nat) : Hw :=
  let n := bs.length / 64
  let p := h.placeItem n
  let u := h.nvBase
  let empty := h.evr.head == h.evr.tail
  let wrap := p.1 != h.evr.tail && h.evr.tail < h.nvUnits
  let zero : List NvWrite := if wrap then [⟨u + h.evr.tail, List.replicate 64 0, 2, false⟩] else []
  let h := { h with evr := { h.evr with itemAt := (p.1, n), head := if empty then p.1 else h.evr.head } }
  h.nvPut (zero ++ unitWrites (u + p.1) n bs)

/-- MIRROR_ITEM_WRITE (R494, R495): the next item, where nothing of the mirror is under way. An item at the head that is not known is read
for its length first. -/
def execMirrorItemWrite (s : State) : Result := s.go fun h =>
  if !h.mirroring || !h.evr.nv.isEmpty || !h.evr.reads.isEmpty then h else
  let es := h.nextItem
  if es.isEmpty then
    (if h.state 0x4C ≠ 2 ∧ !h.evr.lastSb then Hw.putSuperblock { h with evr := { h.evr with lastSb := true } } else h)
  else if h.on R.EVR_CFG_PACK && !h.chanOn 2 then h
  else
    let bs := itemBytes h.evr.gapBefore es
    let x := h.chan 2
    let c := if h.on R.EVR_CFG_PACK then h.chunkOf 2 bs (x.n == 15) (x.n == 0) (if h.evr.flush.isSome then h.evr.flushNs else h.ns) else (padMul 64 bs, h)
    match Hw.makeRoom (c.1.length / 64) (h.evr.items.length + 1) h with
    | none =>
      let r := match h.evr.items with | i :: _ => i.1 != h.evr.head | [] => true
      if r then Hw.emit { h with evr := { h.evr with reads := [(h.nvBase + h.evr.head, 1)] } } (.nvRead (h.nvBase + h.evr.head)) else h
    | some r =>
      let h := { c.2 with evr := { r.evr with cut := es.map EvrEntry.seq, gapOut := h.evr.gapBefore, gapBefore := false, flush := none } }
      h.putItem c.1

/-- EVR_FLUSH_TIMER (R495): EVR_FLUSH_MS after its first entry, the cut is closed. -/
def execEvrFlushTimer (s : State) : Result := s.go fun h =>
  let w := h.unmirrored
  match w with
  | [] => h
  | e :: _ =>
    if h.mirroring ∧ h.on R.EVR_CFG_PACK ∧ h.evr.cut.isEmpty ∧ h.evr.flush.isNone ∧ e.closedFrc + h.g R.EVR_FLUSH_MS_MS * 1000000 ≤ h.frc then
      { h with evr := { h.evr with flush := (w.getLast?.map fun (x : EvrEntry) => x.seq), flushNs := h.ns } }
    else h

/-- SUPERBLOCK_TIMER (R496): at least every 60 s. -/
def execSuperblockTimer (s : State) : Result := s.go fun h =>
  if h.running 0x4C ∧ h.mirroring ∧ h.evr.nv.isEmpty ∧ h.evr.reads.isEmpty ∧ h.evr.sbFrc + 60000000000 ≤ h.frc then h.putSuperblock else h

/-- The last unit of an item is durable: its entries are mirrored, the ring grows by it, and a superblock follows (R494, R496). -/
def Hw.itemDone (h : Hw) : Hw :=
  let c := h.evr.cut
  let mark (e : EvrEntry) : EvrEntry := if c.contains e.seq then { e with mirrored := true } else e
  let i := h.evr.itemAt
  let next := if h.nvUnits ≤ i.1 + i.2 then 2 else i.1 + i.2
  let h := { h with evr := { h.evr with ring := h.evr.ring.map mark, cut := [], gapOut := false, items := h.evr.items ++ [i], tail := next,
                                        lastSeq := c.getLastD h.evr.lastSeq } }
  h.showRing.putSuperblock

/-- The front write is durable. -/
def Hw.nvDone (h : Hw) : Hw :=
  match h.evr.nv with
  | [] => h
  | w :: t =>
    let h := { h with evr := { h.evr with nv := t } }
    let h := if w.kind = 1 then Hw.s { h with evr := { h.evr with sbFrc := h.frc } } R.EVR_STAT_SB (w.unit - h.nvBase) else h
    if w.kind = 0 ∧ !h.evr.cut.isEmpty ∧ (t.all fun x => x.kind == 1) then h.itemDone else h.nvIssue

/-- The front write failed: one retry, then the mirror stops (R71, R497). -/
def Hw.nvFailed (h : Hw) : Hw :=
  match h.evr.nv with
  | [] => h
  | w :: t =>
    if !w.retried then Hw.nvIssue { h with evr := { h.evr with nv := { w with retried := true } :: t } }
    else
      let h := { h with evr := { h.evr.dropCut with nv := [] } }
      let h := (h.s R.EVR_STAT_NV_STOPPED 1).s R.EVR_STAT_MIRROR_RUN 0
      ((h.err 0x4C E.nvFault).event 0x0080 2 (le 4 w.unit)).raise 0x4C 17

/-- NV_WRITE_RESPONSE (R71): `ok` is clear where the error flag is set. -/
def execNvWriteResponse (ok : Bool) (s : State) : Result := s.go fun h => if ok then h.nvDone else h.nvFailed

/-- NV_WRITE_TIMEOUT (R71): 100 ms without a response. -/
def execNvWriteTimeout (s : State) : Result := s.go fun h =>
  if !h.evr.nv.isEmpty ∧ h.evr.nvFrc + 100000000 ≤ h.frc then h.nvFailed else h

/-! ### The restore (R498) -/

/-- A valid superblock (R496). -/
def sbValid (b : List Nat) : Bool :=
  b.length == 64 && b.take 4 == [0x42, 0x44, 0x45, 0x31] && fld b 60 4 == crc32c (b.take 60)

/-- The current one of two superblocks, with its number. -/
def sbCurrent (a b : List Nat) : Option (Nat × List Nat) :=
  if sbValid a && sbValid b then (if ahead32 (fld a 4 4) (fld b 4 4) then some (0, a) else some (1, b))
  else if sbValid a then some (0, a) else if sbValid b then some (1, b) else none

/-- Both superblocks are read: the counts come back, or the store is blank; then POWER_ON (R491, R498). -/
def Hw.restoreLog (h : Hw) (a b : List Nat) : Hw :=
  let c := (sbCurrent a b).filter fun x => fld x.2 28 1 == h.g R.EVR_CFG_PACK
  let h := match c with
    | some (n, x) =>
      let h := ((h.s R.EVR_OPTIME_S (fld x 12 4)).s R.EVR_PCYCLE_COUNT (fld x 8 4)).inc R.EVR_PCYCLE_COUNT
      let h := (h.s R.EVR_STAT_SB n).s R.EVR_STAT_NV_BLANK 0
      { h with evr := { h.evr with head := fld x 16 4, tail := fld x 20 4, gen := fld x 4 4, lastSeq := fld x 24 4, items := [] } }
    | none => ((h.inc R.EVR_PCYCLE_COUNT).s R.EVR_STAT_NV_BLANK 1).emptyMirror
  let h := { h with evr := { h.evr with restored := true, sbRead := [], sbFrc := h.frc } }
  ((h.event 0x0001 0 [b2n c.isNone]).s R.EVR_STAT_MIRROR_RUN 1).s R.PWR_START_LOG 1

/-- The units of an item, from its first unit (R476, R495): an entry's LEN, or a chunk's CLEN after its header. -/
def Hw.itemUnits (h : Hw) (b : List Nat) : Nat :=
  max 1 (if h.on R.EVR_CFG_PACK then ceilDiv (32 + fld b 0 4) 64 else ceilDiv (fld b 0 2) 64)

/-- The item at the head is read: the head goes past it, or past the unit of zeros there to unit 2. -/
def Hw.headRead (h : Hw) (ok : Bool) (b : List Nat) : Hw :=
  let known := (h.evr.items.head?.map fun x => x.1).getD h.evr.tail
  let next := h.evr.head + h.itemUnits b
  let head := if !ok then known else if zeros b 0 8 then 2 else if h.nvUnits ≤ next then 2 else next
  { h with evr := { h.evr with head := head } }

/-- NV_READ_RESPONSE (R71, R498): the unit that the oldest read asked for. A superblock whose read fails is not valid (log entry 67). -/
def execNvReadResponse (ok : Bool) (bytes : List Nat) (s : State) : Result := s.go fun h =>
  match h.evr.reads with
  | [] => h
  | r :: t =>
    let b := fit 64 bytes
    let h := { h with evr := { h.evr with reads := t } }
    if r.2 = 1 then h.headRead ok b else
    let l := h.evr.sbRead ++ [if ok then b else []]
    match l with
    | [x, y] => h.restoreLog x y
    | _ => { h with evr := { h.evr with sbRead := l } }

/-! ### The page -/

/-- The mirror's area (R494): the code that a write of EVR_NV_BASE or EVR_NV_UNITS, or the page's enable, is refused with. -/
def Hw.evrCheck (h : Hw) : Option Nat :=
  if h.nvUnits < 2048 then some E.bufferTooSmall
  else if 2 ^ 32 < h.nvBase + h.nvUnits then some E.badValue
  else none

/-- PACK needs the mirror's channel (R495): the slot that its enable is refused over. -/
def Hw.evrNeeds (h : Hw) : Option Nat :=
  if h.on R.EVR_CFG_PACK && !h.on (R.CH_CFG_EN.at 2) then some (0xA000 + h.g (R.CH_CFG_SLOT.at 2)) else none

/-- The EVR page enters RUNNING: the first time after PORST_N it reads both superblocks (R498). -/
def Hw.evrRun (h : Hw) : Hw :=
  let h := Hw.s { h with evr := { h.evr.dropCut with lastSb := false, flush := none, sbFrc := h.frc } } R.EVR_STAT_NV_STOPPED 0
  if h.evr.restored then h.s R.EVR_STAT_MIRROR_RUN 1 else
  let h := { h with evr := { h.evr with sbRead := [], reads := [(h.nvBase, 0), (h.nvBase + 1, 0)] } }
  (h.emit (.nvRead h.nvBase)).emit (.nvRead (h.nvBase + 1))

/-- The EVR page begins to drain. -/
def Hw.evrDrain (h : Hw) : Hw := { h with evr := { h.evr with drainFrc := h.frc, lastSb := false } }

/-- A drain of the EVR page is over (R499). -/
def Hw.evrDrained (h : Hw) : Bool := h.evr.reads.isEmpty && (!h.on R.EVR_STAT_MIRROR_RUN || h.evr.lastSb && h.evr.nv.isEmpty && h.unmirrored.isEmpty)

/-- The EVR page reaches OFF. -/
def Hw.evrOff (h : Hw) : Hw := h.s R.EVR_STAT_MIRROR_RUN 0

end Sys2Proof.Machine
end

