-- ==== Sys2Proof/Machine/Mbx.lean ====
section
/-!
DEFINITION. Machine/Mbx.lean: mailboxes and doorbells (R500–R505, R507). The messages and flags live in the page's registers.
-/
namespace Sys2Proof.Machine

/-- The context that mailbox `m` belongs to (R500). -/
def Hw.mbxOwner (h : Hw) (m : Nat) : Nat := h.g (R.MBX_OWNER_CTX.at m)

/-- The context owns mailbox `m`. -/
def Hw.ownsMbx (h : Hw) (a : Acc) (m : Nat) : Bool := h.mbxOwner m == a.ctx

/-- FULL of mailbox `m`. -/
def Hw.mbxFull (h : Hw) (m : Nat) : Bool := h.on (R.MBX_STAT_FULL.at m)

/-- The offset of a register of mailbox `m`. -/
def mbxOff (m off : Nat) : Nat := 0x100 + 0x80 * m + off

/-- A refusal with a bus error, recorded in the page's header (R500–R502). -/
def Hw.mbxDeny (h : Hw) (code : Nat) : Hw := (h.err 0x4D code).busError

/-- The mailbox has no message. -/
def Hw.mbxEmpty (h : Hw) (m : Nat) : Hw := (h.s (R.MBX_STAT_FULL.at m) 0).s (R.MBX_STAT_LEN.at m) 0

/-- The page takes new messages: it neither drains nor aborts, and has not faulted (R87, R90, log entry 68). -/
def Hw.mbxTakes (h : Hw) : Bool := !([3, 4, 5, 6].contains (h.state 0x4D))

/-- A write of MBX_DATA: `strb` is 0x0F, 0xF0 or 0xFF, and half of the register keeps its value where it is not written (R42, R501, R502). -/
def Hw.mbxData (h : Hw) (m i strb data : Nat) : Hw :=
  let f := R.MBX_DATA_DATA.at (8 * m + i)
  let old := h.g f
  if 8 ≤ m then h.mbxDeny E.accessDenied
  else if h.mbxFull m then h.mbxDeny E.mbxFull
  else
    let v := if strb = 0x0F then withBits old 0 32 (bits data 0 32) else if strb = 0xF0 then withBits old 32 32 (bits data 32 32) else data
    (h.s f v).accepted 0x4D

/-- MBX_DATA_WRITE (R501): bytes 8i to 8i + 7 of mailbox `m`. -/
def execMbxDataWrite (a : Acc) (m i strb data : Nat) (s : State) : Result := s.go fun h =>
  if 16 ≤ m ∨ 8 ≤ i ∨ ! [0x0F, 0xF0, 0xFF].contains strb then h.busError else
  h.access a 0x4D (mbxOff m (8 * i)) (h.ownsMbx a m) fun h => h.mbxData m i strb data

/-- What PUSH does (R501): the message stands in the mailbox. -/
def Hw.mbxPush (h : Hw) (m len : Nat) : Hw := ((h.s (R.MBX_STAT_FULL.at m) 1).s (R.MBX_STAT_TAKEN.at m) 0).s (R.MBX_STAT_LEN.at m) len

/-- What ABORT of a mailbox does (R503). -/
def Hw.mbxAbort (h : Hw) (m : Nat) : Hw := if h.mbxFull m then h.mbxEmpty m else h

/-- A write of MBX_CTL, which acts on inbound mailboxes only: PUSH is refused while FULL is set (R501), out of range, or while the page takes no
message; a refused write has no effect (R83), an accepted one counts once (R82). -/
def Hw.mbxCtl (h : Hw) (m : Nat) (push abort : Bool) (len : Nat) : Hw :=
  if 8 ≤ m then h.accepted 0x4D
  else if push && h.mbxFull m then h.mbxDeny E.mbxFull
  else if push && (len == 0 || 64 < len) then h.refuse 0x4D E.badValue
  else if push && !h.mbxTakes then h.refuse 0x4D E.badState
  else
    let h := if abort then h.mbxAbort m else h
    Hw.accepted (if push then h.mbxPush m len else h) 0x4D

/-- MBX_PUSH (R501). -/
def execMbxPush (a : Acc) (m len : Nat) (s : State) : Result := s.go fun h =>
  if 16 ≤ m then h.busError else
  h.access a 0x4D (mbxOff m 0x40) (h.ownsMbx a m) fun h => h.mbxCtl m true false (len % 128)

/-- MBX_ABORT (R503). -/
def execMbxAbort (a : Acc) (m : Nat) (s : State) : Result := s.go fun h =>
  if 16 ≤ m then h.busError else
  h.access a 0x4D (mbxOff m 0x40) (h.ownsMbx a m) fun h => h.mbxCtl m false true 0

/-- A read of MBX_POP (R502): LEN, and FULL clears; 0 while FULL is clear. -/
def Hw.mbxPop (h : Hw) (m : Nat) : Hw :=
  if 8 ≤ m ∧ h.mbxFull m then ((h.mbxEmpty m).s (R.MBX_STAT_TAKEN.at m) 1).reply (h.g (R.MBX_STAT_LEN.at m)) else h.reply 0

/-- MBX_POP_READ (R502). -/
def execMbxPopRead (a : Acc) (m : Nat) (s : State) : Result := s.go fun h =>
  if 16 ≤ m then h.busError else
  h.access a 0x4D (mbxOff m 0x48) (h.ownsMbx a m) fun h => h.mbxPop m

/-! ### The controller firmware's side -/


/-- FIRMWARE_MBX_POP (R501): an inbound message is taken. -/
def execFirmwareMbxPop (m : Nat) (s : State) : Result := s.go fun h =>
  if h.firmware ∧ m < 8 ∧ h.mbxFull m then ((h.mbxEmpty m).s (R.MBX_STAT_TAKEN.at m) 1).raise 0x4D 17 else h

/-- FIRMWARE_MBX_SEND (R502): an outbound mailbox that holds no message is filled. -/
def execFirmwareMbxSend (m : Nat) (bytes : List Nat) (s : State) : Result := s.go fun h =>
  if h.firmware ∧ 8 ≤ m ∧ m < 16 ∧ !h.mbxFull m ∧ 0 < bytes.length ∧ bytes.length ≤ 64 ∧ h.mbxTakes then
    let h := h.each (List.range 8) fun h i => h.s (R.MBX_DATA_DATA.at (8 * m + i)) (fld (fit 64 bytes) (8 * i) 8)
    (((h.s (R.MBX_STAT_FULL.at m) 1).s (R.MBX_STAT_TAKEN.at m) 0).s (R.MBX_STAT_LEN.at m) bytes.length).raise 0x4D 16
  else h

/-! ### Doorbells (R504) -/

/-- The doorbell bits of a half (0: bits 0–31, 1: bits 32–63) that the requester owns. -/
def Hw.ownBells (h : Hw) (a : Acc) (half : Nat) : Nat :=
  if a.oper then 2 ^ 32 - 1 else
  total ((List.range 8).map fun i => if h.ownsMbx a (8 * half + i) then 15 * 16 ^ i else 0)

/-- A doorbell write: one that carries a bit of another context is refused (R500). -/
def Hw.bellWrite (h : Hw) (a : Acc) (off half v : Nat) (f : Hw → Hw) : Hw :=
  let own := h.ownBells a half
  h.access a 0x4D off (own != 0) fun h => if v &&& own = v then (f h).accepted 0x4D else h.mbxDeny E.accessDenied

/-- DB_IN_SET (R504). -/
def execDbInSet (a : Acc) (half v : Nat) (s : State) : Result := s.go fun h =>
  if half = 0 then h.bellWrite a 0x80 0 (v % 2 ^ 32) fun h => h.setBits R.DB_IN_LO_BITS (v % 2 ^ 32)
  else h.bellWrite a 0x84 1 (v % 2 ^ 32) fun h => h.setBits R.DB_IN_HI_BITS (v % 2 ^ 32)

/-- DB_OUT_CLEAR (R504). -/
def execDbOutClear (a : Acc) (half v : Nat) (s : State) : Result := s.go fun h =>
  if half = 0 then h.bellWrite a 0x88 0 (v % 2 ^ 32) fun h => h.clrBits R.DB_OUT_LO_BITS (v % 2 ^ 32)
  else h.bellWrite a 0x8C 1 (v % 2 ^ 32) fun h => h.clrBits R.DB_OUT_HI_BITS (v % 2 ^ 32)

/-- FIRMWARE_DOORBELL (R504): the firmware sets outbound bit `n`, raising DOORBELL, or clears inbound bit `n`. -/
def execFirmwareDoorbell (set : Bool) (n : Nat) (s : State) : Result := s.go fun h =>
  if !h.firmware ∨ 64 ≤ n then h
  else if set then (h.setBits (if n < 32 then R.DB_OUT_LO_BITS else R.DB_OUT_HI_BITS) (2 ^ (n % 32))).raise 0x4D 18
  else h.clrBits (if n < 32 then R.DB_IN_LO_BITS else R.DB_IN_HI_BITS) (2 ^ (n % 32))

/-! ### The page -/

/-- The mailboxes that hold a message, as a mask. -/
def Hw.mbxMask (h : Hw) : Nat := total ((List.range 16).map fun m => if h.mbxFull m then 2 ^ m else 0)

/-- An abort of the MBX page (R503): no message, no FULL, no doorbell but one that a write of the same cycle sets (R11). -/
def Hw.mbxClear (h : Hw) : Hw :=
  let h := h.each (List.range 16) fun h m => h.mbxEmpty m
  h.each [R.DB_IN_LO_BITS, R.DB_IN_HI_BITS, R.DB_OUT_LO_BITS, R.DB_OUT_HI_BITS] fun h f => h.clrBits f (2 ^ 32 - 1)

/-- A drain of the MBX page is over: its messages have been taken. -/
def Hw.mbxDrained (h : Hw) : Bool := h.mbxMask == 0

end Sys2Proof.Machine
end

