-- ==== Sys2Proof/Machine/Saf.lean ====
section
/-!
DEFINITION. Machine/Saf.lean: functional safety (R534–R556): the controller pair, the known-answer test of the lanes, the clock checks, the ledger and
credit checks, scrubbing, the hazard path with its diagnostics, and injection.
-/
namespace Sys2Proof.Machine

/-- An injection is complete (R552). -/
def Hw.injDone (h : Hw) (d : Nat) : Hw :=
  match h.saf.inj with
  | some i => if i.1 = d then Hw.s { h with saf := { h.saf with inj := none } } R.SAF_STAT_INJ_BUSY 0 else h
  | none => h

/-! ### The controller (R538) -/

/-- A lockstep mismatch: both cores are held in reset and restart; the third within 1 s, or a failed image CRC, leaves them held. The DIAG
entry names class 3, whose detection R546 bounds by it (log entry 69). -/
def Hw.lockstep (h : Hw) (inj imageOk : Bool) (detail : Nat) : Hw :=
  let recent := h.frc :: h.saf.mismatches.filter fun t => h.frc < t + 1000000000
  let h := h.dangerous inj 1 3 0 detail
  let h := { h with saf := { h.saf with mismatches := recent, ctrlPaused := true } }
  if !imageOk || 3 ≤ recent.length then (h.s R.SAF_STAT_CTRL_HELD 1).injDone 1 else h

/-- LOCKSTEP_MISMATCH (R538): `imageOk` is the outcome of the image's CRC-32C before the restart. -/
def execLockstepMismatch (imageOk : Bool) (s : State) : Result := s.go fun h =>
  if !h.pwr.core || h.on R.SAF_STAT_CTRL_HELD then h else
  let r := h.fresh
  r.2.lockstep false imageOk (r.1 % 2 ^ 32)

/-- The pause of a handover ends, and UPD_PAUSE_US shows it (R573). -/
def Hw.pauseEnds (h : Hw) : Hw :=
  if h.upd.pausing then
    Hw.s { h with upd := { h.upd with pausing := false } } R.UPD_PAUSE_US_US (min ((h.frc - h.upd.handFrc) / 1000) 0xFFFF)
  else h

/-- CONTROLLER_RESTART_COMPLETE (R538, R573). -/
def execControllerRestartComplete (s : State) : Result := s.go fun h =>
  if h.saf.ctrlPaused && !h.on R.SAF_STAT_CTRL_HELD then
    (Hw.injDone { h with saf := { h.saf with ctrlPaused := false } } 1).pauseEnds
  else h

/-! ### AGT_KAT (R540) -/

/-- The verdicts in force whose candidate came from a lane since its last passed test are cleared, and their entries that are not final lapse. -/
def Hw.clearLane (h : Hw) (l : Nat) : Hw :=
  let ts := (h.agt.byLane.filter fun b => b.1 == l).map fun b => b.2
  let h := h.each (h.vrd.force.filter fun f => f.cls != 0 && ts.contains f.ticket) fun h f => h.clearVerdict f
  h.each (h.vrd.entries.filter fun e => ts.contains e.ticket && !finalState e.state) fun h e =>
    ((h.moveEntry { e with state := 5 }).unoffer e).raise 0x44 19

/-- A lane fails (R540). -/
def Hw.laneFails (h : Hw) (inj : Bool) (l detail : Nat) : Hw :=
  let h := ((h.dangerous inj 5 3 l detail).retireLane l).clearLane l
  { h with agt := { h.agt with byLane := h.agt.byLane.filter fun b => b.1 != l } }

/-- AGATE_KAT_RUN (R540): lane `l` gave `mismatches` scores other than the fixed ones. -/
def execAgateKatRun (l mismatches : Nat) (s : State) : Result := s.go fun h =>
  if !h.running 0x20 || h.on R.SAF_CFG_AGT_KAT_DIS || h.laneCount ≤ l || h.agt.retired.contains l then h else
  let h := h.diagRun 5
  if mismatches = 0 then
    Hw.notePass { h with agt := { h.agt with byLane := h.agt.byLane.filter fun b => b.1 != l } } 5 l
  else h.laneFails false l mismatches

/-! ### The clocks (R542) -/

/-- A clock fault: CLOCK_FAULT in the TIM page, and condition 0x07 of guarantee 6. -/
def Hw.clockFails (h : Hw) (inj : Bool) (diag detail : Nat) : Hw :=
  let h := ((h.err 0x04 E.clockFault).raise 0x04 21).breach 6 0x07 0
  Hw.dangerous { h with saf := { h.saf with clockFault := true, xPasses := 0 } } inj diag 2 0 detail

/-- The servo is LOCKED; a local source has time instead. -/
def Hw.servoLocked (h : Hw) : Bool := if h.g R.TIM_CFG_SOURCE = 3 then h.timed else h.g R.TIM_STATUS_SERVO == 3

/-- A window of CLOCK_XCHK ends with `n` counts of the FRC. -/
def Hw.xWindow (h : Hw) (n : Nat) : Hw :=
  let h := Hw.diagRun { h with saf := { h.saf with xWinFrc := h.frc } } 6
  if n + 30 < 100000 ∨ 100030 < n then
    let x := h.saf
    if x.xFails = 1 then Hw.clockFails { h with saf := { x with xFails := 0 } } false 6 n
    else { h with saf := { x with xFails := 1, xPasses := 0 } }
  else
    let h := Hw.notePass { h with saf := { h.saf with xFails := 0, xPasses := h.saf.xPasses + 1 } } 6 0
    if h.saf.clockFault && h.servoLocked then h.clockPaired else h

/-- CLOCK_XCHK_WINDOW (R542): 10,000 ACLK cycles have passed. -/
def execClockXchkWindow (s : State) : Result := s.go fun h => if h.pwr.aon then h.xWindow (h.frc - h.saf.xWinFrc) else h

/-- CLOCK_XCHK_WATCHDOG (R542). -/
def execClockXchkWatchdog (s : State) : Result := s.go fun h =>
  if h.pwr.aon ∧ h.saf.xWinFrc + 150000 ≤ h.frc then
    let n := h.frc - h.saf.xWinFrc
    Hw.clockFails { h with saf := { h.saf with xWinFrc := h.frc, xFails := 0 } } false 6 (n % 2 ^ 32)
  else h

/-- NT_DUP_MISMATCH (R542): the two units differ by `diff`. -/
def execNtDupMismatch (diff : Nat) (s : State) : Result := s.go fun h => if h.pwr.aon then h.clockFails false 7 (diff % 2 ^ 32) else h

/-! ### Ledgers, credit and memories (R537, R543) -/

/-- A failed credit check: the link is declared down (R341). -/
def Hw.creditFails (h : Hw) (inj : Bool) (p detail : Nat) : Hw := (h.dangerous inj 9 4 p detail).linkDown p

/-- LEDGER_CHECK_TIMER (R543): `credit` names the (link, class) pairs whose credit counters do not satisfy R361. -/
def execLedgerCheckTimer (credit : List (Nat × Nat)) (s : State) : Result := s.go fun h =>
  if !h.pwr.core then h else
  let h := if h.running 0x30 then h.checkLedger else h
  let h := h.diagRun 9
  h.each (credit.filter fun c => (h.link c.1).up) fun h c => h.creditFails false c.1 c.2

/-- SCRUB_PASS (R537): a pass over memory `m` corrected `fixed` single-bit errors; `bad` names the page that a memory with an uncorrectable one serves. -/
def execScrubPass (m fixed : Nat) (bad : Option Nat) (s : State) : Result := s.go fun h =>
  if !h.pwr.core || h.on R.SAF_CFG_SCRUB_DIS then h else
  let h := ((h.diagRun 3).add (R.SAF_DCORR_COUNT.at 3) fixed).notePass 3 m
  match bad with
  | some p => if h.present p then (h.fault p E.eccUncorr).secLeft p else h
  | none => h

/-! ### The hazard path (R547–R550) -/

/-- A diagnostic of the hazard path fails on an item: HAZARD high until it passes 16 times. -/
def Hw.hazardDiag (h : Hw) (inj : Bool) (d index detail : Nat) : Hw :=
  let left := if d = 11 then h.frc else 16
  let known := h.saf.hzDiag.any fun x => x.1 == d
  let h := { h with saf := { h.saf with hzDiag := (d, index, left) :: h.saf.hzDiag.filter fun x => !(x.1 == d && x.2.1 == index),
                                        crcNeedsBlob := h.saf.crcNeedsBlob || d == 14 } }
  let h := h.dangerous inj d 1 index detail
  if known then h else h.hazardOnset 2 d 0 2

/-- A diagnostic no longer holds HAZARD high. -/
def Hw.hazardDiagOver (h : Hw) (d index : Nat) : Hw :=
  let h := Hw.injDone { h with saf := { h.saf with hzDiag := h.saf.hzDiag.filter fun x => !(x.1 == d && x.2.1 == index) } } d
  if (h.saf.hzDiag.any fun x => x.1 == d) || (d == 14 && h.saf.crcNeedsBlob) then h else h.hazardEnd 2 d 0 2

/-- A diagnostic passes on an item. -/
def Hw.hazardDiagPass (h : Hw) (d index : Nat) : Hw :=
  let h := (h.diagRun d).notePass d index
  match h.saf.hzDiag.find? fun x => x.1 == d && x.2.1 == index with
  | none => h
  | some x =>
    if x.2.2 ≤ 1 then h.hazardDiagOver d index
    else
      let down (y : Nat × Nat × Nat) : Nat × Nat × Nat := if y.1 = d ∧ y.2.1 = index then (d, index, y.2.2 - 1) else y
      { h with saf := { h.saf with hzDiag := h.saf.hzDiag.map down } }

/-- Sixteen ACLK cycles, 160 ns, without a mismatch of HZ_DUAL. -/
def Hw.hzDualTick (h : Hw) : Hw :=
  h.each (h.saf.hzDiag.filter fun x => x.1 == 11 && x.2.2 + 160 ≤ h.frc) fun h x => h.hazardDiagOver 11 x.2.1

/-- An accepted blob has reloaded the limits (R550). -/
def Hw.limitsReloaded (h : Hw) : Hw :=
  if !h.saf.crcNeedsBlob then h else
  let h := { h with saf := { h.saf with crcNeedsBlob := false } }
  if h.saf.hzDiag.any fun x => x.1 == 14 then h else h.hazardEnd 2 14 0 2

/-- HZ_INJECT_TEST (R550): comparator `c` was driven past its limit, and tripped or not. -/
def execHzInjectTest (c : Nat) (tripped : Bool) (s : State) : Result := s.go fun h =>
  if !h.pwr.aon then h
  else if tripped then h.hazardDiagPass 12 c
  else (h.diagRun 12).hazardDiag false 12 c 1

/-- CFG_CRC_CHECK (R547, R550): `crc` is that of the always-on copy. -/
def execCfgCrcCheck (crc : Nat) (s : State) : Result := s.go fun h =>
  if !h.pwr.aon then h
  else if crc % 2 ^ 32 = h.g R.SAF_CFG_CRC_CRC then h.hazardDiagPass 14 0
  else (h.diagRun 14).hazardDiag false 14 0 (crc % 2 ^ 32)

/-- HZ_DUAL_MISMATCH (R550). -/
def execHzDualMismatch (detail : Nat) (s : State) : Result := s.go fun h => if h.pwr.aon then h.hazardDiag false 11 0 (detail % 2 ^ 32) else h

/-- HAZARD cannot be trusted: HB_OUT stops (R550). For an injection it resumes after 2 ms (R552), unless a failure has stopped it before or stops it
meanwhile: `hbResume` is 0 then. -/
def Hw.readbackFails (h : Hw) (inj : Bool) (detail : Nat) : Hw :=
  let at_ := if inj && !h.saf.hbStopped then h.frc + 2000000 else 0
  Hw.dangerous { h with saf := { h.saf with hbStopped := true, hbResume := at_ } } inj 13 1 0 detail

/-- HZ_READBACK_MISMATCH (R550): HAZARD at the boundary differs from the level driven. -/
def execHzReadbackMismatch (s : State) : Result := s.go fun h =>
  if h.pwr.aon then h.readbackFails false (1 - h.g R.SAF_STAT_HAZARD) else h

/-- HZ_IN_CHANGE (R548): an enabled input has been high for three ACLK cycles, or falls. -/
def execHzInChange (n : Nat) (high : Bool) (s : State) : Result := s.go fun h =>
  if !h.pwr.aon || 8 ≤ n then h
  else if high && bit h.saf.hzEn n && !bit h.saf.hzIn n then
    Hw.hazardOnset { h with saf := { h.saf with hzIn := h.saf.hzIn ||| 2 ^ n } } 1 n 0 2
  else if !high && bit h.saf.hzIn n then
    Hw.hazardEnd { h with saf := { h.saf with hzIn := withBits h.saf.hzIn n 1 0 } } 1 n 0 2
  else h

/-- HAZARD_CHANNEL_SILENT (R548): the channel has given no result for MAX_GAP. -/
def execHazardChannelSilent (ch : Nat) (s : State) : Result := s.go fun h =>
  if !h.pwr.aon then h else
  h.each (h.saf.hz.filter fun c => c.ch == ch && !c.silent && c.lastFrc + c.maxGap * 1000 ≤ h.frc) fun h c =>
    let mark (x : HzChan) : HzChan := if x.ch = ch then { x with silent := true } else x
    Hw.hazardOnset { h with saf := { h.saf with hz := h.saf.hz.map mark } } 3 ch c.last 2

/-- HAZARD_HOLD_EXPIRY (R67): 10 ms after the last condition has cleared. -/
def execHazardHoldExpiry (s : State) : Result := s.go fun h =>
  if h.pwr.aon ∧ !h.hazardHolds ∧ !h.saf.testMode ∧ h.saf.hzLastClear + 10000000 ≤ h.frc ∧ h.saf.dfUntil ≤ h.frc then h.s R.SAF_STAT_HAZARD 0 else h

/-- HB_OUT_TOGGLE (R67): every 500 µs. -/
def execHbOutToggle (s : State) : Result := s.go fun h =>
  if h.pwr.aon ∧ !h.saf.hbStopped ∧ h.saf.hbFrc + 500000 ≤ h.frc then
    { h with saf := { h.saf with hbLevel := !h.saf.hbLevel, hbFrc := h.frc } }
  else h

/-- HB_OUT_INJECTION_RESUME (R552). -/
def execHbOutInjectionResume (s : State) : Result := s.go fun h =>
  match h.saf.inj with
  | some i => if i.1 = 13 ∧ h.saf.hbResume ≤ h.frc then Hw.injDone { h with saf := { h.saf with hbStopped := h.saf.hbResume == 0 } } 13 else h
  | none => h

/-! ### Wake monitor, verdict copies, aborts (R91, R544, R545) -/

/-- WAKE_MON fires: no further WAKE_EN rise, and the PWR page is FAULTED. -/
def Hw.wakeMonFails (h : Hw) (inj : Bool) (seg detail : Nat) : Hw :=
  let h := h.dangerous inj 15 5 seg detail
  Hw.fault { h with pwr := { h.pwr with monBlock := true } } 0x58 E.diagMismatch

/-- VRD_DUP fires: the VRD page is FAULTED with DIAG_MISMATCH. -/
def Hw.copiesDiffer (h : Hw) (inj : Bool) (index detail : Nat) : Hw := (h.dangerous inj 16 3 index detail).fault 0x44 E.diagMismatch

/-- An abort is not complete within its bound (R91). -/
def Hw.abortOverrun (h : Hw) (inj : Bool) (p detail : Nat) : Hw :=
  let was := h.running p
  let h := (((h.err p E.abortOverrun).setState p 5).event 0x0041 3 [p]).onFault p |>.secLeft p
  let h := if was then h.each (h.consumers p) fun h c => if h.running c then h.fault c E.depLost else h else h
  h.dangerous inj 17 6 p detail

/-! ### SAF_CMD (R552, R554) -/

/-- The SAF page's state (R554). -/
def Hw.safState (h : Hw) : Hw :=
  h.setState 0x54 (if h.on R.SAF_STAT_DF_LATCHED then 5 else if h.saf.selftest then 2 else 1)

/-- The item exists for the diagnostic (R578). -/
def Hw.injItem (h : Hw) (d i : Nat) : Bool :=
  match d with
  | 4 => i < h.physMacros && !h.retired i
  | 5 => i < h.laneCount && !h.agt.retired.contains i
  | 9 | 10 => (h.portExists i && (isCulvert i || 0x200 ≤ i))
  | 12 => i < 64
  | 15 => decide (h.prof = .t) && i < 8
  | 16 => h.prof != .l
  | 17 => h.present i
  | _ => true

/-- The full reaction of a diagnostic that sees one failure on an item. SECDED and SCRUB see a single-bit error, which is corrected. -/
def Hw.injectFailure (h : Hw) (d i : Nat) : Hw :=
  let r := h.fresh
  let x := r.1 % 2 ^ 32
  let h := r.2
  match d with
  | 1 => h.lockstep true true x
  | 2 | 3 => (h.inc (R.SAF_DCORR_COUNT.at d)).injDone d
  | 4 => (h.katFailed true i).injDone d
  | 5 => (h.laneFails true i x).injDone d
  | 6 | 7 => (h.clockFails true d x).injDone d
  | 8 => (h.ledgerFail true (i % 8)).injDone d
  | 9 => (h.creditFails true i x).injDone d
  | 10 => ((h.dangerous true 10 4 i x).linkDown i).injDone d
  | 11 | 12 | 14 => h.hazardDiag true d i x
  | 13 => h.readbackFails true x
  | 15 => (h.wakeMonFails true i x).injDone d
  | 16 => (h.copiesDiffer true i x).injDone d
  | _ => (h.abortOverrun true i x).injDone d

/-- SAF_CMD: CLEAR, then INJECT, or neither where the write is refused. -/
def Hw.safCmd (h : Hw) (clear inject : Bool) (d i : Nat) : Tried :=
  if inject && (d == 0 || decide (17 < d) || !h.injItem d i) then .error E.badValue
  else if inject && h.saf.inj.isSome then .error E.badState
  else
    let h := if clear then (h.s R.SAF_STAT_DF_LATCHED 0).safState else h
    .ok (if inject then Hw.injectFailure (Hw.s { h with saf := { h.saf with inj := some (d, i) } } R.SAF_STAT_INJ_BUSY 1) d i else h)

/-- SAF_CLEAR (R554). -/
def execSafClear (a : Acc) (s : State) : Result := s.go fun h => h.operWrite a 0x54 0x48 fun h => h.safCmd true false 0 0

/-- SAF_INJECT (R552): INJ_DIAG and INJ_INDEX. -/
def execSafInject (a : Acc) (d i : Nat) (s : State) : Result := s.go fun h =>
  h.operWrite a 0x54 0x48 fun h => h.safCmd false true (d % 32) (i % 65536)

/-- A write of SAF_CFG (R551): a diagnostic enabled again owes one full interval. -/
def Hw.safCfg (h : Hw) (v : Nat) : Hw :=
  let fs := [(R.SAF_CFG_SCRUB_DIS, 3, 0), (R.SAF_CFG_GAR_KAT_DIS, 4, 1), (R.SAF_CFG_AGT_KAT_DIS, 5, 2), (R.SAF_CFG_LEDGER_DIS, 8, 3)]
  let again := (fs.filter fun x => h.on x.1 && !bit v x.2.2).map fun x => x.2.1
  let newly := fs.any fun x => !h.on x.1 && bit v x.2.2
  let h := h.each fs fun h x => h.s x.1 (bits v x.2.2 1)
  let h := h.s R.SAF_CFG_DF_HAZARD (bits v 4 1)
  let due (d : Nat) : Nat × Nat :=
    (d, h.frc + 1000 * (match d with | 3 => 1000000 | 4 => h.g R.SAF_ROUND_US | 5 => 5000 | _ => 1000))
  let h := { h with saf := { h.saf with owed := again.map due ++ h.saf.owed.filter fun (x : Nat × Nat) => !again.contains x.1 } }
  (if newly && h.on R.SAF_STAT_SUSPENDED then h.raise 0x54 19 else h).detection

end Sys2Proof.Machine
end

