-- ==== Sys2Proof/Machine/Contexts.lean ====
section
/-!
DEFINITION. Machine/Contexts.lean: contexts (R508–R515, R532) and the configuration blob (R528–R531, R574).
-/
namespace Sys2Proof.Machine

/-! ### Enable and disable (R514, R518) -/

/-- Draw the key of a context: a fresh 256-bit key, its save counter at 1 (R518). -/
def Hw.drawKey (h : Hw) (c : Nat) : Hw :=
  let r := h.draw 4
  { r.2 with keys := ⟨c, r.1, 1⟩ :: r.2.keys.filter fun k => k.ctx != c }

/-- Every queue of a context, and every page it owns, is OFF. -/
def Hw.ctxIdle (h : Hw) (c : Nat) : Bool :=
  (h.queueList.all fun q => h.qCtx q != c || h.qState q == 0) &&
    h.pageList.all fun p => h.g (R.PAGE_OWNER_OWNER p) != c || h.off p

/-- What a tenant context held is cleared (R514). -/
def Hw.clearContext (h : Hw) (c : Nat) : Hw :=
  let lo := 1024 * h.g (R.CTX_OPB_BASE.at c)
  let hi := lo + 1024 * h.g (R.CTX_OPB_KIB.at c)
  let d0 := h.g (R.CTX_DENSE_FIRST.at c)
  let d1 := d0 + h.g (R.CTX_DENSE_COUNT.at c)
  let h := { h with gar := { h.gar with opb := h.gar.opb.filter fun b => !(lo ≤ b.1 && b.1 < hi),
                                        dense := h.gar.dense.filter fun d => !(d0 ≤ d.1 && d.1 < d1) } }
  let accs := (List.range h.accountCount).filter fun n => h.accOpen n && h.on (R.ACC_STAT_ORIGIN.at n) && h.g (R.ACC_STAT_CTX.at n) == c
  let h := h.each accs fun h n => h.discardAccount n
  let h := Hw.showSlots { h with cmp := { h.cmp with slots := h.cmp.slots.filter fun s => s.chan != 0 || s.ctx != c } }
  let h := h.each ((List.range 16).filter fun i => h.g (R.AGT_MS_CTL_CTX.at i) == c) fun h i => h.s (R.AGT_MS_CTL_EN.at i) 0
  let h := ((h.s (R.DBG_HANG_LO_ADDR.at c) 0).s (R.DBG_HANG_HI_ADDR.at c) 0).clrBits (R.DBG_HANG_STAT_DONE.at c) 1
  let h := h.s (R.DBG_HANG_STAT_QUEUE.at c) 0
  { h with keys := h.keys.filter fun k => k.ctx != c }

/-- A write of CTX_CFGc (R514, R532): EN and WEIGHT, or neither where it is refused. -/
def Hw.ctxCfg (h : Hw) (c : Nat) (en : Bool) (weight : Nat) : Tried :=
  let was := h.on (R.CTX_CFG_EN.at c)
  if weight = 0 ∨ 255 < weight then .error E.badValue
  else if h.contexts ≤ c then .ok h
  else if c = h.operCtx ∧ h.g R.SEC_STAT_BLOB = 1 then (if en then .ok (h.s (R.CTX_CFG_WEIGHT.at c) weight) else .error E.badValue)
  else
    let h := h.s (R.CTX_CFG_WEIGHT.at c) weight
    if en && !was then
      (if h.on (R.CTX_STAT_CLEARING.at c) then .error E.badState else .ok ((h.s (R.CTX_CFG_EN.at c) 1).drawKey c))
    else if !en && was then
      (if !h.ctxIdle c then .error E.badState
       else
         let h := ((h.s (R.CTX_CFG_EN.at c) 0).s (R.CTX_STAT_CLEARING.at c) 1).clearContext c
         .ok { h with sec := { h.sec with clearing := (c, h.frc) :: h.sec.clearing.filter fun x => x.1 != c } })
    else .ok h

/-- CONTEXT_ENABLE (R514). -/
def execContextEnable (a : Acc) (c : Nat) (s : State) : Result := s.go fun h =>
  h.operWrite a 0x01 (0x100 + 0x20 * c) fun h => h.ctxCfg c true (h.g (R.CTX_CFG_WEIGHT.at c))

/-- CONTEXT_DISABLE (R514). -/
def execContextDisable (a : Acc) (c : Nat) (s : State) : Result := s.go fun h =>
  h.operWrite a 0x01 (0x100 + 0x20 * c) fun h => h.ctxCfg c false (h.g (R.CTX_CFG_WEIGHT.at c))

/-- CONTEXT_CLEAR_DONE (R514): within 1 ms. -/
def execContextClearDone (c : Nat) (s : State) : Result := s.go fun h =>
  if h.on (R.CTX_STAT_CLEARING.at c) then
    Hw.raise (Hw.s { h with sec := { h.sec with clearing := h.sec.clearing.filter fun x => x.1 != c } } (R.CTX_STAT_CLEARING.at c) 0) 0x01 17
  else h

/-! ### KILL (R515) -/

/-- Every queue of a context is aborted, each under R89. -/
def Hw.killContext (h : Hw) (c : Nat) : Hw := h.each (h.queueList.filter fun q => h.qCtx q == c) fun h q => h.queueAbort q

/-- An abort of the CTX page: every queue of every tenant context. -/
def Hw.killTenants (h : Hw) : Hw :=
  h.each (h.queueList.filter fun q => h.qCtx q != h.operCtx) fun h q => h.queueAbort q

/-- CTX_CMD. KILL_DONE follows at once, since an abort ends its queues' entries in the same command. -/
def Hw.ctxCmd (h : Hw) (kill : Bool) (c : Nat) : Tried :=
  if !kill then .ok h
  else if h.contexts ≤ c then .error E.badValue
  else .ok ((h.killContext c).raise 0x01 16)

/-- CTX_KILL (R510, R515): a tenant may name itself alone. -/
def execCtxKill (a : Acc) (c : Nat) (s : State) : Result := s.go fun h =>
  h.hostWrite a 0x01 0x44 (c == a.ctx) fun h => h.ctxCmd true (c % 64)

/-! ### The blob (R528–R531) -/

/-- Request the blob from the root of trust. -/
def Hw.blobAsk (h : Hw) : Hw :=
  let h := { h with sec := { h.sec with blobFrc := h.frc, rot := h.sec.rot.filter fun r => r.what != RotFor.blob } }
  h.rotAsk 0 [] .blob

/-- A refused blob (R531); one that would replace a blob leaves it in force (R574). -/
def Hw.blobRefused (h : Hw) (code : Nat) : Hw :=
  let h := if h.g R.SEC_STAT_BLOB = 1 then h else h.s R.SEC_STAT_BLOB 2
  (h.err 0x50 code).raise 0x50 18

/-- The sections from an offset: TYPE and body. None where the bytes do not divide into them. -/
def blobSections : Nat → List Nat → Option (List (Nat × List Nat))
  | 0, bs => if bs.isEmpty then some [] else none
  | n + 1, bs =>
    let len := fld bs 4 4
    let whole := 8 + roundUp len 8
    if bs.length < whole ∨ !zeros bs 2 2 ∨ !zeros bs (8 + len) (roundUp len 8 - len) then none
    else (blobSections n (bs.drop whole)).map fun r => (fld bs 0 2, slice bs 8 len) :: r

/-- The body of a section. -/
def section_ (l : List (Nat × List Nat)) (t : Nat) : Option (List Nat) := (l.find? fun x => x.1 == t).map fun x => x.2

/-- No two of the numbers are equal. -/
def distinct (l : List Nat) : Bool := l.eraseDups.length == l.length

/-- The warden entries of a WARDENS body. -/
def wardenEntries (b : List Nat) : List (Nat × List Nat) :=
  (List.range (nth b 0)).map fun i => (fld b (8 + 112 * i) 2, slice b (8 + 112 * i + 8) 97)

/-- A WARDENS body within its limits (R451, R530). -/
def wardensOk (b : List Nat) : Bool :=
  let n := nth b 0
  let q := nth b 1
  let ws := wardenEntries b
  3 ≤ n && n ≤ 9 && 2 ≤ q && q ≤ n && n < 2 * q && zeros b 2 6 && b.length == 8 + 112 * n && distinct (ws.map fun w => w.1) &&
    (ws.all fun w => 1 ≤ w.1 && w.1 ≤ 0xFFE) && (List.range n).all fun i => zeros b (8 + 112 * i + 2) 6 && zeros b (8 + 112 * i + 105) 7

/-- Offset of hazard entry `i` of a SENSORS body. -/
def hazardAt (b : List Nat) (i : Nat) : Nat := 8 + 4 * fld b 0 2 + 12 * i

/-- A SENSORS body within its limits (R530) on a profile with `chans` channels. -/
def sensorsOk (chans : Nat) (b : List Nat) : Bool :=
  let m := fld b 0 2
  let n := fld b 2 2
  m ≤ 4096 && n ≤ 64 && zeros b 5 3 && b.length == 8 + 4 * m + 12 * n &&
    distinct ((List.range m).map fun i => fld b (8 + 4 * i) 2) &&
    ((List.range m).all fun i =>
      let o := 8 + 4 * i
      fld b o 2 < chans && (nth b (o + 2) < 32 || nth b (o + 2) == 0xFF) && nth b (o + 3) == 0) &&
    (List.range n).all fun i =>
      let o := hazardAt b i
      fld b o 2 < chans && decide (signed 16 (fld b (o + 2) 2) ≤ signed 16 (fld b (o + 4) 2)) &&
        (nth b (o + 6) == 1 || nth b (o + 6) == 2) && nth b (o + 7) == 0 && 10 ≤ fld b (o + 8) 2 && fld b (o + 8) 2 ≤ 1000 && zeros b (o + 10) 2

/-- A section of the blob is assigned in this profile, and its body is within its limits (R529, R530). -/
def Hw.sectionOk (h : Hw) (x : Nat × List Nat) : Bool :=
  let b := x.2
  match x.1 with
  | 1 => 1 ≤ b.length && nth b 0 < h.contexts
  | 2 => 1 ≤ nth b 0 && nth b 0 ≤ 4 && zeros b 1 7 && b.length == 8 + 97 * nth b 0
  | 3 => fld b 0 2 ≤ 64 && zeros b 2 6 && b.length == 8 + 8 * fld b 0 2
  | 4 => wardensOk b
  | 5 => sensorsOk h.sensorCount b
  | 6 => decide (h.prof = .l) && b.length == 64 && b.all (· ≤ 3)
  | 7 => h.prof != .l && b.length == 8
  | 8 => b.length == 8 && zeros b 6 2 && nth b 5 + (h.fabrics - 1) ≤ 0xFF && !bit (nth b 0) 0
  | _ => false

/-- The sections of a blob without its signature, where it obeys R528 and R529. -/
def Hw.blobParse (h : Hw) (b : List Nat) : Option (List (Nat × List Nat)) :=
  if b.length < 112 ∨ 1048576 < b.length ∨ b.take 4 ≠ ascii "BCB1" ∨ fld b 4 4 ≠ b.length ∨ nth b 12 ≠ h.prof.sel 0 1 2 ∨ !zeros b 14 2 then none
  else
    match blobSections (nth b 13) (slice b 16 (b.length - 112)) with
    | none => none
    | some l =>
      let ts := l.map fun x => x.1
      if distinct ts && ts.contains 1 && ts.contains 2 && l.all h.sectionOk then some l else none

/-- A replacement's VERSION is greater and its ROLES name the same OPER_CTX (R574). -/
def Hw.blobReplaces (h : Hw) (b : List Nat) (l : List (Nat × List Nat)) : Bool :=
  h.g R.SEC_STAT_BLOB != 1 ||
    (decide (h.g R.SEC_BLOB_VER_VERSION < fld b 8 4) && nth ((section_ l 1).getD []) 0 == h.operCtx)

/-- The blob has come (R528): its form is checked, then its signature through the root of trust. -/
def Hw.blobArrived (h : Hw) (b : List Nat) : Hw :=
  match h.blobParse b with
  | none => h.blobRefused E.badValue
  | some l =>
    if h.blobReplaces b l then h.rotAsk 3 (Config.sha384 (b.take (b.length - 96)) ++ b.drop (b.length - 96)) (.blobSig b)
    else h.blobRefused E.badValue

/-- The hazard channels of a SENSORS body. One whose entry has not changed goes on as it is. -/
def Hw.hazardChans (h : Hw) (b : List Nat) : List HzChan :=
  (List.range (fld b 2 2)).map fun i =>
    let o := hazardAt b i
    let c : HzChan := ⟨fld b o 2, signed 16 (fld b (o + 2) 2), signed 16 (fld b (o + 4) 2), nth b (o + 6), fld b (o + 8) 2, 0, 0, 0, h.frc, false, false⟩
    match h.saf.hz.find? fun x => x.ch == c.ch && x.lo == c.lo && x.hi == c.hi && x.p == c.p && x.maxGap == c.maxGap with
    | some x => x
    | none => c

/-- The hazard path takes a SENSORS section, or none (R547, R557, R574): conditions that it no longer holds end. -/
def Hw.takeSensors (h : Hw) (b : List Nat) : Hw :=
  let old := h.saf
  let new := h.hazardChans b
  let en := if b.isEmpty then 0xFF else nth b 4
  let gone := old.hz.filter fun c => (c.active || c.silent) && !new.contains c
  let off := (List.range 8).filter fun n => bit old.hzIn n && !bit en n
  let map := (List.range (fld b 0 2)).filterMap fun i =>
    if nth b (8 + 4 * i + 2) = 0xFF then none else some (fld b (8 + 4 * i) 2, nth b (8 + 4 * i + 2))
  let h := { h with saf := { h.saf with hz := new, hzEn := en, hzIn := old.hzIn &&& en }, sec := { h.sec with sensorMap := map } }
  let h := h.each gone fun h c =>
    let h := if c.active then h.hazardEnd 0 c.ch c.last c.side else h
    if c.silent then h.hazardEnd 3 c.ch c.last 2 else h
  let h := h.each off fun h n => h.hazardEnd 1 n 0 2
  let h := h.each (List.range 64) fun h i =>
    match new[i]? with
    | some c => (h.s (R.SAF_HZ_LIM_LO.at i) (unsigned 16 c.lo)).s (R.SAF_HZ_LIM_HI.at i) (unsigned 16 c.hi)
    | none => (h.s (R.SAF_HZ_LIM_LO.at i) 0).s (R.SAF_HZ_LIM_HI.at i) 0
  (h.s R.SAF_CFG_CRC_CRC (Config.hazardCrc (en :: b.drop (8 + 4 * fld b 0 2))).toNat).limitsReloaded

/-- The warden set of the blob (R451): VRD_CFG, VRD_WARDENi; orders in force are checked again (R574). -/
def Hw.takeWardens (h : Hw) (b : List Nat) : Hw :=
  let ws := wardenEntries b
  let h := { h with sec := { h.sec with wardens := ws } }
  let h := (h.s R.VRD_CFG_QUORUM (nth b 1)).s R.VRD_CFG_WARDENS ws.length
  let h := h.each (List.range 9) fun h i => h.s (R.VRD_WARDEN_NODE.at i) ((ws[i]?.map fun w => w.1).getD 0)
  h.showArbiter.recheckOrders

/-- The peers that the deny list names lose their sessions at once (R527, R574). -/
def Hw.dropDenied (h : Hw) : Hw :=
  h.each (h.sec.sessions.filter fun x => (x.up || x.step != 0) && h.sec.deny.contains (h.link x.port).peerIdent) fun h x => h.endSession x.port

/-- The operator context of the blob: CTX_OPER, EN and OPER, and its key (R508, R518, R532). -/
def Hw.takeOper (h : Hw) (c : Nat) : Hw :=
  let h := (h.s R.CTX_OPER_CTX c).each (List.range h.contexts) fun h i => h.s (R.CTX_CFG_OPER.at i) (b2n (i == c))
  let h := h.s (R.CTX_CFG_EN.at c) 1
  if h.keys.any fun k => k.ctx == c then h else h.drawKey c

/-- The blob is accepted (R529, R574). -/
def Hw.blobAccepted (h : Hw) (b : List Nat) (l : List (Nat × List Nat)) : Hw :=
  let old := h.g R.SEC_BLOB_VER_VERSION
  let again := h.g R.SEC_STAT_BLOB == 1
  let body (t : Nat) : List Nat := (section_ l t).getD []
  let an := body 2
  let dn := body 3
  let h := { h with sec := { h.sec with anchors := (List.range (nth an 0)).map fun i => slice an (8 + 97 * i) 97,
                                        deny := (List.range (fld dn 0 2)).map fun i => fld dn (8 + 8 * i) 8,
                                        sentinels := body 6, ptpId := body 7, macBase := (body 8).take 6, blobs := h.sec.blobs + 1 } }
  let h := (((h.s R.SEC_STAT_BLOB 1).s R.SEC_STAT_ANCHORS h.sec.anchors.length).s R.SEC_STAT_DENY h.sec.deny.length).s R.SEC_BLOB_VER_VERSION (fld b 8 4)
  let h := if again then h else h.takeOper (nth (body 1) 0)
  let h := (h.takeWardens (body 4)).takeSensors (body 5)
  let h := h.each (List.range h.sec.sentinels.length) fun h i => h.s (R.HLT_WS_CLASS_CLASS.at i) (nth h.sec.sentinels i)
  let h := (if h.off 0x05 then h.applyPtpId else h).dropDenied
  let h := if again then h.liveUpdate 4 0 (fld b 8 4) old else h
  (h.s R.PWR_START_BLOB 1).agreeAll

/-- The root of trust has checked the blob's signature. -/
def Hw.blobAnswer (h : Hw) (b : List Nat) (ok : Bool) : Hw :=
  if !ok then h.blobRefused E.authFail else
  match h.blobParse b with
  | none => h.blobRefused E.badValue
  | some l => if h.blobReplaces b l then h.blobAccepted b l else h.blobRefused E.badValue

/-- BLOB_REQUEST_RETRY (R531): every 1 s until a blob is accepted. -/
def execBlobRequestRetry (s : State) : Result := s.go fun h =>
  if h.running 0x50 ∧ h.g R.SEC_STAT_BLOB ≠ 1 ∧ h.sec.blobFrc + 1000000000 ≤ h.frc then h.blobAsk else h

/-- SEC_CMD: REKEY and RELOAD (R526, R531). -/
def Hw.secCmd (h : Hw) (rekey reload : Bool) : Tried :=
  match (if rekey then h.rekeyCmd else .ok h) with
  | .error c => .error c
  | .ok h => .ok (if reload then h.blobAsk else h)

/-- SEC_RELOAD (R531, R574). -/
def execSecReload (a : Acc) (s : State) : Result := s.go fun h => h.operWrite a 0x50 0x4C fun h => h.secCmd false true

end Sys2Proof.Machine
end

