-- ==== Sys2Proof/Machine/Power.lean ====
section
/-!
DEFINITION. Machine/Power.lean: the resets and the power domains (R35–R38, R557–R560), the wake sequencer of a Boldal T (R565–R569) and the
TEST_MODE input (R69).
-/
namespace Sys2Proof.Machine

/-! ### What a reset clears (R10, R35) -/

/-- The page that a key of the register file lies in, and the offset in it. -/
def keyPage (k : Nat) : Nat := k / 2 ^ 38
def keyOff (k : Nat) : Nat := k / 2 ^ 26 % 4096

/-- The register fields that `gone` names, of every element, take their reset values. -/
def Hw.resetRegs (h : Hw) (gone : Nat → Bool) : Hw :=
  { h with regs := profileRegs h.prof gone (h.regs.filter fun e => !gone e.1) }

/-- The field of a key, of any element. -/
def keyField (k : Nat) : Nat := k / 2 ^ 20

/-- The fields of core-domain pages whose values lie in the always-on domain: of the EVR page the counts and the places of the log (R487,
R491), of the TIM page FIRST_STEP_DONE, the rate and the count of steps (R115, R120, R143), of the HLT page the fit of the wear sentinels (R423), and the retired macros
(R244). -/
def alwaysOnFields : List Nat :=
  ([R.EVR_OPTIME_S, R.EVR_PCYCLE_COUNT, R.EVR_ENTRIES_COUNT, R.EVR_NEWEST_SEQ_SEQ, R.EVR_OLDEST_OFF, R.EVR_NEWEST_OFF, R.EVR_OVERWRITTEN_COUNT,
    R.EVR_MIRROR_LOST_COUNT, R.EVR_UNMIRRORED_COUNT, R.TIM_STATUS_FIRST_STEP_DONE, R.TIM_STEPS_COUNT, R.TIM_RATE_LO_RATE, R.TIM_RATE_HI_RATE, R.HLT_WS_N_N,
    R.HLT_WS_S1_S1, R.HLT_WS_S2_S2, R.GAR_RETIRED_MASK].map fun f => keyField f.key)

/-- A key that a reset of the core domain clears: every page but BLK, PWR and SAF, the always-on fields apart; of the SAF page CTRL_HELD and
INJ_BUSY (R538, R552, R554); of PWR_START the bits of the stages from 2 on, but for the log (R561, R576). -/
def coreGone (k : Nat) : Bool :=
  match keyPage k with
  | 0x00 => false
  | 0x54 => ([R.SAF_STAT_CTRL_HELD, R.SAF_STAT_INJ_BUSY].map fun f => keyField f.key).contains (keyField k)
  | 0x58 => ([R.PWR_START_CORE, R.PWR_START_BOOT, R.PWR_START_BLOB, R.PWR_START_SELFTEST, R.PWR_START_TIME, R.PWR_START_FABRIC,
      R.PWR_START_DONE].map fun f => keyField f.key).contains (keyField k)
  | _ => !alwaysOnFields.contains (keyField k)

/-- The counts of choices, which the core domain holds: only its reset clears ND_TOTAL (R281, R283). -/
def choiceFields : List Nat :=
  [R.ND_TOTAL_LO_COUNT, R.ND_TOTAL_HI_COUNT, R.ND_LAST_CAUSE, R.ND_LAST_FRC_LO_FRC, R.ND_LAST_FRC_HI_FRC, R.ND_CNT_COUNT].map fun f => keyField f.key

/-- A key of a function register of the GAR and SLU pages, the retired macros apart. -/
def garnetGone (k : Nat) : Bool :=
  garnetPage (keyPage k) && 0x40 ≤ keyOff k && !alwaysOnFields.contains (keyField k) && !choiceFields.contains (keyField k)

/-- The pages of the Garnet domain that have a state of their own (R248). -/
def garnetPages : List Nat := [0x10, 0x14]

/-- What a reset of the Garnet domain clears (R35): its functions and their registers are as after reset, and what its engines had fetched ends
with ABORTED. -/
def Hw.garnetClear (h : Hw) : Hw :=
  let h := h.abortEngine 0x10
  Hw.resetRegs { h with gar := { Gar.reset with katPass := h.gar.katPass }, chk := Chk.reset,
                        pwr := { h.pwr with gar := false, garRst := true } } garnetGone |>.assignPools

/-- The Garnet domain's pages are OFF and hold no claim (R35, R97). -/
def Hw.garnetPagesOff (h : Hw) : Hw :=
  let h := h.each garnetPages fun h p => ((if h.off p then h else h.setState p 0).releaseClaims p)
  { h with aborts := h.aborts.filter fun x => !garnetPages.contains x.1, overruns := h.overruns.filter fun p => !garnetPages.contains p }

/-- A reset of the Garnet domain (R35). -/
def Hw.garnetReset (h : Hw) : Hw := h.garnetClear.garnetPagesOff

/-- The part of the trace function in the always-on domain (R412): the low-power store and what is known of the power-down. -/
def Hw.keptTrace (h : Hw) : Trc :=
  let held := h.flw.held.any (fun x => x.r.typ == 0x39) || h.flw.streams.any fun s => s.held.any fun r => r.typ == 0x39
  let t := h.trc
  { Trc.reset with lpReq := t.lpReq, lpAck := t.lpAck, lpRise := t.lpRise, lpRiseNt := t.lpRiseNt, lpStore := t.lpStore,
                   lpSent := t.lpSent && !held, lpMissing := t.lpMissing || (t.lpReq && !t.lpAck), lpFall := t.lpFall, lpStopped := t.lpStopped,
                   coreLost := t.coreLost || t.lpReq, bufLost := t.bufLost || t.lpReq }

/-- A reset of the core domain (R35, R554, R560): it forces a reset of the Garnet domain and leaves the always-on domain as it is: the FRC
and NT, the event log, the safety part, the wake sequencer. -/
def Hw.coreReset (h : Hw) : Hw :=
  let h := if h.pwr.core then h.event 0x0002 1 (le 2 h.mbxMask) else h
  let kept := h.flw.conds.filter fun (c : OpenCond) => c.live && (c.guarantee == 2 && c.cond == 3 || c.guarantee == 9 && c.cond == 0x0B ||
    c.guarantee == 6 && c.cond == 7 && h.saf.clockFault)
  let fresh := Hw.resetFor h.prof
  let h' : Hw := { fresh with
    regs := h.regs, frc := h.frc, freeCtr := h.freeCtr, rsp := h.rsp, out := h.out, dmaNext := h.dmaNext,
    claims := h.claims.filter fun c => alwaysOnPage c.2,
    aborts := h.aborts.filter fun x => alwaysOnPage x.1, overruns := h.overruns.filter alwaysOnPage,
    pwr := { h.pwr with core := false, coreRst := true, gar := false, garRst := true, coreSince := h.frc },
    evr := { h.evr.dropCut with nv := [], reads := [], flush := none, hostWait := false },
    saf := { h.saf with mismatches := [], ctrlPaused := false, inj := none, selftest := false },
    tim := { fresh.tim with base48 := h.tim.base48, baseFrc := h.tim.baseFrc, rate := h.tim.rate,
                            oldBase := h.tim.oldBase, oldFrc := h.tim.oldFrc, oldRate := h.tim.oldRate, setDue := h.tim.setDue, stepSynced := h.tim.stepSynced,
                            rateLog := h.tim.rateLog },
    flw := { fresh.flw with conds := kept },
    agt := { fresh.agt with retired := h.agt.retired },
    gar := { fresh.gar with katPass := h.gar.katPass },
    trc := h.keptTrace }
  (h'.resetRegs coreGone).assignPools

/-! ### Power domains (R36, R38, R558, R559) -/

/-- Switch the Garnet domain on: its enable rises, and the switch groups follow one at a time (R36, R558). -/
def Hw.garnetUp (h : Hw) : Hw :=
  if h.pwr.garEn then h else
  Hw.s { h with pwr := { h.pwr with garEn := true, garEnFrc := h.frc, groups := 0 } } R.PWR_DOM_GAR_ST 3

/-- Switch the Garnet domain off: isolation first, then the switch groups and the enable (R559). -/
def Hw.garnetDown (h : Hw) : Hw :=
  if !h.pwr.garEn then h else
  let h := h.garnetReset
  Hw.s { h with pwr := { h.pwr with isoGar := true, groups := 0, garEn := false } } R.PWR_DOM_GAR_ST 0

/-- Switch the core domain on. -/
def Hw.coreUp (h : Hw) : Hw :=
  if h.pwr.coreEn then h else
  Hw.s { h with pwr := { h.pwr with coreEn := true, coreEnFrc := h.frc } } R.PWR_DOM_CORE_ST 3

/-- Switch the core domain off, the Garnet domain first (R36, R559). -/
def Hw.coreDown (h : Hw) : Hw :=
  if !h.pwr.coreEn then h else
  let h := h.garnetDown.coreReset
  Hw.s { h with pwr := { h.pwr with isoCore := true, coreEn := false } } R.PWR_DOM_CORE_ST 0

/-- Every page but those that `but` names is OFF. -/
def Hw.allOff (h : Hw) (but : List Nat) : Bool := h.pageList.all fun p => but.contains p || h.off p

/-- PWR_DOM (R559): the bits that the write covers. -/
def Hw.pwrDom (h : Hw) (coreAuto garAuto garOn coreOn : Option Nat) : Tried :=
  if (garOn == some 0 && !garnetPages.all h.off) || (coreOn == some 0 && !h.allOff [0x00, 0x54, 0x58]) then .error E.badState else
  let put (h : Hw) (f : Field) (v : Option Nat) : Hw := match v with | some x => h.s f x | none => h
  let h := put (put (put (put h R.PWR_DOM_CORE_AUTO coreAuto) R.PWR_DOM_GAR_AUTO garAuto) R.PWR_DOM_GAR_ON garOn) R.PWR_DOM_CORE_ON coreOn
  let h := match garOn with | some 0 => h.garnetDown | _ => h
  let h := match coreOn with | some 0 => h.coreDown | some _ => (if h.pwr.porst then h else h.coreUp) | none => h
  .ok (match garOn with | some 0 => h | some _ => (if h.pwr.core then h.garnetUp else h) | none => h)

/-- Every page of a domain enters FAULTED with DOMAIN_FAULT (R38, R90). -/
def Hw.faultPages (h : Hw) (ps : List Nat) : Hw :=
  h.each ps fun h p => ((h.err p E.domainFault).setState p 5).event 0x0040 2 ([p, 0] ++ le 2 E.domainFault)

/-- The pages of the core domain. -/
def Hw.corePages (h : Hw) : List Nat := h.pageList.filter fun p => !garnetPage p && p != 0 && p != 0x58 && p != 0x54

/-- The Garnet domain is faulted (R38, R559): it is in reset, and its pages, which enter FAULTED, keep their claims (R90). -/
def Hw.garnetFault (h : Hw) : Hw :=
  let h := h.garnetClear
  let h := { h with pwr := { h.pwr with isoGar := true, groups := 0, garEn := false } }
  ((h.s R.PWR_DOM_GAR_ST 2).event 0x0003 2 [2]).raise 0x58 19

/-- The core domain is faulted, and the Garnet domain with it (R36, R38, R559); the pages, which enter FAULTED, keep their claims (R90). -/
def Hw.coreFault (h : Hw) : Hw :=
  let kept := h.claims
  let h := (if h.pwr.garEn then h.garnetDown else h).coreReset
  let h := { h with pwr := { h.pwr with isoCore := true, coreEn := false }, claims := kept }
  ((h.s R.PWR_DOM_CORE_ST 2).event 0x0003 2 [1]).raise 0x58 19

/-! ### Meanings: resets and domains -/

/-- PORST_N_ASSERT (R35): every domain is in reset. The TEST_MODE input is no register and keeps its level, which holds HAZARD high (R69). -/
def execPorstNAssert (s : State) : Result := .next (s.clocked fun h =>
  let r := Hw.resetFor h.prof
  Hw.s { r with pwr := { r.pwr with tied := h.pwr.tied }, freeCtr := h.freeCtr, saf := { r.saf with testMode := h.saf.testMode } } R.SAF_STAT_HAZARD (b2n h.saf.testMode))

/-- PORST_N_RELEASE (R557): the always-on domain leaves reset and the FRC starts from zero. -/
def execPorstNRelease (s : State) : Result := .next (s.clocked fun h =>
  if !h.pwr.porst then h else
  Hw.s { h with frc := 0, pwr := { h.pwr with porst := false, aon := true, releaseFrc := 0, coreSince := 0, intFrc := 0 } } R.PWR_START_AON 1)

/-- CORE_AUTO_POWER_UP (R558): 10 µs after the always-on domain has left reset. -/
def execCoreAutoPowerUp (s : State) : Result := s.go fun h =>
  if h.pwr.aon && !h.pwr.autoDone && h.pwr.releaseFrc + 10000 ≤ h.frc && h.on R.PWR_DOM_CORE_AUTO then
    Hw.coreUp { h with pwr := { h.pwr with autoDone := true } }
  else h

/-- CORE_RST_N_ASSERT (R35). -/
def execCoreRstNAssert (s : State) : Result := s.go fun h => if h.pwr.aon then h.coreReset else h

/-- CORE_DOMAIN_RESET_RELEASE (R558, R560): PORST_N, PDC_CORE_OK and CORE_RST_N hold; ISO_CORE is released, and with GAR_AUTO the Garnet
domain is switched on. -/
def execCoreDomainResetRelease (s : State) : Result := s.go fun h =>
  if h.pwr.porst || !h.pwr.coreEn || h.pwr.core then h else
  let h := h.resetRegs coreGone
  let h := { h with pwr := { h.pwr with core := true, coreRst := false, isoCore := false }, claims := h.claims.filter fun c => alwaysOnPage c.2 }
  let h := (h.s R.PWR_DOM_CORE_ST 1).s R.PWR_START_CORE 1
  if h.on R.PWR_DOM_GAR_AUTO then h.garnetUp else h

/-- GAR_RST_N_ASSERT (R35). -/
def execGarRstNAssert (s : State) : Result := s.go fun h => if h.pwr.core then h.garnetReset else h

/-- GARNET_SWITCH_GROUP_ENABLE (R36): one group at a time, 2 µs between groups. -/
def execGarnetSwitchGroupEnable (s : State) : Result := s.go fun h =>
  if h.pwr.garEn && h.pwr.groups < h.g R.PWR_DOM_GROUPS && (h.pwr.groups == 0 || h.pwr.groupFrc + 2000 ≤ h.frc) then
    { h with pwr := { h.pwr with groups := h.pwr.groups + 1, groupFrc := h.frc } }
  else h

/-- GARNET_DOMAIN_RESET_RELEASE (R558): GAR_RST_N and PDC_GAR_OK hold, and 2 µs have passed since the last group. What the reset clears was
cleared when it began, and a page that a domain fault left FAULTED leaves it here (R90). -/
def execGarnetDomainResetRelease (s : State) : Result := s.go fun h =>
  if h.pwr.core && h.pwr.garEn && !h.pwr.gar && h.pwr.groups == h.g R.PWR_DOM_GROUPS && h.pwr.groupFrc + 2000 ≤ h.frc then
    let h := h.garnetPagesOff
    Hw.s { h with pwr := { h.pwr with gar := true, garRst := false, isoGar := false } } R.PWR_DOM_GAR_ST 1
  else h

/-- POWER_OK_TIMEOUT (R559): 1 ms after a domain's enable its OK has not risen. -/
def execPowerOkTimeout (garnet : Bool) (s : State) : Result := s.go fun h =>
  if garnet then (if h.pwr.garEn && h.g R.PWR_DOM_GAR_ST == 3 && h.pwr.garEnFrc + 1000000 ≤ h.frc then h.garnetFault.faultPages garnetPages else h)
  else if h.pwr.coreEn && h.g R.PWR_DOM_CORE_ST == 3 && h.pwr.coreEnFrc + 1000000 ≤ h.frc then h.coreFault.faultPages h.corePages else h

/-- DOMAIN_FAULT (R38): a domain's OK falls, and the block has not asked for it. -/
def execDomainFault (garnet : Bool) (s : State) : Result := s.go fun h =>
  if garnet then (if h.pwr.garEn then h.garnetFault.faultPages garnetPages else h)
  else if h.pwr.coreEn then h.coreFault.faultPages (h.corePages ++ garnetPages) else h

/-- PWR_DOMAIN_ON (R559): PWR_DOM GAR_ON or CORE_ON = 1. -/
def execPwrDomainOn (a : Acc) (garnet : Bool) (s : State) : Result :=
  s.go fun h => h.operWrite a 0x58 0x040 fun h => if garnet then h.pwrDom none none (some 1) none else h.pwrDom none none none (some 1)

/-- PWR_DOMAIN_OFF (R559): PWR_DOM GAR_ON or CORE_ON = 0. -/
def execPwrDomainOff (a : Acc) (garnet : Bool) (s : State) : Result :=
  s.go fun h => h.operWrite a 0x58 0x040 fun h => if garnet then h.pwrDom none none (some 0) none else h.pwrDom none none none (some 0)

/-! ### The wake sequencer (R565–R569) -/

/-- The current step and the segment of an output. -/
def Hw.dieStep (h : Hw) (d : Nat) : Nat := h.g (R.PWR_DIE_STEP_A.at d)
def Hw.dieSeg (h : Hw) (d : Nat) : Nat := h.g (R.PWR_DIE_SEG.at d)

/-- The level of WAKE_EN[d]. -/
def Hw.wakeHigh (h : Hw) (d : Nat) : Bool := bit (h.g (R.PWR_WAKE_STAT_WAKE.at (d / 32))) (d % 32)

/-- SEG_ALERT[s] as sampled. -/
def Hw.segAlert (h : Hw) (s : Nat) : Bool := bit (h.g R.PWR_QUEUE_ALERT) s

/-- Show the queue (R576). -/
def Hw.showQueue (h : Hw) : Hw :=
  h.each (List.range 4) fun h i =>
    h.s (R.PWR_QUEUED_QUEUED.at i) (total ((h.pwr.wakeQueue.filter fun d => d / 32 == i).map fun d => 2 ^ (d % 32)))

/-- WAKE_EN[d] rises (R566); WAKE_MON checks the rise against its own count (R545), and DIE_PGOOD is awaited (R568). -/
def Hw.raiseWake (h : Hw) (d : Nat) : Hw :=
  let s := h.dieSeg d
  let n := h.dieStep d
  let mon := nth h.pwr.monUsed s + n
  let h := h.setBits (R.PWR_WAKE_STAT_WAKE.at (d / 32)) (2 ^ (d % 32))
  let wait := (d, h.frc + h.g R.PWR_WAKE_CFG_PGOOD_MS * 1000000)
  let h := { h with pwr := { h.pwr with used := h.pwr.used.set s (nth h.pwr.used s + n), monUsed := h.pwr.monUsed.set s mon,
                                        pgoodWait := if bit (h.g (R.PWR_PGOOD_PGOOD.at (d / 32))) (d % 32) then h.pwr.pgoodWait
                                          else h.pwr.pgoodWait ++ [wait] } }
  if nth h.pwr.budget s < mon then h.wakeMonFails false s mon else h

/-- One walk of the queue (R566): a die that its segment cannot take now blocks the later dies of that segment. -/
def Hw.walkFrom : Hw → List Nat → List Nat → List Nat → Hw
  | h, [], _, left => Hw.showQueue { h with pwr := { h.pwr with wakeQueue := left, burst := h.pwr.burst && !left.isEmpty } }
  | h, d :: t, blocked, left =>
    let s := h.dieSeg d
    if blocked.contains s then h.walkFrom t blocked (left ++ [d])
    else if h.segAlert s || nth h.pwr.budget s < nth h.pwr.used s + h.dieStep d || h.pwr.monBlock || h.saf.testMode then
      h.walkFrom t (s :: blocked) (left ++ [d])
    else (h.raiseWake d).walkFrom t blocked left

/-- A walk: while the page is RUNNING, or drains (R566). An interval in which SEG_ALERT kept a segment with queued outputs from starting any
of them counts once (R567). -/
def Hw.walk (h : Hw) : Hw :=
  if !(h.running 0x58 || h.state 0x58 == 3 || h.state 0x58 == 6) then h else
  let h := h.walkFrom h.pwr.wakeQueue [] []
  if !h.pwr.alertCounted && (h.pwr.wakeQueue.any fun d => h.segAlert (h.dieSeg d) && nth h.pwr.used (h.dieSeg d) == 0) then
    Hw.inc { h with pwr := { h.pwr with alertCounted := true } } R.PWR_ALERT_BLOCK_COUNT
  else h

/-- SEG_ALERT is sampled; a rise raises FUNC_IRQ ALERT (R576). -/
def Hw.sampleAlert (h : Hw) (alert : Nat) : Hw :=
  let old := h.g R.PWR_QUEUE_ALERT
  let h := h.s R.PWR_QUEUE_ALERT alert
  if (List.range 8).any fun i => bit alert i && !bit old i then h.raise 0x58 20 else h

/-- The outputs that a write of mask register `i` names. -/
def maskOutputs (i bits : Nat) : List Nat := ((List.range 32).filter fun j => bit bits j).map fun j => 32 * i + j

/-- PWR_WAKE_REQ (R565, R567): the outputs that are neither high nor queued join the queue; those that the walk does not start are
deferred. They wait while the page is not RUNNING (R83); a page that drains or aborts accepts no new work (R87; log entry 125). -/
def Hw.wakeReq (h : Hw) (i bits : Nat) : Tried :=
  let ds := maskOutputs i bits
  if ds.any fun d => h.dieStep d == 0 then .error E.badValue
  else if h.state 0x58 == 3 || h.state 0x58 == 4 || h.state 0x58 == 6 then .error E.badState
  else
    let new := ds.filter fun d => !h.wakeHigh d && !h.pwr.wakeQueue.contains d
    let h := Hw.walk { h with pwr := { h.pwr with wakeQueue := h.pwr.wakeQueue ++ new } }
    let late := (new.filter fun d => h.pwr.wakeQueue.contains d).length
    if late = 0 then .ok h else
    let h := h.add R.PWR_DEFERRED_COUNT late
    if h.pwr.burst then .ok h else
    .ok (Hw.raise (Hw.err { h with pwr := { h.pwr with burst := true } } 0x58 E.wakeDeferred) 0x58 16)

/-- DIE_PGOOD of an output that is started has not risen in time, or falls (R568). -/
def Hw.pgoodFails (h : Hw) (d : Nat) : Hw :=
  let h := { h with pwr := { h.pwr with pgoodWait := h.pwr.pgoodWait.filter fun w => w.1 != d } }
  (h.setBits (R.PWR_PGOOD_FAIL_FAIL.at (d / 32)) (2 ^ (d % 32))).raise 0x58 17

/-- DIE_PGOOD falls: a failure while WAKE_EN is high. -/
def Hw.pgoodFall (h : Hw) (d : Nat) : Hw :=
  let was := bit (h.g (R.PWR_PGOOD_PGOOD.at (d / 32))) (d % 32)
  let h := h.dropBits (R.PWR_PGOOD_PGOOD.at (d / 32)) (2 ^ (d % 32))
  if was && h.wakeHigh d then h.pgoodFails d else h

/-- The DIE_PGOOD levels are sampled: word `i` holds outputs 32 × i to 32 × i + 31. -/
def Hw.samplePgood (h : Hw) (pgood : List Nat) : Hw :=
  h.each (List.range 128) fun h d =>
    if bit (nth pgood (d / 32)) (d % 32) then
      let h := h.setBits (R.PWR_PGOOD_PGOOD.at (d / 32)) (2 ^ (d % 32))
      { h with pwr := { h.pwr with pgoodWait := h.pwr.pgoodWait.filter fun w => w.1 != d } }
    else h.pgoodFall d

/-- PWR_WAKE_OFF (R568). -/
def Hw.wakeOff (h : Hw) (i bits : Nat) : Hw :=
  let ds := maskOutputs i bits
  let left := h.pwr.wakeQueue.filter fun d => !ds.contains d
  let h := { h with pwr := { h.pwr with wakeQueue := left, burst := h.pwr.burst && !left.isEmpty,
                                        pgoodWait := h.pwr.pgoodWait.filter fun w => !ds.contains w.1 } }
  (h.dropBits (R.PWR_WAKE_STAT_WAKE.at i) bits).showQueue

/-- An abort of the PWR page (R94, R568): the queue is emptied and the levels stay. -/
def Hw.wakeAbort (h : Hw) : Hw := Hw.showQueue { h with pwr := { h.pwr with wakeQueue := [], burst := false } }

/-- A host write of a wake register: ignored but on a Boldal T (R576). -/
def Hw.wakeWrite (h : Hw) (a : Acc) (off : Nat) (f : Hw → Tried) : Hw :=
  if h.prof = .t then h.operWrite a 0x58 off f else h.operAccess a 0x58 off id

/-- PWR_DIE (R569, R83): the step and the segment of output `d`; they change only while it is low and not queued. -/
def Hw.dieWrite (h : Hw) (d step seg : Nat) : Tried :=
  if 8 ≤ seg || h.g (R.PWR_BUDGET_A.at seg) < step then .error E.badValue
  else if (h.wakeHigh d || h.pwr.wakeQueue.contains d) && (h.g (R.PWR_DIE_STEP_A.at d) != step || h.g (R.PWR_DIE_SEG.at d) != seg) then
    .error E.badState
  else .ok ((h.s (R.PWR_DIE_STEP_A.at d) step).s (R.PWR_DIE_SEG.at d) seg)

/-- PWR_BUDGET (R569): taken at the next interval. -/
def Hw.budgetWrite (h : Hw) (seg v : Nat) : Tried :=
  if v = 0 ∨ 255 < v ∨ ((List.range 128).any fun d => h.dieSeg d == seg && decide (v < h.dieStep d)) = true then .error E.badValue
  else .ok (h.s (R.PWR_BUDGET_A.at seg) v)

/-- PWR_WAKE_REQ (R565). -/
def execPwrWakeReq (a : Acc) (i bits alert : Nat) (s : State) : Result := s.go fun h =>
  (if h.prof = .t then h.sampleAlert (alert % 256) else h).wakeWrite a (0x100 + 4 * (i % 4)) fun h => h.wakeReq (i % 4) (bits % 2 ^ 32)

/-- WAKE_INTERVAL_START (R566, R569): every INTERVAL_US from the release of PORST_N; new budgets and a new length apply from here. -/
def execWakeIntervalStart (alert : Nat) (pgood : List Nat) (s : State) : Result := s.go fun h =>
  let due := h.pwr.intFrc + h.pwr.intervalUs * 1000
  if h.prof ≠ .t ∨ !h.pwr.aon ∨ h.frc < due then h else
  let h := { h with pwr := { h.pwr with intFrc := due, intervalUs := h.g R.PWR_WAKE_CFG_INTERVAL_US, used := List.replicate 8 0,
                                        monUsed := List.replicate 8 0, budget := (List.range 8).map fun s => h.g (R.PWR_BUDGET_A.at s),
                                        alertCounted := false } }
  ((h.sampleAlert (alert % 256)).samplePgood pgood).walk

/-- PWR_WAKE_OFF (R568). -/
def execPwrWakeOff (a : Acc) (i bits : Nat) (s : State) : Result := s.go fun h =>
  h.wakeWrite a (0x110 + 4 * (i % 4)) fun h => .ok (h.wakeOff (i % 4) (bits % 2 ^ 32))

/-- PGOOD_TIMEOUT (R568). -/
def execPgoodTimeout (d : Nat) (s : State) : Result := s.go fun h =>
  if h.pwr.aon && h.pwr.pgoodWait.any fun w => w.1 == d && w.2 ≤ h.frc then h.pgoodFails d else h

/-- DIE_PGOOD_FALL (R568). -/
def execDiePgoodFall (d : Nat) (s : State) : Result := s.go fun h => if h.prof = .t ∧ h.pwr.aon ∧ d < 128 then h.pgoodFall d else h

/-- PGOOD_FAIL_CLEAR (R576): a W1C write. -/
def execPgoodFailClear (a : Acc) (i bits : Nat) (s : State) : Result := s.go fun h =>
  h.wakeWrite a (0x150 + 4 * (i % 4)) fun h => .ok (h.clrBits (R.PWR_PGOOD_FAIL_FAIL.at (i % 4)) (bits % 2 ^ 32))

/-! ### TEST_MODE (R69) -/

/-- TEST_MODE_CHANGE (R69, R551): while the input is high, WAKE_EN and STOP_REQ are low and HAZARD is high. -/
def execTestModeChange (high : Bool) (s : State) : Result := s.go fun h =>
  let h := { h with saf := { h.saf with testMode := high } }
  let h := if high then
      let h := (h.each (List.range 4) fun h i => h.s (R.PWR_WAKE_STAT_WAKE.at i) 0).s R.SAF_STAT_HAZARD 1
      { h with trc := { h.trc with stopReq := false }, pwr := { h.pwr with pgoodWait := [] } }
    else if h.hazardHolds then h else { h with saf := { h.saf with hzLastClear := h.frc } }
  if h.pwr.aon then h.detection else h

end Sys2Proof.Machine
end

