-- ==== Sys2Proof/Machine/Upd.lean ====
section
/-!
DEFINITION. Machine/Upd.lean: replacement of the controller firmware in service (R571–R573, R577) and the memory of the staging half.
-/
namespace Sys2Proof.Machine

/-- UPD_STAT STATE: 0 EMPTY, 1 LOADING, 2 READY, 3 PENDING, 4 UNCOMMITTED. -/
def Hw.updState (h : Hw) : Nat := h.g R.UPD_STAT_STATE

/-- A state of the staging half. VERSION shows in READY, and goes with the contents (R577). -/
def Hw.setUpd (h : Hw) (st : Nat) : Hw :=
  let h := h.s R.UPD_STAT_STATE st
  if st < 2 then h.s R.UPD_STAGE_VER_VERSION 0 else h

/-- Bytes of the staging half. -/
def Hw.stageSize (h : Hw) : Nat := 1024 * h.g R.UPD_IMG_SIZE_KIB

/-- Empty the staging half (R572, R577). -/
def Hw.emptyStage (h : Hw) : Hw := Hw.setUpd { h with upd := { h.upd with stage := [], verifying := false } } 0

/-- A check of the staged image fails. -/
def Hw.verifyFails (h : Hw) (code : Nat) : Hw := (h.emptyStage.err 0x5C code).raise 0x5C 19

/-- `n` bytes of the staging half from an offset. -/
def Hw.stageBytes (h : Hw) (off n : Nat) : List Nat := Memory.readBytes h.upd.stage off n

/-- The header of an image holds what R571 asks: MAGIC, a body that the half can hold, the profile, the silicon, zeros elsewhere. -/
def Hw.headerOk (h : Hw) (b : List Nat) : Bool :=
  slice b 0 4 == [0x42, 0x46, 0x57, 0x31] && fld b 8 4 + 160 ≤ h.stageSize && nth b 20 == h.prof.sel 0 1 2 &&
    fld b 24 4 ≤ h.g R.BLK_SILICON_REV && (slice b 21 3 ++ slice b 28 36).all (· == 0)

/-- VERIFY (R571, R572): the header and the CRC-32C of the body here, the signature by the root of trust. -/
def Hw.verifyStage (h : Hw) : Hw :=
  let hd := h.stageBytes 0 64
  let n := fld hd 8 4
  if !h.headerOk hd || crc32c (h.stageBytes 64 n) != fld hd 16 4 then h.verifyFails E.badValue else
  Hw.rotAsk { h with upd := { h.upd with verifying := true } } 3
    (Config.sha384 (h.stageBytes 0 (64 + n)) ++ h.stageBytes (64 + n) 96) .segmentVerify

/-- The root of trust has checked the image's signature. -/
def Hw.stageAnswer (h : Hw) (ok : Bool) : Hw :=
  if !h.upd.verifying || !h.works 0x5C then h
  else if !ok then h.verifyFails E.authFail
  else
    let h := (Hw.setUpd { h with upd := { h.upd with verifying := false } } 2).s R.UPD_STAGE_VER_VERSION (fld (h.stageBytes 4 4) 0 4)
    h.raise 0x5C 16

/-- The check of the signature is not answered in time (R72). -/
def Hw.stageTimeout (h : Hw) : Hw := if h.upd.verifying && h.works 0x5C then h.verifyFails E.rotTimeout else h

/-- LOAD (R572): the segment is read on behalf of the operator context. -/
def Hw.loadSegment (h : Hw) : Hw :=
  (Hw.setUpd { h with upd := { h.upd with verifying := false } } 1).dmaRead h.operCtx (h.g64 R.UPD_SEG_LO_ADDR R.UPD_SEG_HI_ADDR)
    (h.g R.UPD_SEG_LEN_BYTES) (.segment (h.g R.UPD_SEG_OFF_OFF))

/-- The bytes of a segment arrive. -/
def Hw.segmentArrived (h : Hw) (off : Nat) (bytes : List Nat) : Hw :=
  if h.updState = 1 ∧ h.works 0x5C = true then { h with upd := { h.upd with stage := Memory.writeBytes h.upd.stage off bytes } } else h

/-- The handover (R573): the controller pair stops and restarts at the new image's entry. -/
def Hw.handOverFirmware (h : Hw) : Hw :=
  let h := { h with upd := { h.upd with prevVer := h.g R.UPD_RUN_VER_VERSION, prevRom := h.g R.UPD_STAT_FROM_ROM, awaiting := true,
                                        handFrc := h.frc, pausing := true },
                    saf := { h.saf with ctrlPaused := true } }
  (h.s R.UPD_RUN_VER_VERSION (h.g R.UPD_STAGE_VER_VERSION)).s R.UPD_STAT_FROM_ROM 0

/-- A pending image is due: a ledger period has closed since HANDOVER, or the FLW page is not RUNNING; a lockstep restart in progress is
waited for. The page runs, or drains: it has accepted the handover (R87, R90). -/
def Hw.handoverDue (h : Hw) : Bool :=
  h.works 0x5C && h.updState == 3 && !h.upd.awaiting && !h.saf.ctrlPaused && (!h.running 0x30 || h.g R.FLW_PERIOD_PERIOD != h.upd.askedIn)

/-- HANDOVER (R573). -/
def Hw.handoverCmd (h : Hw) : Hw :=
  let h := Hw.setUpd { h with upd := { h.upd with askedIn := h.g R.FLW_PERIOD_PERIOD, awaiting := false } } 3
  if h.handoverDue then h.handOverFirmware else h

/-- COMMIT (R573): the former half is free for the next load. -/
def Hw.commitCmd (h : Hw) : Hw := h.emptyStage.liveUpdate 3 0 (h.g R.UPD_RUN_VER_VERSION) 0

/-- UPD_CMD (R572, R573, R577): refused as a whole where one of its commands is. -/
def Hw.updCmd (h : Hw) (load verify handover commit discard : Bool) : Tried :=
  let st := h.updState
  let len := h.g R.UPD_SEG_LEN_BYTES
  if ((load || verify || handover) && !h.running 0x5C) || ((load || verify || discard) && (st == 3 || st == 4)) || (handover && st != 2) ||
      (commit && st != 4) then .error E.badState
  else if load && (len < 64 || 65536 < len || h.stageSize < h.g R.UPD_SEG_OFF_OFF + len) then .error E.badValue
  else
    let h := if load then h.loadSegment else h
    let h := if verify then h.verifyStage else h
    let h := if handover then h.handoverCmd else h
    let h := if commit then h.commitCmd else h
    .ok (if discard then h.emptyStage else h)

/-- An abort of the UPD page: a segment load and a check in progress are given up, the running image stays (R94). -/
def Hw.updAbort (h : Hw) : Hw :=
  { h with upd := { h.upd with verifying := false }, dma := h.dma.filter fun r => match r.purpose with | .segment _ => false | _ => true }

/-- No segment is on its way, no check under way, and no handover pending (R87). -/
def Hw.updDrained (h : Hw) : Bool := !h.upd.verifying && h.updState != 3 && !(h.dma.any fun r => match r.purpose with | .segment _ => true | _ => false)

/-! ### Meanings -/

/-- UPD_LOAD (R572). -/
def execUpdLoad (a : Acc) (s : State) : Result := s.go fun h => h.operWrite a 0x5C 0x054 fun h => h.updCmd true false false false false

/-- UPD_VERIFY (R572). -/
def execUpdVerify (a : Acc) (s : State) : Result := s.go fun h => h.operWrite a 0x5C 0x054 fun h => h.updCmd false true false false false

/-- UPD_HANDOVER (R573). -/
def execUpdHandover (a : Acc) (s : State) : Result := s.go fun h => h.operWrite a 0x5C 0x054 fun h => h.updCmd false false true false false

/-- UPD_COMMIT (R573). -/
def execUpdCommit (a : Acc) (s : State) : Result := s.go fun h => h.operWrite a 0x5C 0x054 fun h => h.updCmd false false false true false

/-- UPD_DISCARD (R577). -/
def execUpdDiscard (a : Acc) (s : State) : Result := s.go fun h => h.operWrite a 0x5C 0x054 fun h => h.updCmd false false false false true

/-- FIRMWARE_HANDOVER (R573): at the close of the ledger period. -/
def execFirmwareHandover (s : State) : Result := s.go fun h => if h.pwr.core && h.handoverDue then h.handOverFirmware else h

/-- FIRMWARE_ALIVE_REPORT (R573, R575): STATE becomes UNCOMMITTED. -/
def execFirmwareAliveReport (s : State) : Result := s.go fun h =>
  if h.pwr.core && h.upd.awaiting && !h.saf.ctrlPaused then
    let h := Hw.setUpd { h with upd := { h.upd with awaiting := false } } 4
    (h.raise 0x5C 17).liveUpdate 1 0 (h.g R.UPD_RUN_VER_VERSION) h.upd.prevVer
  else h

/-- FIRMWARE_ALIVE_TIMEOUT (R573): after 100 ms the previous image is restarted. The spec names no STATE after it: EMPTY or READY, a free
choice (log entry 3). -/
def execFirmwareAliveTimeout (s : State) : Result := s.go fun h =>
  if h.pwr.core && h.upd.awaiting && h.upd.handFrc + 100000000 ≤ h.frc then
    let failed := h.g R.UPD_RUN_VER_VERSION
    let h := { h with upd := { h.upd with awaiting := false, pausing := false }, saf := { h.saf with ctrlPaused := true } }
    let h := (h.s R.UPD_RUN_VER_VERSION h.upd.prevVer).s R.UPD_STAT_FROM_ROM h.upd.prevRom
    let h := ((h.inc R.UPD_ROLLBACKS_COUNT).raise 0x5C 18).liveUpdate 2 0 failed h.upd.prevVer
    let r := h.fresh
    if r.1 % 2 = 0 then r.2.emptyStage else r.2.setUpd 2
  else h

end Sys2Proof.Machine
end

