-- ==== Sys2Proof/Machine/Lp.lean ====
section
/-!
DEFINITION. Machine/Lp.lean: the markers that bracket the host die's low-power state (R74, R158, R175, R412, R413).
-/
namespace Sys2Proof.Machine

/-- Payload of a MARKER record (R413). -/
def markerBytes (kind flags count frameNo nt frcOrDur : Nat) (vals : List Nat) : List Nat :=
  [kind, flags] ++ le 2 count ++ le 4 frameNo ++ le 10 nt ++ List.replicate 6 0 ++ le 8 (frcOrDur % 2 ^ 64) ++ vals.flatMap (le 8)

/-- A MARKER record in local source 0x0031 (R413). -/
def Hw.lpMarker (h : Hw) (payload : List Nat) : Hw := h.handOver [h.mkRec 0x39 5 0x0031 0 h.stampOwn payload]

/-- The low-power capture (R412): the frame number it carries, and whether it was skipped; a summary that waits takes it into its frame. -/
def Hw.lpCapture (h : Hw) : Nat × Bool × Hw :=
  let works := h.running 0x08 && h.running 0x09 && h.timed
  let before := h.g R.FRM_SKIP_FULL_COUNT
  let h := h.capture none
  let f := h.frameStream none 1
  let last := if f.frameNo = 0 then 0 else f.frameNo - 1
  if works && h.g R.FRM_SKIP_FULL_COUNT == before then (if f.caps.isEmpty then last else f.frameNo, false, h) else (last, true, h)

/-- HOST_LP_ACK rises (R74); tracker 0 stalls with reason LOW_POWER where STP_CFG LP_STALL asks for it (R158). -/
def Hw.lpAcknowledge (h : Hw) : Hw :=
  let h := { h with trc := { h.trc with lpAck := true } }
  if h.on R.STP_CFG_LP_STALL then h.stall 0 1 else h

/-- The rise of HOST_LP_REQ with the TRC page RUNNING (R412): the snapshot, the capture, the packet, the acknowledgement, the marker. -/
def Hw.powerDown (h : Hw) : Hw :=
  let l := h.latch
  let h := l.1
  let slots := (h.members (h.g R.TRC_CFG_LP_SET)).take 256
  let vals := slots.map fun n => (RegFile.find l.2.1 n).getD 0
  let nt := h.nt
  let c := h.lpCapture
  let m := markerBytes 0 (8 * b2n c.2.1) slots.length c.1 nt h.frc vals
  let h := { c.2.2 with trc := { c.2.2.trc with lpStore := some m, lpSent := true } }
  (h.trace 0x30 4 0 c.1).lpAcknowledge.lpMarker m

/-- The power-up markers (R412, R413): first the stored POWER_DOWN marker where it was never sent, a sync record, POWER_UP, the packet. -/
def Hw.powerUp (h : Hw) : Hw :=
  match h.trc.lpFall with
  | none => h
  | some (frc, nt) =>
    let h := match h.trc.lpStore with
      | some m => if h.trc.coreLost && !h.trc.lpSent then h.lpMarker m else h
      | none => h
    let h := h.syncStream (h.source 0x0031)
    let last := (h.frameStream none 1).frameNo - 1
    let skipped := (h.trc.lpStore.map fun m => nth m 1 / 8 % 2).getD 1
    let no := (h.trc.lpStore.map fun m => fld m 4 4).getD last
    let flags := b2n h.trc.lpMissing + 2 * b2n h.trc.lpStopped + 4 * b2n h.trc.bufLost + 8 * skipped
    let h := h.lpMarker (markerBytes 1 flags 0 no nt (frc - h.trc.lpRise) [])
    let h := h.trace 0x30 5 0 (frc - h.trc.lpRise)
    { h with trc := { h.trc with lpFall := none, lpStore := none, lpMissing := false, lpStopped := false, coreLost := false, bufLost := false,
                                 lpSent := false } }

/-- HOST_LP_REQ_RISE (R74, R175, R412): `stops` names the slots whose source lies in a part of the die that goes down; they keep their values and
stop counting until it is up again. -/
def execHostLpReqRise (stops : List Nat) (s : State) : Result := s.go fun h =>
  if h.prof ≠ .l ∨ !h.pwr.aon ∨ h.trc.lpReq then h else
  let h := { h with trc := { h.trc with lpReq := true, lpAck := false, lpRise := h.frc, lpRiseNt := h.nt, lpStore := none, lpSent := false,
                                        lpMissing := !h.pwr.core, lpFall := none, lpStopped := !stops.isEmpty, coreLost := !h.pwr.core,
                                        bufLost := !h.pwr.core } }
  if !h.pwr.core then h else
  let h := if h.running 0x38 then h.powerDown else h.lpAcknowledge
  let h := h.countBusy
  { h with cnt := { h.cnt with stopped := h.cnt.stopped || !stops.isEmpty, halted := stops } }

/-- HOST_LP_REQ_FALL (R412): while the TRC page is not RUNNING the markers wait. -/
def execHostLpReqFall (s : State) : Result := s.go fun h =>
  if !h.trc.lpReq then h else
  let h := h.countBusy
  let h := { h with cnt := { h.cnt with halted := [] } }
  let h := { h with trc := { h.trc with lpReq := false, lpAck := false, lpFall := some (h.frc, h.nt) } }
  if h.running 0x38 then h.powerUp else h

end Sys2Proof.Machine
end

