-- ==== Sys2Proof/Machine/Pages.lean ====
section
/-!
DEFINITION. Machine/Pages.lean: the states of the pages (R80–R98, R248, R249, R339, R531, R563): enable, disable, abort, their ends, faults, and the
registers of the BLK page.
-/
namespace Sys2Proof.Machine

/-! ### What starting, draining and aborting mean for each page -/

/-- The queues of page `p`'s engines (R100). -/
def Hw.queuesOf (h : Hw) (p : Nat) : List Nat := h.queueList.filter fun q => enginePage (h.qEngine q) == p

/-- The queues of a QUE page. -/
def Hw.ownQueues (h : Hw) (p : Nat) : List Nat := h.queueList.filter fun q => quePage q == p

/-- Q_STATE WAIT of the queues of a page's engines follows the page's state (R102). -/
def Hw.showWaits (h : Hw) (p : Nat) : Hw := h.each (h.queuesOf p) fun h q => h.setWait q

/-- The local sources whose records page `p` produces (R182, R183). -/
def pageLocal (p loc : Nat) : Bool :=
  match p with
  | 0x05 => loc == 0x1004
  | 0x10 => (0x0400 ≤ loc && loc < 0x0801) || (0x1400 ≤ loc && loc < 0x1800)
  | 0x24 => loc == 0x1001
  | 0x30 => loc == 0x1003 || loc == 0x0030
  | 0x38 => loc == 0x0031 || (0x0100 ≤ loc && loc < 0x0180)
  | 0x40 => loc == 0x0900
  | 0x44 => loc == 0x1002
  | _ => false

/-- The streams that page `p` produces begin anew (R183), after the records that they still hold. -/
def Hw.freshStreams (h : Hw) (p : Nat) : Hw :=
  h.each (h.flw.streams.filter fun s => s.source == h.source (localOf s.source) && pageLocal p (localOf s.source)) fun h s =>
    let h := h.releaseStream s.source true s.held.length
    let held := (h.stream s.source).held
    let h := { h with flw := { h.flw with streams := h.flw.streams.filter fun x => x.source != s.source } }
    if held.isEmpty then h else h.putStream { h.stream s.source with held := held }

/-- The FLW page stops: the running ledger period ends here, marked partial (R369, R374). -/
def Hw.flwStop (h : Hw) : Hw := if h.timed then h.closeEnded.closePeriod h.ns h.ns 1 else h

/-- The FLW page aborts: the records that it holds are dropped with ABORTED, which returns their credits (R89, R94). -/
def Hw.flwAbort (h : Hw) : Hw :=
  (h.admitWaiting.each h.admitWaiting.flw.held fun h x => (h.release x).dropHeld x 6 E.aborted).flwStop

/-- The ports of the CUL page are held in reset (R94): their sessions and links end. -/
def Hw.culStop (h : Hw) : Hw :=
  h.each h.culsIn fun h p => (((h.linkDown p).endSession p).onLink p fun k => { k with phy := false }).showLink p

/-- The FAB page leaves the fabric. An abort does this alone: its links stay up at keepalive level (R94). -/
def Hw.fabLeave (h : Hw) : Hw :=
  { h with fab := { h.fab with lsdb := [], routes := [], launch := none } }.setId (h.g R.FAB_ID_NODE) 0

/-- The FAB page is OFF after a drain: it has left the fabric, and its links are down for telemetry. -/
def Hw.fabOff (h : Hw) : Hw := (h.each h.fabsIn fun h p => h.linkDown p).fabLeave

/-- A node leaves the fabric (R570): its LSA is withdrawn. -/
def Hw.fabWithdraw (h : Hw) : Hw :=
  if h.g R.FAB_ID_STATE = 0 then h else
  let own := { h.ownLsa with seq := succ32 h.fab.lsaSeq }
  let h := h.flood 3 (own.bytes true) none
  { h with fab := { h.fab with lsaSeq := succ32 h.fab.lsaSeq } }

/-- The FAB page enters RUNNING: JOINING (R330). -/
def Hw.fabRun (h : Hw) : Hw :=
  let fab := { h.fab with lsdb := [], routes := [], launch := none, joinFrc := h.frc, idFullNoted := false,
                          outdone := false, lostId := 0 }
  (Hw.setId { h with fab := fab } (h.g R.FAB_ID_NODE) 0).agreeAll.each h.fabsIn fun h p => h.showLink p

/-- The VRD page aborts: open ballots end, their entries stand as OFFERED (R94). -/
def Hw.vrdAbort (h : Hw) : Hw :=
  h.each (h.vrd.entries.filter fun e => e.state == 2) fun h e => h.moveEntry { e with state := 0 }

/-- The TRC page aborts: the port idles at a packet boundary, the buffer keeps its content (R94, R407). -/
def Hw.trcAbort (h : Hw) : Hw := { h with trc := { h.trc with fifo := [], portCredit := 0, open_ := [] } }

/-- The DBG page aborts: the scan-out stops (R94); STOP_REQ follows R68. -/
def Hw.dbgAbort (h : Hw) : Hw :=
  Hw.s { h with trc := { h.trc with scnReq := false, hostScan := [], stopSecs := [] } } R.DBG_STAT_STATE 0

/-- Entry to STARTING. -/
def Hw.onStart (h : Hw) (p : Nat) : Hw := if p = 0x08 then h.cntStart else h

/-- Entry to RUNNING. -/
def Hw.onRunning (h : Hw) (p : Nat) : Hw :=
  let h := h.freshStreams p
  match p with
  | 0x04 => h.timRun
  | 0x05 => h.ptpRun
  | 0x06 => h.stpRun
  | 0x08 => h.cntRun
  | 0x09 => h.frmRun
  | 0x0A => h.prxRun
  | 0x10 => h.garStart
  | 0x28 => h.fabRun
  | 0x2C => (h.each h.culsIn fun h q => h.showLink q).agreeAll
  | 0x30 => if h.timed then h.startPeriod h.ns 1 else h
  | 0x34 => h.shpRun
  | 0x38 => h.syncPacket.powerUp
  | 0x40 => h.hltRun
  | 0x42 => h.optRun
  | 0x44 => h.showArbiter
  | 0x48 => h.cmpStart
  | 0x4C => h.evrRun
  | 0x50 => (if h.g R.SEC_STAT_BLOB = 1 then h else h.blobAsk).agreeAll
  | _ => h

/-- Entry to DRAINING (R87): the queues of the page's engines run up to their present tails. -/
def Hw.onDrain (h : Hw) (p : Nat) : Hw :=
  let h := h.each (h.queuesOf p) fun h q => h.putQueue { h.queue q with pageTo := h.g (R.Q_TAIL_TAIL.at q) }
  match p with
  | 0x02 | 0x03 => h.each (h.ownQueues p) fun h q => h.queueDisable q
  | 0x06 => h.stpOff
  | 0x09 => h.frmDrain
  | 0x10 => h.garDrain
  | 0x28 => h.fabWithdraw
  | 0x38 => h.each (h.trc.open_.map fun o => o.id) fun h i => h.closeTrace i
  | 0x40 => h.hltDrain
  | 0x42 => h.optStop
  | 0x4C => h.evrDrain
  | 0x50 => h.endSessions
  | _ => h

/-- The queue has no work left that page `p` accepted before its drain began. -/
def Hw.queueDone (h : Hw) (q : Nat) : Bool :=
  h.qState q == 0 || ((h.queue q).runs.isEmpty && h.g (R.Q_HEAD_HEAD.at q) == (h.queue q).pageTo)

/-- The accepted work of a draining page is complete (R87). -/
def Hw.drained (h : Hw) (p : Nat) : Bool :=
  (h.queuesOf p).all h.queueDone &&
  (match p with
   | 0x02 | 0x03 => (h.ownQueues p).all fun q => h.qState q == 0
   | 0x05 => h.ptp.ports.all fun x => x.queue.isEmpty
   | 0x0A => h.prx.ending.isEmpty && h.prx.proxies.all fun x => !x.busy && x.due.isNone
   | 0x10 => (List.range 16).all fun w => !h.on (R.WIN_STAT_OPEN.at w) && !h.on (R.WIN_STAT_CLOSING.at w)
   | 0x20 => h.agtIdle
   | 0x24 => h.red.rounds.all fun r => r.sent
   | 0x28 => h.fab.links.all fun k => isCulvert k.port || k.retained.isEmpty
   | 0x2C => h.fab.links.all fun k => !isCulvert k.port || k.retained.isEmpty
   | 0x30 => h.flw.held.isEmpty
   | 0x38 => h.trc.fifo.isEmpty && h.trc.line.isEmpty
   | 0x3A => h.g R.DBG_STAT_STATE == 0
   | 0x44 => h.vrd.entries.all fun e => e.state != 2
   | 0x48 => h.cmpDrained
   | 0x4C => h.evrDrained
   | 0x4D => h.mbxDrained
   | 0x58 => h.pwr.wakeQueue.isEmpty
   | 0x5C => h.updDrained
   | _ => true)

/-- Entry to ABORTING (R89, R94). -/
def Hw.onAbort (h : Hw) (p : Nat) : Hw :=
  let h := h.abortEngine p
  match p with
  | 0x01 => h.killTenants
  | 0x02 | 0x03 => h.each (h.ownQueues p) fun h q => h.queueAbort q
  | 0x04 => h.timOff
  | 0x05 => h.ptpAbort.ptpOff
  | 0x06 => h.stpAbort
  | 0x09 => h.frmAbort
  | 0x0A => h.prxStop
  | 0x10 => h.garAbort
  | 0x14 => { h with gar := { h.gar with opb := [] } }
  | 0x20 => h.agtAbort
  | 0x24 => h.redAbort
  | 0x28 => h.fabLeave
  | 0x2C => h.culStop
  | 0x30 => h.flwAbort
  | 0x34 => h.shpAbort
  | 0x35 => { h with pol := { h.pol with markers := [] } }
  | 0x38 => h.trcAbort
  | 0x3A => h.dbgAbort
  | 0x40 => h.hltAbort
  | 0x42 => h.optStop
  | 0x44 => h.vrdAbort
  | 0x48 => h.saveSlots
  | 0x4C => h.evrAbort
  | 0x4D => h.mbxClear
  | 0x50 => h.endSessions
  | 0x58 => h.wakeAbort
  | 0x5C => h.updAbort
  | _ => h

/-- A slot image is being written. -/
def Hw.savingSlots (h : Hw) : Bool := h.dma.any fun r => match r.purpose with | .slotSave _ => true | _ => false

/-- The abort's own work is complete. -/
def Hw.aborted (h : Hw) (p : Nat) : Bool :=
  match p with
  | 0x02 | 0x03 => (h.ownQueues p).all fun q => h.qState q == 0
  | 0x48 => !h.savingSlots
  | 0x4C => h.evr.nv.isEmpty
  | _ => true

/-- The function is off: at OFF, and where a drain goes over into STARTING. -/
def Hw.onOff (h : Hw) (p : Nat) : Hw :=
  match p with
  | 0x04 => h.timOff
  | 0x05 => h.ptpOff
  | 0x06 => h.stpOff
  | 0x0A => h.prxStop
  | 0x10 => h.garOff
  | 0x34 => h.dropTimers 0x34
  | 0x48 => h.cmpOff
  | 0x4C => h.evrOff
  | 0x50 => h.endSessions
  | _ => h

/-- A drain is complete: the RED page drops its rounds, the FAB, CUL and FLW pages leave service (an abort leaves theirs as `onAbort` says). -/
def Hw.onDrained (h : Hw) (p : Nat) : Hw :=
  match p with
  | 0x24 => h.redStop
  | 0x28 => h.fabOff
  | 0x2C => h.culStop
  | 0x30 => h.admitWaiting.flwStop
  | _ => h.onOff p

/-! ### Enable (R85, R97, R531, R563) -/

/-- Pages whose enable no stage of start-up gates (R531, R563). -/
def ungated (p : Nat) : Bool := p == 0x50 || p == 0x54 || p == 0x58 || p == 0x4C || p == 0

/-- An enable of page `p` that its own chapter refuses: the code. A page of the Garnet domain reads OFF while that is off (R37). -/
def Hw.enableRefused (h : Hw) (p : Nat) : Option Nat :=
  if !ungated p && (h.g R.SEC_STAT_BLOB != 1 || !h.on R.PWR_START_SELFTEST) then some E.badState
  else if garnetPage p && !h.pwr.gar then some E.badState
  else match p with
  | 0x28 => if h.g R.FLW_RESV_AVAIL < h.resvNeed (if h.off 0x2C then [] else h.culsIn) h.fabsIn then some E.bufferTooSmall else none
  | 0x2C => if h.g R.FLW_RESV_AVAIL < h.resvNeed h.culsIn (if h.off 0x28 then [] else h.fabsIn) then some E.bufferTooSmall else none
  | 0x40 => if h.wearOk then none else some E.badValue
  | 0x44 => if h.sec.wardens.isEmpty then some E.badState else none
  | 0x48 => if h.slotsClash then some E.badValue else none
  | 0x4C => h.evrCheck
  | _ => none

/-- The lowest bus with MODE 0 that a proxy leaf in service names (R97, R210). -/
def Hw.proxyBus (h : Hw) : Option Nat :=
  ((List.range 16).find? fun b => h.g (R.PRX_BUS_CFG_MODE.at b) == 0 &&
    (List.range 128).any fun q => h.on (R.PRX_DIE_EN.at q) && h.g (R.PRX_DIE_BUS.at q) == b).map (0x9000 + ·)

/-- What the configuration of page `p` needs and cannot claim at all: a bus that is off (R210), the mirror's channel (R495). -/
def Hw.cannotHave (h : Hw) (p : Nat) : Option Nat :=
  match p with
  | 0x0A => h.proxyBus
  | 0x4C => h.evrNeeds
  | _ => none

/-- An enable refused over a resource that no page holds for it (R97). -/
def Hw.needFail (h : Hw) (p r : Nat) : Hw :=
  let h := ((h.s (R.PAGE_CLAIM_FAIL_RES p) r).s (R.PAGE_CLAIM_FAIL_HOLDER p) 0xFF).s (R.PAGE_CLAIM_FAIL_HCTX p) 0xFF
  (h.setBits (R.PAGE_IRQ_STAT_CLAIM_FAIL p) 1).err p E.resourceHeld

/-- An enable in OFF: of the resources that the page cannot have, the first in the order of R96 is named (R97). -/
def Hw.pageClaim (h : Hw) (p : Nat) : Hw :=
  match h.enableRefused p with
  | some c => h.err p c
  | none =>
    match h.cannotHave p, h.claim p (h.needs p) (h.needTimers p) with
    | some r, .error q => if q < r then h.claimFail p q else h.needFail p r
    | some r, .ok _ => h.needFail p r
    | none, .error q => h.claimFail p q
    | none, .ok h => ((h.setState p 1).onStart p).showNeed

/-- A write of ENABLE = 1 (R85). -/
def Hw.pageEnable (h : Hw) (p : Nat) : Hw :=
  match h.state p with
  | 0 => h.pageClaim p
  | 3 => h.setState p 6
  | 4 | 5 => h.err p E.badState
  | _ => h

/-- A write of ENABLE = 0 (R85). -/
def Hw.pageDisable (h : Hw) (p : Nat) : Hw :=
  match h.state p with
  | 1 | 2 => ((h.setState p 3).onDrain p).showWaits p
  | 6 => h.setState p 3
  | _ => h

/-- The page's abort has overrun its bound twice: only the reset of its power domain leads out (R91; log entry 17). -/
def Hw.stuck (h : Hw) (p : Nat) : Bool := 2 ≤ (h.overruns.filter fun q => q == p).length

/-- A write of ABORT = 1 (R85, R89, R91, R93). -/
def Hw.pageAbort (h : Hw) (p : Nat) : Hw :=
  let st := h.state p
  if st = 0 ∨ st = 4 ∨ h.stuck p = true then h else
  let h := if st = 2 ∨ st = 3 ∨ st = 6 then h.loseConsumers p else h
  let h := (h.onAbort p).setState p 4
  Hw.showWaits { h with aborts := (p, h.frc) :: h.aborts.filter fun x => x.1 != p } p

/-- Pages that have no enable of their own (R85, R248, R554): ABORT does not act on them either. -/
def noEnable (p : Nat) : Bool := p == 0 || p == 0x54 || p == 0x11 || p == 0x12 || p == 0x13

/-- A write of PAGE_CTL (R85, R92): ABORT goes before ENABLE, IRQ_MEN always takes effect. -/
def Hw.ctlWrite (h : Hw) (p : Nat) (enable abort men : Bool) : Hw :=
  let h := h.s (R.PAGE_CTL_IRQ_MEN p) (b2n men)
  if noEnable p then h
  else if abort then h.pageAbort p
  else if enable then h.pageEnable p
  else h.pageDisable p

/-! ### The ends of starting, draining and aborting -/

/-- The pages of a Boldal L that produce records wait in STARTING until it is registered (R339). The TRC page does not: its REC sinks are
suspended meanwhile (R399). A PRX page waits until its buses are idle (R95). -/
def Hw.mayRun (h : Hw) (p : Nat) : Bool :=
  match h.prof with
  | .l => h.on R.CUL_LEAF_REGISTERED || !(p == 0x06 || p == 0x09 || p == 0x10 || p == 0x30 || p == 0x40 || p == 0x42)
  | _ => p != 0x0A || h.prx.ending.isEmpty

/-- Entry to OFF: claims are released (R97). -/
def Hw.pageOff (h : Hw) (p : Nat) : Hw :=
  let h := ((h.setState p 0).releaseClaims p).showNeed
  Hw.showWaits { h with aborts := h.aborts.filter fun x => x.1 != p, overruns := h.overruns.filter fun q => q != p } p

/-- A drain completes (R85, R88). The slots of the CMP page are saved first (R474). -/
def Hw.drainEnds (h : Hw) (p : Nat) : Hw :=
  if !h.drained p then h else
  let h := if p = 0x48 ∧ !h.cmp.slots.isEmpty then h.saveSlots else h
  if p = 0x48 ∧ h.savingSlots then h else
  let h := h.onDrained p
  if h.state p = 6 then ((h.setState p 1).onStart p).showWaits p else h.pageOff p

/-! ### Faults and memory errors (R90, R185, R192, R364) -/

/-- Part of the reserved buffer is retired (R364). -/
def Hw.loseReserve (h : Hw) (kib : Nat) : Hw :=
  let h := h.s R.FLW_RESV_AVAIL (h.g R.FLW_RESV_AVAIL - kib)
  if h.g R.FLW_RESV_AVAIL < h.g R.FLW_RESV_NEED ∧ !h.on R.FLW_STAT_RESV_SHORT then
    ((h.s R.FLW_STAT_RESV_SHORT 1).raise 0x30 20).breach 2 0x03 0
  else h

/-- The stored copy of a record has an uncorrectable error: the record is corrupt (R185, R192). -/
def Hw.corruptHeld (h : Hw) (source seq : Nat) : Hw :=
  match h.flw.held.find? fun x => x.r.source == source && x.r.seq == seq with
  | some x => (h.release x).dropHeld x 3 E.eccUncorr
  | none => h

/-! ### Meanings -/

/-- A host write of PAGE_CTL. -/
def Hw.ctlAccess (h : Hw) (a : Acc) (p : Nat) (enable abort men : Bool) : Hw :=
  h.access a p 0x008 false fun h => h.ctlWrite p enable abort men

/-- PAGE_ENABLE (R85): PAGE_CTL with ENABLE = 1; `men` is the IRQ_MEN bit of the write. -/
def execPageEnable (a : Acc) (p : Nat) (men : Bool) (s : State) : Result := s.go fun h => h.ctlAccess a p true false men

/-- PAGE_DISABLE (R85). -/
def execPageDisable (a : Acc) (p : Nat) (men : Bool) (s : State) : Result := s.go fun h => h.ctlAccess a p false false men

/-- PAGE_ABORT (R89, R92). -/
def execPageAbort (a : Acc) (p : Nat) (men : Bool) (s : State) : Result := s.go fun h => h.ctlAccess a p false true men

/-- PAGE_START_COMPLETE (R85). -/
def execPageStartComplete (p : Nat) (s : State) : Result := s.go fun h =>
  if p ≠ 0x54 ∧ h.present p ∧ h.state p = 1 ∧ !noEnable p ∧ h.mayRun p then ((h.setState p 2).onRunning p).showWaits p else h

/-- PAGE_DRAIN_COMPLETE (R85, R87). -/
def execPageDrainComplete (p : Nat) (s : State) : Result := s.go fun h =>
  if h.present p ∧ !noEnable p ∧ (h.state p = 3 ∨ h.state p = 6) then h.drainEnds p else h

/-- PAGE_ABORT_COMPLETE (R85, R89). -/
def execPageAbortComplete (p : Nat) (s : State) : Result := s.go fun h =>
  if h.present p ∧ !noEnable p ∧ h.state p = 4 ∧ h.aborted p then ((h.onOff p).pageOff p).setBits (R.PAGE_IRQ_STAT_ABORT_DONE p) 1 else h

/-- ABORT_BOUND_EXPIRY (R91). -/
def execAbortBoundExpiry (p : Nat) (s : State) : Result := s.go fun h =>
  match h.aborts.find? fun x => x.1 == p with
  | none => h
  | some x =>
    if h.state p = 4 ∧ x.2 + h.g (R.PAGE_ABORT_BOUND_BOUND p) * 1000 ≤ h.frc then
      Hw.abortOverrun { h with aborts := h.aborts.filter fun x => x.1 != p, overruns := p :: h.overruns } false p ((h.frc - x.2) / 1000 % 2 ^ 32)
    else h

/-- A fault in a page's own function (R90). DIAG_MISMATCH of the VRD page is the failure of VRD_DUP, with its DIAG entry (R535, R544), whose INDEX
and DETAIL are free values. -/
def Hw.ownFault (h : Hw) (p code : Nat) : Hw :=
  if p = 0x44 ∧ code = E.diagMismatch then h.fresh.2.copiesDiffer false (h.fresh.1 % 2 ^ 16) (h.fresh.1 / 2 ^ 16 % 2 ^ 32)
  else (h.fault p code).secLeft p

/-- PAGE_FUNCTION_FAULT (R90): the fault with its code; the codes that R111 reserves name no fault. -/
def execPageFunctionFault (p code : Nat) (s : State) : Result := s.go fun h =>
  let st := h.state p
  if h.present p ∧ !noEnable p ∧ E.defined code ∧ (st = 1 ∨ st = 2 ∨ st = 3 ∨ st = 6) then
    (h.ownFault p code).showWaits p
  else h

/-- MEMORY_ECC_UNCORRECTABLE (R90, R185, R192, R364): found at a read. `what` is 0 for a memory of the page's function, 1 for a stored record
(stream and SEQ in `x`, `y`), 2 for part of the reserved buffer (`x` KiB), 3 for the header of a stored record of class `x`. -/
def execMemoryEccUncorrectable (p what x y : Nat) (s : State) : Result := s.go fun h =>
  if !h.pwr.core then h else
  match what with
  | 0 => if h.present p ∧ !noEnable p then ((h.fault p E.eccUncorr).secLeft p).showWaits p else h
  | 1 => h.corruptHeld x y
  | 2 => h.loseReserve x
  | _ => match h.flw.held.find? fun r => r.r.cls == x with
    | some r => (h.release r).dropStored r
    | none => h

/-- PAGE_OWNER_WRITE (R81, R249): the GAR pages show one owner. -/
def Hw.ownerWrite (h : Hw) (p v : Nat) : Hw :=
  let q := if p = 0x11 ∨ p = 0x12 ∨ p = 0x13 then 0x10 else p
  if h.contexts ≤ v ∧ v ≠ 0xFF then h.err q E.badValue
  else if !h.off q then h.err q E.badState
  else
    let h := if q = 0x10 then h.each [0x10, 0x11, 0x12, 0x13] fun h i => h.s (R.PAGE_OWNER_OWNER i) v else h.s (R.PAGE_OWNER_OWNER q) v
    h.accepted q

/-- PAGE_OWNER_WRITE (R81). -/
def execPageOwnerWrite (a : Acc) (p v : Nat) (s : State) : Result := s.go fun h => h.operAccess a p 0x01C fun h => h.ownerWrite p (v % 256)

/-- A W1C write of PAGE_IRQ_STAT (R80, R84); the completion cause of a QUE page stands while QUE_IRQ_PEND has a bit set (R110). -/
def Hw.irqClear (h : Hw) (p bits : Nat) : Hw :=
  let keep := if (p = 2 ∨ p = 3) ∧ h.g (R.QUE_IRQ_PEND_PEND.at (p - 2)) ≠ 0 then 1 else 0
  let one (h : Hw) (f : Field) (b : Nat) : Hw := if bit bits b then h.clrBits f 1 else h
  let h := one (one (one (one h (R.PAGE_IRQ_STAT_STATE_CHG p) 0) (R.PAGE_IRQ_STAT_ERROR p) 1) (R.PAGE_IRQ_STAT_ABORT_DONE p) 2)
    (R.PAGE_IRQ_STAT_CLAIM_FAIL p) 3
  let f := bits / 65536 % 65536
  h.clrBits (R.PAGE_IRQ_STAT_FUNC_IRQ p) (f - (f &&& keep))

/-- PAGE_IRQ_STAT_CLEAR (R84). -/
def execPageIrqStatClear (a : Acc) (p bits : Nat) (s : State) : Result := s.go fun h => h.access a p 0x014 false fun h => h.irqClear p bits

/-- CLAIM_QUERY (R98). -/
def Hw.claimQuery (h : Hw) (r : Nat) : Hw :=
  let who := if h.absent r then 0xFF else (h.holder r).getD 0xFE
  let h := (h.s R.BLK_CLAIM_RESULT_RES r).s R.BLK_CLAIM_RESULT_HOLDER who
  h.s R.BLK_CLAIM_RESULT_HCTX (if h.present who then h.g (R.PAGE_OWNER_OWNER who) else 0xFF)

/-- CLAIM_QUERY (R98). -/
def execClaimQuery (a : Acc) (r : Nat) (s : State) : Result := s.go fun h => h.operWrite a 0x00 0x060 fun h => .ok (h.claimQuery (r % 2 ^ 16))

/-- Pages whose functions do not run on CCLK (R31, R34). -/
def offCclk : List Nat := [0x00, 0x04, 0x05, 0x54, 0x58]

/-- BLK_CCLK (R34, R575): the frequency changes while the core domain is in reset, or every page that runs on CCLK is OFF; a write that
leaves it is accepted and changes nothing (R83). -/
def Hw.cclkWrite (h : Hw) (mhz : Nat) : Tried :=
  if mhz < 200 ∨ 1500 < mhz then .error E.badValue
  else if h.g R.BLK_CCLK_MHZ == mhz then .ok h
  else if h.pwr.core && !h.allOff offCclk then .error E.badState
  else .ok ((h.s R.BLK_CCLK_MHZ mhz).showWidth.liveUpdate 6 0 mhz (h.g R.BLK_CCLK_MHZ))

/-- BLK_CCLK_WRITE (R34). -/
def execBlkCclkWrite (a : Acc) (mhz : Nat) (s : State) : Result := s.go fun h => h.operWrite a 0x00 0x06C fun h => h.cclkWrite (mhz % 2 ^ 16)

end Sys2Proof.Machine
end

