-- ==== Sys2Proof/Machine/Dma.lean ====
section
/-!
DEFINITION. Machine/Dma.lean: the responses of the DMA initiator port (R45, R46).
-/
namespace Sys2Proof.Machine

/-- The transfer of an identifier with bursts out at the port. -/
def Hw.dmaReq (h : Hw) (id : Nat) : Option DmaReq := h.dma.find? fun r => r.id == id && r.back < r.sent

/-- Bursts that wait for room at the port go out, as many as it takes (R45). -/
def Hw.dmaMore (h : Hw) : Hw := h.each (h.dma.filter fun r => !r.whole) fun h r => h.dmaIssue r.write

/-- A transfer has its last response. -/
def Hw.dmaEnd (h : Hw) (id : Nat) : Hw := Hw.dmaMore { h with dma := h.dma.filter fun r => r.id != id }

/-- The bursts of a transfer that are out have their responses, and others of it are still to go (log entry 103). -/
def Hw.dmaBack (h : Hw) (id : Nat) : Hw :=
  Hw.dmaMore { h with dma := h.dma.map fun (r : DmaReq) => if r.id = id then { r with back := r.sent } else r }

/-- The bytes of the bursts that have gone out. -/
def DmaReq.reached (r : DmaReq) : Nat := total ((r.bursts.take r.sent).map fun b => b.2)

/-- The descriptor of entry `i` that queue `q` has started. -/
def Hw.startedAt (h : Hw) (q i : Nat) : Option DescWords :=
  match h.started q with
  | some r => if r.index = i then r.descs[r.next]? else none
  | none => none

/-! ### Reads -/

/-- The bytes that a started descriptor asked for, by its engine and opcode. -/
def Hw.payloadRead (h : Hw) (q : Nat) (d : DescWords) (bs : List Nat) : Hw :=
  match h.qEngine q, dw d 0 0 8 with
  | 1, 0x02 => h.loadArrived q d bs
  | 2, 0x02 => h.loadArrived q d bs
  | 2, 0x10 => h.wloadArrived q d bs
  | 3, 0x30 => h.mloadArrived q d bs
  | 3, 0x31 => h.eloadArrived q d bs
  | 3, 0x32 => h.evalArrived q d bs
  | 4, 0x51 => h.deflateArrived q d bs
  | 4, 0x54 => h.restoreArrived q d bs
  | 4, 0x55 => h.inflateArrived q d bs
  | 5, 0x60 => h.packArrived q d bs
  | 6, 0x20 => h.hashArrived q d bs
  | 7, _ => h.copyArrived q d bs
  | _, _ => h

/-- The data of a read goes to the function that asked for it; that of an engine whose page is FAULTED takes no more (R90). -/
def Hw.readDone (h : Hw) (r : DmaReq) (bs : List Nat) : Hw :=
  match r.purpose with
  | .entry q i => h.entryArrived q i bs
  | .list q i => h.listArrived q i bs
  | .payload q i => match h.startedAt q i with
    | some d => if h.stopped (h.qEngine q) then h else h.payloadRead q d bs
    | none => h
  | .check n => h.checkArrived n bs
  | .group g => h.groupArrived g bs
  | .order slot _ => h.orderArrived slot bs
  | .segment off => h.segmentArrived off bs
  | .evrHost => h.hostPayload bs
  | _ => h

/-! ### Writes -/

/-- A write of a started descriptor is done. The compressor and the record packer end when the last of their writes is, with the
code they found on the way. -/
def Hw.payloadWritten (h : Hw) (q i : Nat) : Hw :=
  if h.stopped (h.qEngine q) then h else
  if h.qEngine q = 3 then h.resultWritten q i else
  match h.started q with
  | none => h
  | some r =>
    if r.index ≠ i || h.descBusy q then h
    else if r.code ≠ 0 then h.descFail q r.code else h.descDone q

/-- A HASH that writes its digest and emits it too (DST 2) completes here: its record is stamped now (R274). -/
def Hw.digestWritten (h : Hw) (q i : Nat) (bs : List Nat) : Hw :=
  match h.startedAt q i with
  | some d =>
    if h.qEngine q = 6 && dw d 0 16 2 = 2 && !h.stopped 6 then h.emitDigest 1 0 (dw d 2 48 16) 0xFF 0 (dw d 2 0 40) bs h.stampOwn else h
  | none => h

/-- What a write response completes (R46). -/
def Hw.writeDone (h : Hw) (r : DmaReq) : Hw :=
  match r.purpose with
  | .payload q i => h.payloadWritten q i
  | .result q i => (h.digestWritten q i r.bytes).payloadWritten q i
  | .ring c x => h.ringWritten c x true
  | .chunk c => h.chunkWritten c r.addr r.len
  | .verdictLog x => (h.produce x).archiveVerdict (h.logEntry x)
  | _ => h

/-! ### Errors (R46, R90) -/

/-- The entry that asked fails with DMA_FAULT: nothing more of it runs, and its engine's page enters FAULTED. -/
def Hw.entryFault (h : Hw) (q i : Nat) : Hw :=
  let h := h.onRun q i fun r => { r with ended := true, started := false, have_ := true, listed := true, code := E.dmaFault }
  h.fault (enginePage (h.qEngine q)) E.dmaFault

/-- A completion that could not be written: the code stands in the queue (R112). -/
def Hw.completionFault (h : Hw) (q : Nat) : Hw :=
  ((h.s (R.Q_STATE_ERR.at q) E.dmaFault).inc (R.Q_ERRCNT_COUNT.at q)).fault (enginePage (h.qEngine q)) E.dmaFault

/-- An error response fails the function that made the request. -/
def Hw.dmaFailed (h : Hw) (r : DmaReq) : Hw :=
  match r.purpose with
  | .entry q i => h.entryFault q i
  | .list q i => h.entryFault q i
  | .payload q i => h.entryFault q i
  | .result q i => h.entryFault q i
  | .completion q => h.completionFault q
  | .ring c x => (h.ringWritten c x false).fault 0x30 E.dmaFault
  | .evrHost => h.hostPayloadFailed
  | .check n => h.checkRefused n E.dmaFault
  | .group g => h.groupRefused g E.dmaFault
  | .order _ _ => h.fault 0x44 E.dmaFault
  | .segment _ => h.fault 0x5C E.dmaFault
  | .chunk _ => h.fault 0x48 E.dmaFault
  | .slotSave _ => h.fault 0x48 E.dmaFault
  | .checkLog => (h.s R.VRD_STAT_LOG_FAULT 1).raise 0x44 22
  | .verdictLog x => ((h.s R.VRD_STAT_LOG_FAULT 1).raise 0x44 22).produce (finishVerdict x true)
  | .longhaul _ => h.fault 0x28 E.dmaFault
  | .dump => h.fault 0x3A E.dmaFault
  | .hang _ => h.fault 0x3A E.dmaFault
  | .filler p => h.fault p E.dmaFault

/-! ### Meanings -/

/-- DMA_WRITE_RESPONSE (R45, R46): the bytes of the bursts that were out stand in memory; the last ones complete what the transfer completes. -/
def execDmaWriteResponse (id : Nat) (s : State) : Result :=
  match s.hw.dmaReq id with
  | some r =>
    if !r.write then .next s
    else .next { s.on fun h => if r.whole then (h.dmaEnd id).writeDone r else h.dmaBack id with
                 mem := Memory.writeBytes s.mem r.addr (r.bytes.take r.reached) }
  | none => .next s

/-- DMA_ERROR_RESPONSE (R46). -/
def execDmaErrorResponse (id : Nat) (s : State) : Result :=
  match s.hw.dmaReq id with
  | some r => s.go fun h => (h.dmaEnd id).dmaFailed r
  | none => .next s

/-- DMA_READ_COMPLETE (R45). -/
def execDmaReadComplete (id : Nat) (s : State) : Result :=
  match s.hw.dmaReq id with
  | some r =>
    if r.write then .next s
    else s.go fun h => if r.whole then (h.dmaEnd id).readDone r (Memory.readBytes s.mem r.addr r.len) else h.dmaBack id
  | none => .next s

end Sys2Proof.Machine
end

