-- ==== Sys2Proof/Machine/Rot.lean ====
section
/-!
DEFINITION. Machine/Rot.lean: the answers of the root-of-trust service port and its time limit (R72).
-/
namespace Sys2Proof.Machine

/-- The request has its answer, or has none any more. -/
def Hw.rotEnd (h : Hw) (id : Nat) : Hw := { h with sec := { h.sec with rot := h.sec.rot.filter fun r => r.id != id } }

/-- The device identity certificate: IDENTITY follows from it (R329). -/
def Hw.certArrived (h : Hw) (cert : List Nat) : Hw :=
  let i := identityOf cert
  Hw.s64 { h with sec := { h.sec with cert := cert }, fab := { h.fab with ident := i } } R.FAB_IDENTITY_LO_ID R.FAB_IDENTITY_HI_ID i

/-- What a request that is not answered in 50 ms comes to (R72, R519, R521; log entry 71). -/
def Hw.rotLost (h : Hw) (w : RotFor) : Hw :=
  match w with
  | .blob => h.err 0x50 E.rotTimeout
  | .blobSig _ => h.err 0x50 E.rotTimeout
  | .certificate => (h.err 0x50 E.rotTimeout).rotAsk 1 [] .certificate
  | .entropy => Hw.err { h with sec := { h.sec with reseedLost := true } } 0x50 E.rotTimeout
  | .peerCert p _ => h.agreeFail p E.rotTimeout
  | .sign p => h.agreeFail p E.rotTimeout
  | .finish p => h.agreeFail p E.rotTimeout
  | .voteSign _ => h.err 0x44 E.rotTimeout
  | .voteVerify _ => h.err 0x44 E.rotTimeout
  | .orderVerify slot _ => (h.err 0x44 E.rotTimeout).orderAnswer slot false
  | .segmentVerify => h.stageTimeout

/-- An answer of the root of trust: `ok` is the outcome of a check, and whether the service delivered. A delivery that is answered with nothing
(blob, certificate, entropy, vote signature) is taken like one not answered, with ROT_TIMEOUT (DESIGN CHOICE, log entry 157). -/
def Hw.rotAnswer (h : Hw) (w : RotFor) (ok : Bool) (bytes : List Nat) : Hw :=
  match w with
  | .blob => if ok then h.blobArrived bytes else h.rotLost .blob
  | .blobSig b => h.blobAnswer b ok
  | .certificate => if ok then h.certArrived bytes else h.rotLost .certificate
  | .entropy => if ok then h.entropyAnswer else h.rotLost .entropy
  | .peerCert p a => h.peerCertAnswer p a ok
  | .sign p => if ok then h.signAnswer p bytes else h.agreeFail p E.authFail
  | .finish p => h.finishAnswer p ok
  | .voteSign r => if ok then h.voteSigned r bytes else h.rotLost (.voteSign r)
  | .voteVerify r => h.voteAnswer r ok
  | .orderVerify slot _ => h.orderAnswer slot ok
  | .segmentVerify => h.stageAnswer ok

/-- ROT_RESPONSE (R72). -/
def execRotResponse (id : Nat) (ok : Bool) (bytes : List Nat) (s : State) : Result := s.go fun h =>
  match h.sec.rot.find? fun r => r.id == id with
  | some r => (h.rotEnd id).rotAnswer r.what ok bytes
  | none => h

/-- ROT_TIMEOUT_EXPIRY (R72): 50 ms after the request. -/
def execRotTimeoutExpiry (id : Nat) (s : State) : Result := s.go fun h =>
  match h.sec.rot.find? fun r => r.id == id with
  | some r => if r.since + 50000000 ≤ h.frc then (h.rotEnd id).rotLost r.what else h
  | none => h

end Sys2Proof.Machine
end

