-- ==== Sys2Proof/Machine/Boot.lean ====
section
/-!
DEFINITION. Machine/Boot.lean: stages 3 to 6 of the start-up sequence and its end (R561–R564).
-/
namespace Sys2Proof.Machine

/-- Stage 3 may complete: the core domain is out of reset and the controller has not run yet (R561). -/
def Hw.bootDue (h : Hw) : Bool := h.pwr.core && h.on R.PWR_START_CORE && !h.on R.PWR_START_BOOT && !h.on R.SAF_STAT_CTRL_HELD

/-- Stage 4 with the EVR enable refused: the store counts as blank, the counts start from zero (R561, R498). -/
def Hw.logBlank (h : Hw) : Hw :=
  let h := (h.s R.EVR_PCYCLE_COUNT 0).inc R.EVR_PCYCLE_COUNT
  ((h.event 0x0001 0 [1]).s R.EVR_STAT_NV_BLANK 1).s R.PWR_START_LOG 1

/-- What the block asks the root of trust for at start: its certificate and entropy (R329, R519); the SEC page asks
for the blob when it runs (R528). -/
def Hw.bootAsks (h : Hw) : Hw := (h.rotAsk 1 [] .certificate).rotAsk 4 [] .entropy

/-- The boot firmware enables EVR, SEC and PWR (R561). -/
def Hw.boot (h : Hw) : Hw :=
  let h := ((h.s R.PWR_START_BOOT 1).pageEnable 0x4C)
  let h := if h.off 0x4C && !h.on R.PWR_START_LOG then h.logBlank else h
  ((h.pageEnable 0x50).pageEnable 0x58).bootAsks

/-- BOOT_COMPLETE (R561): `crcOk` is the outcome of the ROM image's CRC-32C; a bad image leaves the controller held (R538). -/
def execBootComplete (crcOk : Bool) (s : State) : Result := s.go fun h =>
  if !h.bootDue then h else if crcOk then h.boot else h.s R.SAF_STAT_CTRL_HELD 1

/-! ### The self-test (R562) -/

/-- The tests begin after stage 5 (R561). -/
def Hw.selfTestDue (h : Hw) : Bool :=
  h.pwr.core && h.on R.PWR_START_BLOB && !h.on R.PWR_START_SELFTEST && !h.on R.SAF_STAT_CTRL_HELD

/-- A DIAG entry with a free DETAIL (R536). -/
def Hw.dangerousFree (h : Hw) (diag cls index : Nat) : Hw :=
  let r := h.fresh
  r.2.dangerous false diag cls index (r.1 % 2 ^ 32)

/-- A page whose memory fails the march test enters FAULTED, though it is OFF still (R562). A page of the Garnet domain is not tested while that
is off, and reads OFF (R37). -/
def Hw.marchFails (h : Hw) (p : Nat) : Hw :=
  if noEnable p || (garnetPage p && !h.pwr.gar) then h
  else if h.off p then ((h.err p E.eccUncorr).setState p 5).event 0x0040 2 ([p, 0] ++ le 2 E.eccUncorr)
  else (h.fault p E.eccUncorr).secLeft p

/-- The failures of the self-test but for lockstep, each with its DIAG entry and its reaction. -/
def Hw.selfTestFails (h : Hw) (t : SelfTest) : Hw :=
  let h := h.each (t.memories.filter fun m => h.present m.1) fun h m => (h.dangerousFree 2 (1 + (m.2 + 3) % 4) m.1).marchFails m.1
  let h := if t.reserve = 0 then h else (h.dangerousFree 2 4 0x30).loseReserve t.reserve
  let h := if h.pwr.gar then h.each (t.macros.filter fun m => m < h.physMacros && !h.retired m) fun h m => h.katFailed false m else h
  let h := h.each (t.lanes.filter fun l => l < h.laneCount && !h.agt.retired.contains l) fun h l => h.laneFails false l 0
  let h := h.each (t.hazard.filter fun x => x.1 == 12 || x.1 == 14) fun h x => h.hazardDiag false x.1 x.2 0
  let h := h.each (t.clocks.filter fun d => d == 6 || d == 7) fun h d => h.clockFails false d 0
  match h.prof, t.wake with
  | .t, some seg => h.wakeMonFails false (seg % 8) 0
  | _, _ => h

/-- A lockstep failure halts start-up at stage 6. -/
def Hw.selfTestHalts (h : Hw) : Hw := (h.dangerousFree 1 3 0).s R.SAF_STAT_CTRL_HELD 1

/-- The self-test is complete. -/
def Hw.selfTestDone (h : Hw) (t : SelfTest) : Hw :=
  let h := h.selfTestFails t
  if !t.lockstepOk then h.selfTestHalts
  else Hw.safState (Hw.s { h with saf := { h.saf with selftest := true } } R.PWR_START_SELFTEST 1)

/-- SELFTEST_COMPLETE (R562). -/
def execSelftestComplete (t : SelfTest) (s : State) : Result := s.go fun h => if h.selfTestDue then h.selfTestDone t else h

/-- START_UP_DONE (R564). A reserved buffer that is whole again pairs its condition (R364). -/
def execStartUpDone (s : State) : Result := s.go fun h =>
  let h := h.startCheck
  if h.on R.PWR_START_DONE && h.g R.FLW_RESV_NEED ≤ h.g R.FLW_RESV_AVAIL then h.restore 2 0x03 else h

end Sys2Proof.Machine
end

