-- ==== Sys2Proof/Machine/Host.lean ====
section
/-!
DEFINITION. Machine/Host.lean: host accesses by address (R9–R11, R41–R43, R77–R84, R508–R511, R578): the writes of registers that have no
command of their own, and the reads that change state.
-/
namespace Sys2Proof.Machine

/-! ### What a tenant reaches (R510) -/

/-- The queue whose registers lie at an offset of a QUE page, and the offset in its block (R101). -/
def queueAt (p off : Nat) : Nat × Nat := (32 * (p - 2) + (off - 0x400) / 0x60, (off - 0x400) % 0x60)

/-- The parts of the window that tenant context `c` may read beyond the pages that it owns. -/
def Hw.tenantReads (h : Hw) (a : Acc) (p off : Nat) : Bool :=
  off < 8 ||
  (match p with
   | 0x00 => (0x40 ≤ off && off < 0x60) || off == 0x68 || off == 0x6C || off == 0x70
   | 0x01 => 0x100 ≤ off && off < 0x900 && (off - 0x100) / 0x20 == a.ctx && (off - 0x100) % 0x20 < 0x10
   | 0x02 | 0x03 => off == 0x40 || off == 0x44 || (0x400 ≤ off && h.ownQueue a (queueAt p off).1)
   | 0x04 => off == 0x48 || off == 0x50 || off == 0x54 || off == 0x58 || off == 0x60 || off == 0x64
   | 0x12 => 0x40 ≤ off && off < 0x74
   | 0x3A => 0x100 ≤ off && off < 0x500 && (off - 0x100) / 0x10 == a.ctx
   | 0x4D => (0x100 ≤ off && off < 0x900 && h.ownsMbx a ((off - 0x100) / 0x80)) || (0x80 ≤ off && off < 0x90 && h.ownBells a ((off - 0x80) / 4 % 2) != 0)
   | _ => false)

/-- The parts that it may write. -/
def Hw.tenantWrites (h : Hw) (a : Acc) (p off v : Nat) : Bool :=
  match p with
  | 0x01 => off == 0x44 && bits v 8 6 == a.ctx
  | 0x02 | 0x03 => off == 0x44 || (0x400 ≤ off && h.ownQueue a (queueAt p off).1 && [0x0C, 0x18, 0x28, 0x30].contains (queueAt p off).2)
  | 0x3A => 0x100 ≤ off && off < 0x500 && (off - 0x100) / 0x10 == a.ctx
  | 0x4D => 0x100 ≤ off && off < 0x900 && h.ownsMbx a ((off - 0x100) / 0x80)
  | _ => false

/-- Registers that the operator alone may write on a page that a tenant may own (R249). -/
def operOnly (p off : Nat) : Bool := p == 0x10 && off == 0x50

/-! ### A write of a register's fields (R83, R578) -/

/-- CNT_SRC and CNT_SETS are read only on a Boldal T (R211). -/
def Hw.readOnly (h : Hw) (p off : Nat) : Bool := p == 0x08 && (off == 0x44 || off == 0x48) && h.prof == .t

/-- The word is a function register of this profile: every other offset is reserved space (R10). -/
def Hw.isReg (h : Hw) (p off : Nat) : Bool :=
  regTable.any fun r => r.inProf h.prof && (match r.hit p off with | some i => h.hasElem p off i | none => false)

/-- The fields that a write of a 32-bit word covers: the row, the field of its element, the value. -/
def Hw.covers (h : Hw) (p off v : Nat) : List (Row × Field × Nat) :=
  if h.readOnly p off then [] else
  regTable.filterMap fun r =>
    if r.acc = .rw ∧ r.inProf h.prof then
      match r.hit p off with
      | some i => if h.hasElem p off i then some (r, r.f.at (h.elem r p i), bits v r.f.lo r.f.width) else none
      | none => none
    else none

/-- The condition under which a field may change (R83). -/
def Hw.mayChange (h : Hw) (p : Nat) (g : Guard) (f : Field) : Bool :=
  match g with
  | .free => true
  | .pageOff => h.off p
  | .queueOff => h.qState f.idx == 0
  | .chkIdle => !h.on (R.CHK_CTL_EN.at f.idx)
  | .redIdle => !h.on (R.RED_CTL_EN.at f.idx) && f.idx < h.checkGroup 0
  | .portOut => !h.on (R.CUL_PORT_CTL_INSVC.at f.idx)
  | .loopOff => !h.on (R.HG_CFG_EN.at f.idx)
  | .slotOff => !h.on (R.AGT_MS_CTL_EN.at f.idx)
  | .bindOff => !h.bindOn f.idx

/-- The node words of the tree engine (R287). -/
def Hw.nodeWords (h : Hw) : Nat := h.prof.sel 16384 262144 1048576

/-- The regions of node memory of every slot: slot, region, base, size (R291). -/
def Hw.regions (h : Hw) : List (Nat × Nat × Nat × Nat) :=
  (List.range h.slotCount).flatMap fun s =>
    [(s, 0, h.g (R.AGT_MS_R0_BASE_BASE.at s), h.g (R.AGT_MS_R0_SIZE_SIZE.at s)),
     (s, 1, h.g (R.AGT_MS_R1_BASE_BASE.at s), h.g (R.AGT_MS_R1_SIZE_SIZE.at s))]

/-- No region reaches beyond the node memory, and no two overlap. -/
def Hw.regionsOk (h : Hw) : Bool :=
  let rs := h.regions.filter fun r => r.2.2.2 != 0
  rs.all fun r => r.2.2.1 + r.2.2.2 ≤ h.nodeWords && rs.all fun q =>
    (q.1 == r.1 && q.2.1 == r.2.1) || q.2.2.1 + q.2.2.2 ≤ r.2.2.1 || r.2.2.1 + r.2.2.2 ≤ q.2.2.1

/-- CNT_SRC: INDEX and MODE within what R171 lists for the CLASS. -/
def srcOk (cls index mode : Nat) : Bool :=
  match cls with
  | 0 => index == 0 && mode == 0
  | 1 => index < 256 && mode < 4
  | 2 => index < 8 && mode < 4
  | 3 => index < 256 && mode < 5
  | 4 => index < 64 && mode == 0
  | 5 => (index < 4 || (0x10 ≤ index && index ≤ 0x1F)) && mode == 0
  | 6 => (index < 8 || (0x10 ≤ index && index < 0x18) || index == 0x20 || index == 0x21 || index == 0x30 || index == 0x31 || index == 0x40 ||
      index == 0x41) && mode == 0
  | 7 => index == 0 && mode == 0
  | _ => false

/-- The slots of partial set `k`. -/
def Hw.setSize (h : Hw) (k : Nat) : Nat := (h.members k).length

/-- The largest rate of an egress port in Mb/s (R383). -/
def Hw.rateLimit (h : Hw) (p : Nat) : Nat :=
  if isCulvert p then h.prof.sel 8000 64000 64000 else if h.longhaul p then 32000 else 400000

/-- Signed four-bit logarithms of PTP_CFG within their ranges (R144). -/
def logOk (v lo hi : Nat) : Bool := let x := signed 4 v; -(lo : Int) ≤ x && x ≤ (hi : Int)

/-- The bindings that are enabled and name one account agree (R236). -/
def Hw.bindsAgree (h : Hw) (b : Nat) : Bool :=
  let key (b : Nat) : List Nat :=
    [h.g (R.BIND_PARAM_K_LOG.at b), h.g (R.BIND_PARAM_E_REF.at b), h.g (R.BIND_SEED_LO_SEED.at b), h.g (R.BIND_SEED_HI_SEED.at b)]
  (List.range h.bindings).all fun x => x == b || !h.bindOn x || h.g (R.BIND_CTL_ACCOUNT.at x) != h.g (R.BIND_CTL_ACCOUNT.at b) || key x == key b

/-- Codes of a write that the ranges of single fields do not give: `n` is the block with the write made. DESIGN CHOICE: PTP_CFG MASTER is tested
against SOURCE where MASTER is written, not where TIM_CFG is (R144; log entry 173). -/
def Hw.verdictOn (n : Hw) (p off : Nat) : Option Nat :=
  let bad (c : Bool) : Option Nat := if c then some E.badValue else none
  let small (c : Bool) : Option Nat := if c then some E.bufferTooSmall else none
  match p with
  | 0x02 | 0x03 => bad ((queueAt p off).2 == 0x08 && n.contexts ≤ n.qCtx (queueAt p off).1)
  | 0x04 =>
    if off = 0x40 then
      let s := n.g R.TIM_CFG_SOURCE
      bad ((match n.prof with | .l => s != 1 | _ => s != 2 && s != 3) || n.sensorCount ≤ n.g R.TIM_CFG_TEMP_CH)
    else none
  | 0x05 =>
    if off = 0x40 then
      bad (!logOk (n.g R.PTP_CFG_LOG_DREQ) 7 4 || !logOk (n.g R.PTP_CFG_LOG_SYNC) 7 1 || (n.on R.PTP_CFG_MASTER && n.g R.TIM_CFG_SOURCE != 3) ||
        n.fabrics ≤ n.g R.PTP_CFG_SLAVE_PORT || n.fabrics ≤ n.g R.PTP_CFG_BACKUP_PORT)
    else none
  | 0x06 =>
    if off = 0x44 ∨ off = 0x48 then bad (n.g R.STP_PERIOD_MAX_MAX * 1000 ≤ n.g R.STP_PERIOD_MIN_MIN)
    else if 0x100 ≤ off ∧ off < 0x13C then bad (n.prof == .t && n.g (R.PH_CFG_MODE.at ((off - 0x100) / 4)) != 0)
    else none
  | 0x08 =>
    let k := n.g R.CNT_SEL_SLOT
    if off = 0x40 then bad (n.prof == .l && 0x4000 ≤ k)
    else if off = 0x44 then bad (n.prof == .l && !srcOk (n.g (R.CNT_SRC_CLASS.at k)) (n.g (R.CNT_SRC_INDEX.at k)) (n.g (R.CNT_SRC_MODE.at k)))
    else if off = 0x48 then
      bad (n.prof == .l && (List.range 16).any fun j => bit (n.g (R.CNT_SETS_MASK.at k)) j && 1024 < n.setSize j)
    else none
  | 0x0A =>
    if off < 0x80 then bad (n.g (R.PRX_BUS_CFG_MODE.at ((off - 0x40) / 4)) == 2 && 10 < n.g (R.PRX_BUS_CFG_RATE.at ((off - 0x40) / 4)))
    else bad (0xA0 ≤ off && 256 < total ((n.segments (n.g R.PRX_SEL_PROXY)).map fun s => s.2))
  | 0x10 =>
    bad (off == 0x40 && (n.activeMacros < n.g R.GAR_POOL_TAP + n.g R.GAR_POOL_DENSE ||
      (n.g R.GAR_POOL_TAP == 0 && (List.range 40).any fun t => n.on (R.TAP_CFG_EN.at t))))
  | 0x11 =>
    let b := n.g R.BIND_SEL_BIND
    if off < 0x100 then bad (n.on (R.TAP_CFG_EN.at ((off - 0x40) / 4)) && n.g R.GAR_POOL_TAP == 0)
    else match off with
    | 0x200 => bad (n.bindings ≤ b)
    | 0x208 =>
      let tap := n.g (R.BIND_CTL_TAP.at b)
      bad ((tap != 0x3F && n.taps ≤ tap) || n.accountCount ≤ n.g (R.BIND_CTL_ACCOUNT.at b) ||
        (n.bindOn b && ((n.on (R.BIND_CTL_MODE.at b) && tap == 0x3F) || !n.bindsAgree b)))
    | 0x20C => bad (!n.kLogOk (n.g (R.BIND_PARAM_K_LOG.at b)))
    | _ => none
  | 0x12 => bad (off == 0x40 && n.accountCount ≤ n.g R.ACC_SEL_ACCOUNT)
  | 0x13 => bad (off == 0x140 && n.prof != .l && n.checkCount ≤ n.g R.CHK_SEL_ENTRY)
  | 0x20 =>
    match off with
    | 0x80 => bad (n.slotCount ≤ n.g R.AGT_MSEL_SLOT)
    | 0x84 => bad (n.contexts ≤ n.g (R.AGT_MS_CTL_CTX.at (n.g R.AGT_MSEL_SLOT)))
    | 0x90 | 0x94 | 0x98 | 0x9C => bad (!n.regionsOk)
    | 0x204 =>
      let m := n.g R.AGT_MAP_SEL_NODE
      bad (n.entityRows < n.g (R.AGT_MAP_BASE.at m) + n.g (R.AGT_MAP_COUNT.at m))
    | 0x210 => bad (n.entityRows ≤ n.g R.AGT_ROW_SEL_ROW)
    | _ => none
  | 0x24 => bad (off == 0x40 && n.prof.sel 0 256 1024 ≤ n.g R.RED_SEL_GROUP)
  | 0x28 =>
    if off = 0x60 then bad (n.fabrics ≤ n.g R.FAB_PORT_SEL_PORT)
    else if 0x100 ≤ off ∧ off < 0x300 then
      let e := (off - 0x100) / 8
      let d := n.g (R.FAB_FLOW_B_DST.at e)
      bad (n.on (R.FAB_FLOW_A_EN.at e) && (d == 0 || d == 0xFFF))
    else none
  | 0x2C => bad (off == 0x50 && n.culverts ≤ n.g R.CUL_SEL_PORT)
  | 0x30 =>
    match off with
    | 0x44 => if n.g R.FLW_POOL_KIB < 32 then some E.bufferTooSmall else bad (n.prof.sel 512 16384 65536 < n.g R.FLW_POOL_KIB)
    | 0x48 => bad (n.g R.FLW_LEVEE_HIGH ≤ n.g R.FLW_LEVEE_LOW)
    | _ =>
      let c := (off - 0x100) / 0x20
      small (0x100 ≤ off && off < 0x200 && (off - 0x100) % 0x20 == 8 && n.g (R.DLV_SIZE_KIB.at c) != 0 && n.g (R.DLV_SIZE_KIB.at c) < 8)
  | 0x34 =>
    let q := n.g R.SHP_PORT_SEL_PORT
    match off with
    | 0x40 => bad (!(n.portExists q))
    | 0x48 => bad (n.rateLimit q < n.g (R.SHP_RATE_MBPS.at q))
    | 0x4C => small (n.g (R.SHP_BURST_BYTES.at q) < 4608)
    | 0x80 | 0xA0 => bad (max 1 n.trackerCount ≤ n.g (R.SHP_GL_CFG_TRACKER.at ((off - 0x80) / 0x20)))
    | _ => none
  | 0x35 =>
    let i := n.bankIdx .polSel
    match off with
    | 0x40 => bad (n.fabrics ≤ n.g R.POL_SEL_PORT)
    | 0x48 | 0x4C => bad (n.g (R.POL_PIR_MBPS.at i) < n.g (R.POL_CIR_MBPS.at i))
    | 0x50 => small (n.g (R.POL_CBS_BYTES.at i) < 4608)
    | 0x54 => small (n.g (R.POL_PBS_BYTES.at i) < 4608)
    | _ => none
  | 0x38 =>
    let id := (off - 0x80) / 4
    if off = 0x40 then bad (n.prof == .l && 256 < n.setSize (n.g R.TRC_CFG_LP_SET))
    else if off = 0x44 then
      let k := n.g R.TRC_BUF_KIB
      if k < 256 then some E.bufferTooSmall
      else bad (4096 * n.prof.sel 1 4 4 < k || 2 ^ Nat.log2 k != k)
    else if off = 0x60 then bad (n.traceSize ≤ n.g R.TRC_RD_OFF_OFF)
    else if 0x80 ≤ off ∧ off < 0x280 then bad (n.hasElem 0x38 off id && n.contexts ≤ n.g (R.TRC_ID_CTX.at id))
    else if 0x500 ≤ off ∧ off < 0x600 ∧ off % 16 = 0 then
      bad (n.prof == .l && 0x4000 ≤ n.g (R.WP_CTL_SLOT.at ((off - 0x500) / 16)))
    else none
  | 0x40 => bad (off == 0x40 && n.sensorCount ≤ n.g R.HLT_WS_CFG_TEMP_CH)
  | 0x42 =>
    let l := n.g R.OPT_LSEL_LANE
    let g := n.g R.OPT_HSEL_GRP
    let ch (f : Field) : Bool := n.sensorCount ≤ n.g (f.at l) && n.g (f.at l) != 0xFFF
    match off with
    | 0x80 => bad (n.opticalLanes ≤ l)
    | 0x88 => bad (ch R.LN_CH0_CH_LAS || ch R.LN_CH0_CH_MOD)
    | 0x8C => bad (ch R.LN_CH1_CH_MUX || ch R.LN_CH1_CH_CPL)
    | 0x90 => bad (ch R.LN_CH2_CH_RX)
    | 0xA0 => bad (n.groupCount ≤ n.g (R.LN_SPARE_GRP.at l))
    | 0x100 => bad (n.groupCount ≤ g)
    | 0x104 => bad (n.sensorCount < n.g (R.HG_CFG_MEAS_BASE.at g) + n.g (R.HG_CFG_N.at g))
    | _ => none
  | 0x44 =>
    match off with
    | 0x88 => small (n.g R.VRD_LOG_SIZE_KIB < 8)
    | 0x94 => bad (n.entryCount ≤ n.g R.VRD_ESEL_ENTRY)
    | _ => none
  | 0x48 =>
    let c := (off - 0x100) / 0x20
    small (0x100 ≤ off && (off - 0x100) % 0x20 == 0x0C && c != 2 && 1 ≤ c && c < 4 && n.g (R.CH_SIZE_KIB.at c) < 128)
  | 0x4C => if off = 0x44 ∨ off = 0x48 then n.evrCheck else bad (off == 0x78 && n.evrSize ≤ n.g R.EVR_RD_OFF_OFF)
  | 0x4D => bad (0x40 ≤ off && off < 0x80 && n.contexts ≤ n.g (R.MBX_OWNER_CTX.at ((off - 0x40) / 4)))
  | 0x50 => bad (off == 0x50 && !(n.portExists (n.g R.SEC_SEL_PORT) && n.g R.SEC_SEL_PORT < 0x300))
  | 0x5C => bad (off == 0x50 && n.stageSize ≤ n.g R.UPD_SEG_OFF_OFF)
  | _ => none

/-- A write that only the raw word shows to be illegal: a bit that the profile does not allow to be set (R144, R250, R344, R394). -/
def Hw.illegalWord (h : Hw) (p off v : Nat) : Bool :=
  match p with
  | 0x11 => 0x40 ≤ off && off < 0x100 && h.taps ≤ (off - 0x40) / 4 && bit v 0
  | 0x28 => off == 0x64 && h.prof != .g && bit v 1
  | 0x38 => 0x80 ≤ off && off < 0x280 && !h.hasElem 0x38 off ((off - 0x80) / 4) && bit v 0
  | _ => false

/-- Fabric port `i` becomes a long-haul hop: a rate above the hop's limit falls to it (R344, R383; log entry 184). -/
def Hw.capLonghaul (n : Hw) (i : Nat) : Hw :=
  if n.longhaul (0x200 + i) && n.rateLimit (0x200 + i) < n.g (R.SHP_RATE_MBPS.at (0x200 + i)) then
    n.s (R.SHP_RATE_MBPS.at (0x200 + i)) (n.rateLimit (0x200 + i)) else n

/-- What follows from an accepted write: `o` is the block before it, `n` with the fields set. -/
def Hw.wordEffects (n : Hw) (o : Hw) (p off : Nat) : Hw :=
  match p with
  | 0x09 => n.showSteps
  | 0x10 => n.showPools
  | 0x28 => if off = 0x64 then (n.capLonghaul (n.g R.FAB_PORT_SEL_PORT)).triggerCond else n
  | 0x35 => if 0x48 ≤ off ∧ off < 0x58 then n.fillMarker (0x200 + n.g R.POL_SEL_PORT) (n.g R.POL_SEL_CLASS) else n
  | 0x2C => n.triggerCond
  | 0x38 =>
    if 0x500 ≤ off ∧ off < 0x600 ∧ off % 16 = 0 then
      let w := (off - 0x500) / 16
      let moved (f : Field) : Bool := n.g (f.at w) != o.g (f.at w)
      if moved R.WP_CTL_EN || moved R.WP_CTL_SLOT then { n with trc := { n.trc with wpAt := n.trc.wpAt.filter fun x => x.1 != w } } else n
    else if n.g R.TRC_CFG_BUF_MODE ≠ o.g R.TRC_CFG_BUF_MODE ∨ n.g R.TRC_CFG_PRE ≠ o.g R.TRC_CFG_PRE ∨ n.g R.TRC_BUF_KIB ≠ o.g R.TRC_BUF_KIB then
      n.bufEmpty
    else n
  | 0x40 =>
    let w := n.g R.HLT_WS_SEL_WS
    if off = 0x54 then n.setBaseline w (n.g (R.HLT_WS_BASE_F0.at w)) else n
  | 0x42 =>
    let l := n.g R.OPT_LSEL_LANE
    let moved (f : Field) : Bool := n.g (f.at l) != o.g (f.at l)
    if (off = 0x84 ∧ moved R.LN_CFG_MODE = true) ∨ (off = 0x88 ∧ moved R.LN_CH0_CH_LAS = true) then n.redefineLane l else n
  | 0x44 => if off = 0x4C then n.showArbiter else if (off = 0x44 ∨ off = 0x50) ∧ n.running 0x44 then n.recheck else n
  | 0x48 => if off < 0x4C then n.cmpBound else n
  | _ => n

/-- Set the fields of a register, or refuse the write as a whole (R83). -/
def Hw.setWord (h : Hw) (p off v : Nat) : Tried :=
  let fs := h.covers p off v
  if fs.any fun x => h.g x.2.1 != x.2.2 && !h.mayChange p x.1.guard x.2.1 then .error E.badState
  else if (fs.any fun x => x.2.2 < x.1.lo || x.1.hi < x.2.2 || x.2.2 % max 1 x.1.mul != 0) || h.illegalWord p off v then .error E.badValue
  else
    let n := h.each fs fun h x => h.s x.2.1 x.2.2
    match n.verdictOn p off with
    | some c => .error c
    | none => .ok (n.wordEffects h p off)

/-! ### Registers with a rule of their own -/

/-- CTX_OPB and CTX_DENSE (R513): they change only while the context's EN is 0, those of the operator context while its queues are OFF. -/
def Hw.regionWrite (h : Hw) (c : Nat) (dense : Bool) (lo size : Nat) : Tried :=
  let f := if dense then (R.CTX_DENSE_FIRST.at c, R.CTX_DENSE_COUNT.at c) else (R.CTX_OPB_BASE.at c, R.CTX_OPB_KIB.at c)
  let same := h.g f.1 == lo && h.g f.2 == size
  let open_ := if c = h.operCtx then h.queueList.all fun q => h.qCtx q != c || h.qState q == 0 else !h.on (R.CTX_CFG_EN.at c)
  let clash := (List.range h.contexts).any fun d =>
    let g := if dense then (R.CTX_DENSE_FIRST.at d, R.CTX_DENSE_COUNT.at d) else (R.CTX_OPB_BASE.at d, R.CTX_OPB_KIB.at d)
    d != c && h.g g.2 != 0 && size != 0 && lo < h.g g.1 + h.g g.2 && h.g g.1 < lo + size
  let limit := if dense then h.densePages else h.prof.sel 1024 8192 32768
  if h.contexts ≤ c then .ok h
  else if !same && !open_ then .error E.badState
  else if (!dense && (lo % 64 != 0 || size % 64 != 0)) || limit < lo + size || clash then .error E.badValue
  else .ok ((h.s f.1 lo).s f.2 size)

/-- A write of HG_MX (R434, R436): the shadow matrix of the group that OPT_HSEL names, at HG_IDX, which advances. -/
def Hw.matrixWrite (h : Hw) (v : Nat) : Hw :=
  let g := h.g R.OPT_HSEL_GRP
  let i := h.g (R.HG_IDX_IDX.at g)
  let x := h.heatGroup g
  (h.putGroup { x with shadow := (i, signed 16 v) :: x.shadow.filter fun e => e.1 != i }).s (R.HG_IDX_IDX.at g) ((i + 1) % 4096)

/-- One command bit of a word: done where it is set, and refusing the whole write where it is refused. -/
def onBit (v i : Nat) (t : Tried) (f : Hw → Tried) : Tried :=
  match t with
  | .error c => .error c
  | .ok h => if bit v i then f h else .ok h

/-- VRD_CMD (R448, R462, R466). -/
def Hw.vrdCmd (h : Hw) (v : Nat) : Tried :=
  let n := bits v 16 8
  let t := onBit v 0 (.ok h) fun h => h.authoriseCmd n
  let t := onBit v 1 t fun h => h.holdCmd n
  let t := onBit v 2 t fun h => h.unholdCmd n
  let t := onBit v 3 t fun h => h.liftCmd n
  let t := onBit v 4 t fun h => h.liftVote n 1
  let t := onBit v 5 t fun h => h.liftVote n 0
  onBit v 6 t fun h => .ok h.logRestart

/-- VRD_ORD_CMD (R457, R458). -/
def Hw.ordCmd (h : Hw) (v : Nat) : Tried :=
  onBit v 1 (onBit v 0 (.ok h) fun h => h.ordLoad (bits v 8 5)) fun h => h.ordRevoke (bits v 8 5)

/-- TRC_CMD (R406). -/
def Hw.trcCmd (h : Hw) (v : Nat) : Tried := onBit v 1 (onBit v 0 (.ok h) Hw.rearm) fun h => h.softTrigger (bits v 2 2)

/-- FAB_LAUNCH_CMD (R351, R355). An ARM that is refused shows REASON. -/
def Hw.launchCmd (h : Hw) (v : Nat) : Hw :=
  h.launchEnd (onBit v 1 (onBit v 0 (.ok h) Hw.launchArm) Hw.launchCancel)

/-- WIN_CMD (R231). -/
def Hw.winCmd (h : Hw) (v : Nat) : Hw :=
  let h := if bit v 0 then h.windowOpen (bits v 8 4) none else h
  if bit v 1 then h.windowClose (bits v 8 4) false false else h

/-- A 32-bit write of a function register by a requester that may make it. -/
def Hw.funcWrite (h : Hw) (p off v : Nat) : Tried :=
  match p, off with
  | 0x00, 0x60 => .ok (h.claimQuery (v % 2 ^ 16))
  | 0x00, 0x6C => h.cclkWrite (v % 2 ^ 16)
  | 0x01, 0x44 => h.ctxCmd (bit v 0) (bits v 8 6)
  | 0x04, 0x4C => h.timCmd (bit v 0) (bit v 1)
  | 0x06, 0x50 => h.stpCmd (bit v 0) (bit v 1) (bits v 8 8)
  | 0x06, 0x80 => h.trkEnWrite 0 v
  | 0x06, 0x84 => h.trkEnWrite 1 v
  | 0x06, 0x88 => h.trkEnWrite 2 v
  | 0x06, 0x8C => h.trkEnWrite 3 v
  | 0x08, 0x58 => h.softAdd v
  | 0x09, 0x48 => h.frmCmd (bit v 0) (bit v 1) (bit v 2) (bits v 8 4)
  | 0x10, 0x50 => if bit v 0 then h.retireCmd (bits v 16 9) else .ok h
  | 0x13, 0x80 => .ok (h.winCmd v)
  | 0x13, 0x144 => if bit v 0 then h.checkEnable else h.checkDisable
  | 0x20, 0x6C => if bit v 0 then h.colSwap else .ok h
  | 0x20, 0xA4 => if bit v 0 then h.modelSwap else .ok h
  | 0x24, 0x44 => h.redLoad v
  | 0x2C, 0x54 => h.insvcWrite (h.g R.CUL_SEL_PORT) v
  | 0x2C, 0x90 => if bit v 0 then h.launchAck else .ok h
  | 0x34, 0xC0 => if bit v 0 then h.gswap (bits v 1 1) else .ok h
  | 0x38, 0x4C => h.trcCmd v
  | 0x3A, 0x44 => if bit v 0 then h.stopCmd else .ok h
  | 0x42, 0x11C => .ok (h.matrixWrite v)
  | 0x42, 0x124 => h.hgCmd (bit v 0) (bit v 1)
  | 0x44, 0x54 => h.spareWrite v
  | 0x44, 0x90 => h.vrdCmd v
  | 0x44, 0xD0 => h.ordCmd v
  | 0x48, 0x64 => if bit v 0 then h.archiveCmd else .ok h
  | 0x4C, 0x8C => h.evrCmd (bit v 0) (bit v 1) (bit v 2)
  | 0x50, 0x4C => h.secCmd (bit v 0) (bit v 1)
  | 0x54, 0x40 => .ok (h.safCfg v)
  | 0x54, 0x48 => h.safCmd (bit v 0) (bit v 1) (bits v 8 5) (bits v 16 16)
  | 0x58, 0x40 => h.pwrDom (some (bits v 0 1)) (some (bits v 1 1)) (some (bits v 2 1)) (some (bits v 3 1))
  | 0x5C, 0x54 => h.updCmd (bit v 0) (bit v 1) (bit v 2) (bit v 3) (bit v 4)
  | 0x01, _ =>
    let c := (off - 0x100) / 0x20
    if off < 0x100 ∨ 64 ≤ c then .ok h else
    match (off - 0x100) % 0x20 with
    | 0x00 => h.ctxCfg c (bit v 0) (bits v 8 8)
    | 0x04 => h.regionWrite c false (bits v 0 16) (bits v 16 16)
    | 0x08 => h.regionWrite c true (bits v 0 11) (bits v 16 11)
    | _ => .ok h
  | 0x28, _ => if 0x320 ≤ off ∧ off < 0x330 then h.proxyAck ((off - 0x320) / 4) v else h.setWord p off v
  | 0x3A, _ =>
    let c := (off - 0x100) / 0x10
    if 0x100 ≤ off ∧ off < 0x500 ∧ (off - 0x100) % 0x10 = 8 then .ok (if bit v 0 then h.clrBits (R.DBG_HANG_STAT_DONE.at c) 1 else h)
    else h.setWord p off v
  | 0x58, _ =>
    if off < 0x50 ∨ h.prof ≠ .t then .ok h
    else if 0x80 ≤ off ∧ off < 0xA0 then h.budgetWrite ((off - 0x80) / 4) (bits v 0 8)
    else if 0x100 ≤ off ∧ off < 0x110 then h.wakeReq ((off - 0x100) / 4) v
    else if 0x110 ≤ off ∧ off < 0x120 then .ok (h.wakeOff ((off - 0x110) / 4) v)
    else if 0x150 ≤ off ∧ off < 0x160 then .ok (h.clrBits (R.PWR_PGOOD_FAIL_FAIL.at ((off - 0x150) / 4)) v)
    else if 0x200 ≤ off ∧ off < 0x400 then h.dieWrite ((off - 0x200) / 4) (bits v 0 8) (bits v 8 3)
    else h.setWord p off v
  | _, _ => h.setWord p off v

/-! ### Writes by address -/

/-- A write of the page header (R80). -/
def Hw.headerWrite (h : Hw) (a : Acc) (p off v : Nat) : Hw :=
  match off with
  | 0x08 => h.ctlAccess a p (bit v 0) (bit v 1) (bit v 2)
  | 0x14 => h.access a p off false fun h => h.irqClear p v
  | 0x18 => h.access a p off false fun h => h.s (R.PAGE_IRQ_EN_EN p) v
  | 0x1C => h.operAccess a p off fun h => h.ownerWrite p (v % 256)
  | _ => h.access a p off false id

/-- A write in the register block of a queue (R101). -/
def Hw.queueWrite (h : Hw) (a : Acc) (p off v : Nat) : Hw :=
  let q := (queueAt p off).1
  let o := (queueAt p off).2
  let via (f : Hw → Tried) : Hw :=
    h.queueAccess a q off ([0x0C, 0x18, 0x28, 0x30].contains o) f
  match o with
  | 0x0C => via fun h => if bit v 1 then .ok (h.queueAbort q) else if bit v 0 then h.queueEnable q else .ok (h.queueDisable q)
  | 0x18 => via fun h => h.doorbell q (v % 2 ^ 16)
  | 0x28 => via fun h => h.cqHead q (v % 2 ^ 16)
  | _ => if h.isReg p off then via fun h => h.setWord p off v else h.access a p off (h.ownQueue a q) id

/-- A 32-bit write in the block of a mailbox (R500, R501). -/
def Hw.mbxWrite (h : Hw) (a : Acc) (off v : Nat) : Hw :=
  let m := (off - 0x100) / 0x80
  let o := (off - 0x100) % 0x80
  h.access a 0x4D off (h.ownsMbx a m) fun h =>
    if o < 0x40 then h.mbxData m (o / 8) (if o % 8 = 0 then 0x0F else 0xF0) (v * (if o % 8 = 0 then 1 else 2 ^ 32))
    else if o = 0x40 then h.mbxCtl m (bit v 0) (bit v 1) (bits v 8 7)
    else h

/-- A 32-bit write of requester `a` to offset `off` of page `p`. -/
def Hw.writeWord (h : Hw) (a : Acc) (p off v : Nat) : Hw :=
  if off < 0x40 then h.headerWrite a p off v
  else if (p = 0x02 ∨ p = 0x03) ∧ off = 0x44 then
    h.access a p off true fun h => (h.clrBits (R.QUE_IRQ_PEND_PEND.at (p - 2)) (h.ownBits a (p - 2) v)).accepted p
  else if (p = 0x02 ∨ p = 0x03) ∧ 0x400 ≤ off then h.queueWrite a p off v
  else if p = 0x08 ∧ off = 0x5C then h.busError
  else if p = 0x28 ∧ off = 0x314 then h.operAccess a p off fun h => h.launchCmd v
  else if p = 0x06 ∧ off = 0x50 then h.access a p off false fun h => h.finishSwap (bit v 0) (h.stpCmd (bit v 0) (bit v 1) (bits v 8 8))
  else if p = 0x38 ∧ 0x700 ≤ off ∧ off < 0x780 then (if off % 8 = 0 then h.swmark a ((off - 0x700) / 8) v else h.busError)
  else if p = 0x4D ∧ 0x100 ≤ off ∧ off < 0x900 then h.mbxWrite a off v
  else if p = 0x4D ∧ off = 0x80 then h.bellWrite a off 0 v fun h => h.setBits R.DB_IN_LO_BITS v
  else if p = 0x4D ∧ off = 0x84 then h.bellWrite a off 1 v fun h => h.setBits R.DB_IN_HI_BITS v
  else if p = 0x4D ∧ off = 0x88 then h.bellWrite a off 0 v fun h => h.clrBits R.DB_OUT_LO_BITS v
  else if p = 0x4D ∧ off = 0x8C then h.bellWrite a off 1 v fun h => h.clrBits R.DB_OUT_HI_BITS v
  else if !h.isReg p off then h.access a p off (h.tenantWrites a p off v) id
  else if operOnly p off then h.operWrite a p off fun h => h.funcWrite p off v
  else h.hostWrite a p off (h.tenantWrites a p off v) fun h => h.funcWrite p off v

/-- A 64-bit write of a register of 64 bits acts at once; of two registers, first on the lower one (R42). -/
def Hw.writeWide (h : Hw) (a : Acc) (p off data : Nat) : Hw :=
  if p = 0x08 ∧ off = 0x58 then h.hostWrite a p off false fun h => h.softAdd data
  else if p = 0x38 ∧ 0x700 ≤ off ∧ off < 0x780 then h.swmark a ((off - 0x700) / 8) data
  else if p = 0x4D ∧ 0x100 ≤ off ∧ off < 0x900 ∧ (off - 0x100) % 0x80 < 0x40 then
    h.access a p off (h.ownsMbx a ((off - 0x100) / 0x80)) fun h => h.mbxData ((off - 0x100) / 0x80) ((off - 0x100) % 0x80 / 8) 0xFF data
  else
    let h := h.writeWord a p off (data % 2 ^ 32)
    let failed := h.rsp.err
    let h := h.writeWord a p (off + 4) (data / 2 ^ 32)
    if failed then h.busError else h

/-- A host write by address and strobes (R42): HT_ADDR[19:3] names the 64-bit beat, and the strobes the half. -/
def Hw.busWrite (h : Hw) (a : Acc) (addr strb data : Nat) : Hw :=
  let p := addr % 2 ^ 20 / 4096
  let off := addr % 4096
  match strb with
  | 0x0F => if off % 8 = 0 then h.writeWord a p off (data % 2 ^ 32) else h.busError
  | 0xF0 => if off % 4 = 0 then h.writeWord a p (off / 8 * 8 + 4) (data / 2 ^ 32) else h.busError
  | 0xFF => if off % 8 = 0 then h.writeWide a p off data else h.busError
  | _ => h.busError

/-- HOST_REGISTER_WRITE (R42, R83). -/
def execHostRegisterWrite (a : Acc) (addr strb data : Nat) (s : State) : Result := s.go fun h => h.busWrite a addr (strb % 256) (data % 2 ^ 64)

/-! ### Reads (R9, R511) -/

/-- A register whose read latches others, and those it latches. -/
def latchSets : List (Field × List Field) :=
  [(R.TIM_NT0_NT, [R.TIM_NT1_NT, R.TIM_NT2_NT, R.TIM_FRC_LO_FRC, R.TIM_FRC_HI_FRC]),
   (R.TRK_POS_LO_SP, [R.TRK_POS_HI_SP, R.TRK_PERIOD_PERIOD]),
   (R.CNT_VAL_LO_VAL, [R.CNT_VAL_HI_VAL]), (R.ACC_ELEMS_LO_ELEMS, [R.ACC_ELEMS_HI_ELEMS]),
   (R.ACC_VAL0_VAL, [R.ACC_VAL1_VAL, R.ACC_VAL2_VAL]), (R.SLU_STALL_LO_CYCLES, [R.SLU_STALL_HI_CYCLES]),
   (R.CHK_BOUND0_BOUND, [R.CHK_BOUND1_BOUND, R.CHK_BOUND2_BOUND]), (R.CHK_ROUND_LO_KEY, [R.CHK_ROUND_HI_KEY]),
   (R.ND_TOTAL_LO_COUNT, [R.ND_TOTAL_HI_COUNT]), (R.ND_LAST_FRC_LO_FRC, [R.ND_LAST_FRC_HI_FRC]),
   (R.AGT_VISITS_LO_COUNT, [R.AGT_VISITS_HI_COUNT]), (R.CTX_BUSY_LO_CYCLES, [R.CTX_BUSY_HI_CYCLES]),
   (R.SAF_DLAST_LO_NT, [R.SAF_DLAST_HI_NT])]

/-- Who a latch belongs to: a context, or 64 for the operator (R511). -/
def whoOf (a : Acc) : Nat := if a.oper then 64 else a.ctx

/-- The registers that a field's read latches. -/
def latchedBy (f : Field) : List Field := (latchSets.filter fun x => x.1 == f.at 0).flatMap fun x => x.2

/-- A field that shows what another's read latched. -/
def isLatched (f : Field) : Bool := latchSets.any fun x => x.2.contains (f.at 0)

/-- The rows of a word that show something, with their elements. -/
def Hw.rowsAt (h : Hw) (p off : Nat) : List (Row × Nat) :=
  regTable.filterMap fun r =>
    if r.acc = .wo ∨ !r.inProf h.prof then none else
    match r.hit p off with
    | some i => if h.hasElem p off i then some (r, i) else none
    | none => none

/-- The value of a field for a requester: latched registers show the requester's own latch, 0 before the first (R511). -/
def Hw.seen (h : Hw) (a : Acc) (r : Row) (p i : Nat) : Nat :=
  if isLatched r.f then
    match h.latches.find? fun l => l.who == whoOf a && l.key == (r.f.at i).key with
    | some l => l.val
    | none => 0
  else h.shown (r.f.at (h.elem r p i))

/-- The word that a requester reads. -/
def Hw.wordFor (h : Hw) (a : Acc) (p off : Nat) : Nat :=
  total ((h.rowsAt p off).map fun x =>
    let v := h.seen a x.1 p x.2
    let upper := 32 < x.1.f.width && (off - x.1.f.off) % 8 == 4
    if upper then v / 2 ^ 32 else if 32 < x.1.f.width then v % 2 ^ 32 else v * 2 ^ x.1.f.lo) % 2 ^ 32

/-- The latches that a read of a word makes for its requester: of the same item and instant. -/
def Hw.latchRead (h : Hw) (a : Acc) (p off : Nat) : Hw :=
  h.each (h.rowsAt p off) fun h x =>
    h.each (latchedBy x.1.f) fun h f =>
      let key := (f.at x.2).key
      let l : Latch := ⟨whoOf a, key, h.shown (f.at (h.elem x.1 p x.2))⟩
      { h with latches := l :: h.latches.filter fun m => !(m.who == whoOf a && m.key == key) }

/-- The RC fields of a word clear (R9). The stall cycles of the sluices are one count (R239). -/
def Hw.clearRead (h : Hw) (p off : Nat) : Hw :=
  let h := h.each ((h.rowsAt p off).filter fun x => x.1.acc == .rc) fun h x => h.s (x.1.f.at (h.elem x.1 p x.2)) 0
  if p = 0x14 ∧ off = 0x48 then h.s R.SLU_STALL_HI_CYCLES 0 else h

/-- A read of PAGE_ERR (R112). -/
def Hw.errRead (h : Hw) (p : Nat) : Hw :=
  let v := h.header p 0x10
  ((h.s (R.PAGE_ERR_FIRST p) 0).s (R.PAGE_ERR_COUNT p) 0).reply v

/-- A tenant sees only its own accounts (R510). -/
def Hw.accountHidden (h : Hw) (a : Acc) (p off : Nat) : Bool :=
  p == 0x12 && 0x44 ≤ off && off < 0x74 && !a.oper && !h.tenantOwns a.ctx 0x12 && h.g (R.ACC_STAT_CTX.at (h.g R.ACC_SEL_ACCOUNT)) != a.ctx

/-- A read of a function register by a requester that may make it. -/
def Hw.funcRead (h : Hw) (a : Acc) (p off : Nat) : Hw :=
  if h.accountHidden a p off then h.reply 0
  else if (p = 0x02 ∨ p = 0x03) ∧ off = 0x40 then
    let v := h.ownBits a (p - 2) (h.g (R.QUE_DB_SUM_PEND.at (p - 2)))
    (h.dropBits (R.QUE_DB_SUM_PEND.at (p - 2)) v).reply v
  else if (p = 0x02 ∨ p = 0x03) ∧ off = 0x44 then h.reply (h.ownBits a (p - 2) (h.g (R.QUE_IRQ_PEND_PEND.at (p - 2))))
  else if p = 0x38 ∧ off = 0x64 then h.rdTrace
  else if p = 0x4C ∧ off = 0x7C then h.readRing
  else if p = 0x4D ∧ 0x100 ≤ off ∧ (off - 0x100) % 0x80 = 0x48 then h.mbxPop ((off - 0x100) / 0x80)
  else if p = 0x4D ∧ 0x80 ≤ off ∧ off < 0x90 then h.reply (h.wordFor a p off &&& h.ownBells a ((off - 0x80) / 4 % 2))
  else
    let v := h.wordFor a p off
    ((h.latchRead a p off).clearRead p off).reply v

/-- A 32-bit read of requester `a`. -/
def Hw.readWord (h : Hw) (a : Acc) (p off : Nat) : Hw :=
  h.access a p off (h.tenantReads a p off) fun h =>
    if off = 0x10 then h.errRead p else if off < 0x40 then h.reply (h.header p off) else h.funcRead a p off

/-- A host read by address (R42): 32 bits, or 64 bits with the lower word first. -/
def Hw.busRead (h : Hw) (a : Acc) (addr : Nat) (wide : Bool) : Hw :=
  let p := addr % 2 ^ 20 / 4096
  let off := addr % 4096
  if !wide then (if off % 4 = 0 then h.readWord a p off else h.busError)
  else if off % 8 ≠ 0 then h.busError
  else
    let h1 := h.readWord a p off
    let h2 := h1.readWord a p (off + 4)
    if h1.rsp.err then h2.busError else if h2.rsp.err then h2 else h2.reply (h1.rsp.data + 2 ^ 32 * h2.rsp.data)

/-- READ_CLEAR_COUNTER_READ (R9): a read at an address; its RC fields clear. -/
def execReadClearCounterRead (a : Acc) (addr : Nat) (wide : Bool) (s : State) : Result := s.go fun h => h.busRead a addr wide

/-- PAGE_ERR_READ (R112). -/
def execPageErrRead (a : Acc) (p : Nat) (s : State) : Result := s.go fun h => h.access a p 0x10 (h.tenantReads a p 0x10) fun h => h.errRead p

/-- LATCHING_REGISTER_READ (R511): a read of a 32-bit word, which latches the further words of its value for the requester. -/
def execLatchingRegisterRead (a : Acc) (addr : Nat) (s : State) : Result :=
  s.go fun h => if addr % 4 = 0 then h.readWord a (addr % 2 ^ 20 / 4096) (addr % 4096) else h.busError

end Sys2Proof.Machine
end

