-- ==== Sys2Proof/Machine/Dispatch.lean ====
section
/-!
DEFINITION. Machine/Dispatch.lean: the meaning of each command, one arm per constructor of Instr.
-/
namespace Sys2Proof.Machine

def exec (i : Instr) (s : State) : Host.Outcome State Fault Refusal :=
  match i with
  | .porstNAssert => Sys2Proof.Machine.execPorstNAssert s
  | .porstNRelease => Sys2Proof.Machine.execPorstNRelease s
  | .coreRstNAssert => Sys2Proof.Machine.execCoreRstNAssert s
  | .coreDomainResetRelease => Sys2Proof.Machine.execCoreDomainResetRelease s
  | .garRstNAssert => Sys2Proof.Machine.execGarRstNAssert s
  | .garnetSwitchGroupEnable => Sys2Proof.Machine.execGarnetSwitchGroupEnable s
  | .garnetDomainResetRelease => Sys2Proof.Machine.execGarnetDomainResetRelease s
  | .powerOkTimeout garnet => Sys2Proof.Machine.execPowerOkTimeout garnet s
  | .domainFault garnet => Sys2Proof.Machine.execDomainFault garnet s
  | .hostRegisterWrite a addr strb data => Sys2Proof.Machine.execHostRegisterWrite a addr strb data s
  | .readClearCounterRead a addr wide => Sys2Proof.Machine.execReadClearCounterRead a addr wide s
  | .pageErrRead a p => Sys2Proof.Machine.execPageErrRead a p s
  | .latchingRegisterRead a addr => Sys2Proof.Machine.execLatchingRegisterRead a addr s
  | .pageEnable a p men => Sys2Proof.Machine.execPageEnable a p men s
  | .pageDisable a p men => Sys2Proof.Machine.execPageDisable a p men s
  | .pageAbort a p men => Sys2Proof.Machine.execPageAbort a p men s
  | .pageStartComplete p => Sys2Proof.Machine.execPageStartComplete p s
  | .pageDrainComplete p => Sys2Proof.Machine.execPageDrainComplete p s
  | .pageAbortComplete p => Sys2Proof.Machine.execPageAbortComplete p s
  | .abortBoundExpiry p => Sys2Proof.Machine.execAbortBoundExpiry p s
  | .pageFunctionFault p code => Sys2Proof.Machine.execPageFunctionFault p code s
  | .memoryEccUncorrectable p what x y => Sys2Proof.Machine.execMemoryEccUncorrectable p what x y s
  | .pageOwnerWrite a p v => Sys2Proof.Machine.execPageOwnerWrite a p v s
  | .pageIrqStatClear a p bits => Sys2Proof.Machine.execPageIrqStatClear a p bits s
  | .claimQuery a r => Sys2Proof.Machine.execClaimQuery a r s
  | .blkCclkWrite a mhz => Sys2Proof.Machine.execBlkCclkWrite a mhz s
  | .queueEnable a q => Sys2Proof.Machine.execQueueEnable a q s
  | .queueStartComplete q => Sys2Proof.Machine.execQueueStartComplete q s
  | .queueDisable a q => Sys2Proof.Machine.execQueueDisable a q s
  | .queueAbort a q => Sys2Proof.Machine.execQueueAbort a q s
  | .queueDoorbell a q tail => Sys2Proof.Machine.execQueueDoorbell a q tail s
  | .cqHeadWrite a q head => Sys2Proof.Machine.execCqHeadWrite a q head s
  | .queueEntryFetch q => Sys2Proof.Machine.execQueueEntryFetch q s
  | .descriptorStart engine charge => Sys2Proof.Machine.execDescriptorStart engine charge s
  | .listChain q => Sys2Proof.Machine.execListChain q s
  | .queueEntryComplete q => Sys2Proof.Machine.execQueueEntryComplete q s
  | .queueCoalTimeout q => Sys2Proof.Machine.execQueueCoalTimeout q s
  | .queDbSumRead a page => Sys2Proof.Machine.execQueDbSumRead a page s
  | .queIrqPendClear a page bits => Sys2Proof.Machine.execQueIrqPendClear a page bits s
  | .queCompletionClear a page => Sys2Proof.Machine.execQueCompletionClear a page s
  | .dmaWriteResponse id => Sys2Proof.Machine.execDmaWriteResponse id s
  | .dmaErrorResponse id => Sys2Proof.Machine.execDmaErrorResponse id s
  | .dmaReadComplete id => Sys2Proof.Machine.execDmaReadComplete id s
  | .timStep a => Sys2Proof.Machine.execTimStep a s
  | .timSet a => Sys2Proof.Machine.execTimSet a s
  | .timeProbeTx p => Sys2Proof.Machine.execTimeProbeTx p s
  | .timeProbeRx p sec hdr servo lost press head stamps => Sys2Proof.Machine.execTimeProbeRx p sec hdr servo lost press head stamps s
  | .holdoverLimitExpiry => Sys2Proof.Machine.execHoldoverLimitExpiry s
  | .holdoverBoundTimeLost => Sys2Proof.Machine.execHoldoverBoundTimeLost s
  | .sourceChangeSettled => Sys2Proof.Machine.execSourceChangeSettled s
  | .transientSettleExpiry => Sys2Proof.Machine.execTransientSettleExpiry s
  | .ptpFrameRx k rx => Sys2Proof.Machine.execPtpFrameRx k rx s
  | .tsRxSofPulse k => Sys2Proof.Machine.execTsRxSofPulse k s
  | .tsTxSofPulse k => Sys2Proof.Machine.execTsTxSofPulse k s
  | .ptpSyncTx k => Sys2Proof.Machine.execPtpSyncTx k s
  | .ptpDelayReqTx => Sys2Proof.Machine.execPtpDelayReqTx s
  | .ptpAnnounceTx k => Sys2Proof.Machine.execPtpAnnounceTx k s
  | .ptpSlavePortTimeout => Sys2Proof.Machine.execPtpSlavePortTimeout s
  | .longhaulTimeRecord k t1 t2 t3 t4 => Sys2Proof.Machine.execLonghaulTimeRecord k t1 t2 t3 t4 s
  | .hwTimerFire t => Sys2Proof.Machine.execHwTimerFire t s
  | .stepMarkEdge clean => Sys2Proof.Machine.execStepMarkEdge clean s
  | .stepInEdge t high => Sys2Proof.Machine.execStepInEdge t high s
  | .phaseMarkEdge j clean => Sys2Proof.Machine.execPhaseMarkEdge j clean s
  | .angleLate t => Sys2Proof.Machine.execAngleLate t s
  | .trackerStallTimeout t => Sys2Proof.Machine.execTrackerStallTimeout t s
  | .acquireTimeout t => Sys2Proof.Machine.execAcquireTimeout t s
  | .scheduleAngleFire t => Sys2Proof.Machine.execScheduleAngleFire t s
  | .scheduleMarkMissingFire t => Sys2Proof.Machine.execScheduleMarkMissingFire t s
  | .stpSwap a t => Sys2Proof.Machine.execStpSwap a t s
  | .stpSetIndex a t => Sys2Proof.Machine.execStpSetIndex a t s
  | .stpTrkEnWrite a k v => Sys2Proof.Machine.execStpTrkEnWrite a k v s
  | .frmCaptureFull a => Sys2Proof.Machine.execFrmCaptureFull a s
  | .frmCaptureSet a set => Sys2Proof.Machine.execFrmCaptureSet a set s
  | .frmSync a => Sys2Proof.Machine.execFrmSync a s
  | .partialTokenRefill => Sys2Proof.Machine.execPartialTokenRefill s
  | .cntSoftWrite a v => Sys2Proof.Machine.execCntSoftWrite a v s
  | .proxyPollStart b => Sys2Proof.Machine.execProxyPollStart b s
  | .proxyPollComplete p segs span => Sys2Proof.Machine.execProxyPollComplete p segs span s
  | .garOpen q => Sys2Proof.Machine.execGarOpen q s
  | .garLoad q => Sys2Proof.Machine.execGarLoad q s
  | .garProject q => Sys2Proof.Machine.execGarProject q s
  | .garClose q => Sys2Proof.Machine.execGarClose q s
  | .garWload q => Sys2Proof.Machine.execGarWload q s
  | .garLayer q => Sys2Proof.Machine.execGarLayer q s
  | .garStore q => Sys2Proof.Machine.execGarStore q s
  | .digHash q => Sys2Proof.Machine.execDigHash q s
  | .tapSot tap fmt tag bs err full digFull => Sys2Proof.Machine.execTapSot tap fmt tag bs err full digFull s
  | .tapBeat tap fmt bs err full digFull => Sys2Proof.Machine.execTapBeat tap fmt bs err full digFull s
  | .tapEot tap fmt bs err full digFull => Sys2Proof.Machine.execTapEot tap fmt bs err full digFull s
  | .tapTensorIdleTimeout tap => Sys2Proof.Machine.execTapTensorIdleTimeout tap s
  | .cmtEvent ch engine kind tag => Sys2Proof.Machine.execCmtEvent ch engine kind tag s
  | .windowCloseComplete w => Sys2Proof.Machine.execWindowCloseComplete w s
  | .winCmdOpen a w => Sys2Proof.Machine.execWinCmdOpen a w s
  | .winCmdClose a w => Sys2Proof.Machine.execWinCmdClose a w s
  | .macroTestSlot m pass => Sys2Proof.Machine.execMacroTestSlot m pass s
  | .garRetire a m => Sys2Proof.Machine.execGarRetire a m s
  | .macroWeightEccError m => Sys2Proof.Machine.execMacroWeightEccError m s
  | .checkEnable a => Sys2Proof.Machine.execCheckEnable a s
  | .checkDefinitionLoaded n => Sys2Proof.Machine.execCheckDefinitionLoaded n s
  | .checkDisable a => Sys2Proof.Machine.execCheckDisable a s
  | .checkRecordArrival => Sys2Proof.Machine.execCheckRecordArrival s
  | .checkRoundTimeout n => Sys2Proof.Machine.execCheckRoundTimeout n s
  | .frameBoundary => Sys2Proof.Machine.execFrameBoundary s
  | .sampleDispatch => Sys2Proof.Machine.execSampleDispatch s
  | .sampleResult ser => Sys2Proof.Machine.execSampleResult ser s
  | .agtMload q => Sys2Proof.Machine.execAgtMload q s
  | .agtEload q => Sys2Proof.Machine.execAgtEload q s
  | .agtEval q => Sys2Proof.Machine.execAgtEval q s
  | .agtModelSwap a => Sys2Proof.Machine.execAgtModelSwap a s
  | .agtColSwap a => Sys2Proof.Machine.execAgtColSwap a s
  | .agtSwapTakeEffect => Sys2Proof.Machine.execAgtSwapTakeEffect s
  | .helloTx p => Sys2Proof.Machine.execHelloTx p s
  | .helloRx p sec meas bs => Sys2Proof.Machine.execHelloRx p sec meas bs s
  | .keepaliveTx p => Sys2Proof.Machine.execKeepaliveTx p s
  | .keepaliveRx p sec bs => Sys2Proof.Machine.execKeepaliveRx p sec bs s
  | .ackTx p => Sys2Proof.Machine.execAckTx p s
  | .ackRx p sec bs => Sys2Proof.Machine.execAckRx p sec bs s
  | .lsaRefresh => Sys2Proof.Machine.execLsaRefresh s
  | .lsaRx p sec bs => Sys2Proof.Machine.execLsaRx p sec bs s
  | .lsaAgeExpiry => Sys2Proof.Machine.execLsaAgeExpiry s
  | .joinTimeout => Sys2Proof.Machine.execJoinTimeout s
  | .claimHoldExpiry => Sys2Proof.Machine.execClaimHoldExpiry s
  | .routeRecompute => Sys2Proof.Machine.execRouteRecompute s
  | .dataFrameRx p sec dei bs => Sys2Proof.Machine.execDataFrameRx p sec dei bs s
  | .culvertFrameCrcError p => Sys2Proof.Machine.execCulvertFrameCrcError p s
  | .culvertPhyDown p => Sys2Proof.Machine.execCulvertPhyDown p s
  | .culvertRxTimeout p => Sys2Proof.Machine.execCulvertRxTimeout p s
  | .culvertFailback => Sys2Proof.Machine.execCulvertFailback s
  | .fabricLinkTimeout p => Sys2Proof.Machine.execFabricLinkTimeout p s
  | .replayWindowExpiry => Sys2Proof.Machine.execReplayWindowExpiry s
  | .longhaulReplayExpiry p => Sys2Proof.Machine.execLonghaulReplayExpiry p s
  | .homesLostExpiry p => Sys2Proof.Machine.execHomesLostExpiry p s
  | .registerRx p sec bs => Sys2Proof.Machine.execRegisterRx p sec bs s
  | .registerRetry => Sys2Proof.Machine.execRegisterRetry s
  | .groupdefRx p sec bs => Sys2Proof.Machine.execGroupdefRx p sec bs s
  | .redGroupLoad a v => Sys2Proof.Machine.execRedGroupLoad a v s
  | .reductionPartialArrival => Sys2Proof.Machine.execReductionPartialArrival s
  | .reductionPartialTimeout => Sys2Proof.Machine.execReductionPartialTimeout s
  | .reductionRoundTimeout => Sys2Proof.Machine.execReductionRoundTimeout s
  | .launchArmCmd a => Sys2Proof.Machine.execLaunchArmCmd a s
  | .launchCancelCmd a => Sys2Proof.Machine.execLaunchCancelCmd a s
  | .launchArmRx p sec bs => Sys2Proof.Machine.execLaunchArmRx p sec bs s
  | .launchCommitRx p sec bs => Sys2Proof.Machine.execLaunchCommitRx p sec bs s
  | .launchAbortRx p sec bs => Sys2Proof.Machine.execLaunchAbortRx p sec bs s
  | .culLaunchAck a => Sys2Proof.Machine.execCulLaunchAck a s
  | .fabProxyAckWrite a k v => Sys2Proof.Machine.execFabProxyAckWrite a k v s
  | .launchDeadline => Sys2Proof.Machine.execLaunchDeadline s
  | .launchInstant => Sys2Proof.Machine.execLaunchInstant s
  | .culvertInsvcWrite a v => Sys2Proof.Machine.execCulvertInsvcWrite a v s
  | .streamRecordRelease source => Sys2Proof.Machine.execStreamRecordRelease source s
  | .gapEmitDeadline => Sys2Proof.Machine.execGapEmitDeadline s
  | .ledgerPeriodClose => Sys2Proof.Machine.execLedgerPeriodClose s
  | .leafRehome => Sys2Proof.Machine.execLeafRehome s
  | .leafRehomeReturn => Sys2Proof.Machine.execLeafRehomeReturn s
  | .leafEncStepDown => Sys2Proof.Machine.execLeafEncStepDown s
  | .leafEncStepUp => Sys2Proof.Machine.execLeafEncStepUp s
  | .deliveryRingWrite c => Sys2Proof.Machine.execDeliveryRingWrite c s
  | .routeWaitExpiry => Sys2Proof.Machine.execRouteWaitExpiry s
  | .copyHostrec q => Sys2Proof.Machine.execCopyHostrec q s
  | .copyBytes q => Sys2Proof.Machine.execCopyBytes q s
  | .egressFrameSelect p => Sys2Proof.Machine.execEgressFrameSelect p s
  | .gateEntryChange g => Sys2Proof.Machine.execGateEntryChange g s
  | .shpGswap a g => Sys2Proof.Machine.execShpGswap a g s
  | .traceSyncTimer => Sys2Proof.Machine.execTraceSyncTimer s
  | .traceRecordCloseTimer id => Sys2Proof.Machine.execTraceRecordCloseTimer id s
  | .watchpointCrossing w => Sys2Proof.Machine.execWatchpointCrossing w s
  | .trigInEdge n => Sys2Proof.Machine.execTrigInEdge n s
  | .trigOutPulseEnd n => Sys2Proof.Machine.execTrigOutPulseEnd n s
  | .triggerFrameRx p sec bs => Sys2Proof.Machine.execTriggerFrameRx p sec bs s
  | .trcTrigger a line => Sys2Proof.Machine.execTrcTrigger a line s
  | .trcRearm a => Sys2Proof.Machine.execTrcRearm a s
  | .traceBufferFrozen => Sys2Proof.Machine.execTraceBufferFrozen s
  | .trcSwmarkWrite a m v => Sys2Proof.Machine.execTrcSwmarkWrite a m v s
  | .trcRdDataRead a => Sys2Proof.Machine.execTrcRdDataRead a s
  | .hostLpReqRise stops => Sys2Proof.Machine.execHostLpReqRise stops s
  | .hostLpReqFall => Sys2Proof.Machine.execHostLpReqFall s
  | .dbgStop a => Sys2Proof.Machine.execDbgStop a s
  | .stopAckRise => Sys2Proof.Machine.execStopAckRise s
  | .stopAckTimeout => Sys2Proof.Machine.execStopAckTimeout s
  | .scanAckTimeout => Sys2Proof.Machine.execScanAckTimeout s
  | .dumpComplete => Sys2Proof.Machine.execDumpComplete s
  | .hangWatchdogExpiry q => Sys2Proof.Machine.execHangWatchdogExpiry q s
  | .dbgHangDoneClear a c v => Sys2Proof.Machine.execDbgHangDoneClear a c v s
  | .testModeChange high => Sys2Proof.Machine.execTestModeChange high s
  | .sensorResult ch v => Sys2Proof.Machine.execSensorResult ch v s
  | .sensorRecordCloseTimer => Sys2Proof.Machine.execSensorRecordCloseTimer s
  | .sentinelSampleStart => Sys2Proof.Machine.execSentinelSampleStart s
  | .sentinelGateComplete => Sys2Proof.Machine.execSentinelGateComplete s
  | .opticalEvaluation => Sys2Proof.Machine.execOpticalEvaluation s
  | .fadeInterval => Sys2Proof.Machine.execFadeInterval s
  | .switchExecution n => Sys2Proof.Machine.execSwitchExecution n s
  | .heaterResultsLatch => Sys2Proof.Machine.execHeaterResultsLatch s
  | .hgSwap a => Sys2Proof.Machine.execHgSwap a s
  | .hgCal a => Sys2Proof.Machine.execHgCal a s
  | .heaterCalComplete g => Sys2Proof.Machine.execHeaterCalComplete g s
  | .verdictHoldExpiry => Sys2Proof.Machine.execVerdictHoldExpiry s
  | .expelVerdictRx => Sys2Proof.Machine.execExpelVerdictRx s
  | .vrdAuthorise a n => Sys2Proof.Machine.execVrdAuthorise a n s
  | .vrdHold a n => Sys2Proof.Machine.execVrdHold a n s
  | .vrdUnhold a n => Sys2Proof.Machine.execVrdUnhold a n s
  | .vrdLift a n => Sys2Proof.Machine.execVrdLift a n s
  | .vrdVoteYes a n => Sys2Proof.Machine.execVrdVoteYes a n s
  | .vrdVoteNo a n => Sys2Proof.Machine.execVrdVoteNo a n s
  | .vrdLogRestart a => Sys2Proof.Machine.execVrdLogRestart a s
  | .entryTtlExpiry n => Sys2Proof.Machine.execEntryTtlExpiry n s
  | .ballotRequestRx => Sys2Proof.Machine.execBallotRequestRx s
  | .ballotVoteRx => Sys2Proof.Machine.execBallotVoteRx s
  | .ballotTimeout n => Sys2Proof.Machine.execBallotTimeout n s
  | .vrdOrdLoad a slot => Sys2Proof.Machine.execVrdOrdLoad a slot s
  | .vrdOrdRevoke a slot => Sys2Proof.Machine.execVrdOrdRevoke a slot s
  | .budgetHourExpiry => Sys2Proof.Machine.execBudgetHourExpiry s
  | .vrdSpareWrite a v => Sys2Proof.Machine.execVrdSpareWrite a v s
  | .cmpOpen q => Sys2Proof.Machine.execCmpOpen q s
  | .cmpDeflate q => Sys2Proof.Machine.execCmpDeflate q s
  | .cmpClose q => Sys2Proof.Machine.execCmpClose q s
  | .cmpSave q => Sys2Proof.Machine.execCmpSave q s
  | .cmpRestore q => Sys2Proof.Machine.execCmpRestore q s
  | .cmpInflate q => Sys2Proof.Machine.execCmpInflate q s
  | .pckPack q => Sys2Proof.Machine.execPckPack q s
  | .cmpArchive a => Sys2Proof.Machine.execCmpArchive a s
  | .verdictArchiveCutTimer => Sys2Proof.Machine.execVerdictArchiveCutTimer s
  | .chunkRingWrite c => Sys2Proof.Machine.execChunkRingWrite c s
  | .repeatWindowExpiry => Sys2Proof.Machine.execRepeatWindowExpiry s
  | .optimeSecond => Sys2Proof.Machine.execOptimeSecond s
  | .evrWrite a => Sys2Proof.Machine.execEvrWrite a s
  | .evrMirrorRestart a => Sys2Proof.Machine.execEvrMirrorRestart a s
  | .evrFormat a => Sys2Proof.Machine.execEvrFormat a s
  | .evrRdDataRead a => Sys2Proof.Machine.execEvrRdDataRead a s
  | .mirrorItemWrite => Sys2Proof.Machine.execMirrorItemWrite s
  | .evrFlushTimer => Sys2Proof.Machine.execEvrFlushTimer s
  | .superblockTimer => Sys2Proof.Machine.execSuperblockTimer s
  | .nvWriteResponse ok => Sys2Proof.Machine.execNvWriteResponse ok s
  | .nvWriteTimeout => Sys2Proof.Machine.execNvWriteTimeout s
  | .mbxDataWrite a m k strb data => Sys2Proof.Machine.execMbxDataWrite a m k strb data s
  | .mbxPush a m len => Sys2Proof.Machine.execMbxPush a m len s
  | .mbxAbort a m => Sys2Proof.Machine.execMbxAbort a m s
  | .mbxPopRead a m => Sys2Proof.Machine.execMbxPopRead a m s
  | .firmwareMbxPop m => Sys2Proof.Machine.execFirmwareMbxPop m s
  | .firmwareMbxSend m bytes => Sys2Proof.Machine.execFirmwareMbxSend m bytes s
  | .dbInSet a half v => Sys2Proof.Machine.execDbInSet a half v s
  | .dbOutClear a half v => Sys2Proof.Machine.execDbOutClear a half v s
  | .firmwareDoorbell set n => Sys2Proof.Machine.execFirmwareDoorbell set n s
  | .contextEnable a c => Sys2Proof.Machine.execContextEnable a c s
  | .contextDisable a c => Sys2Proof.Machine.execContextDisable a c s
  | .contextClearDone c => Sys2Proof.Machine.execContextClearDone c s
  | .ctxKill a c => Sys2Proof.Machine.execCtxKill a c s
  | .agreementRetry p => Sys2Proof.Machine.execAgreementRetry p s
  | .rekeyTimer p => Sys2Proof.Machine.execRekeyTimer p s
  | .secRekey a => Sys2Proof.Machine.execSecRekey a s
  | .oldKeyErase p => Sys2Proof.Machine.execOldKeyErase p s
  | .sessionKeyExpiry p => Sys2Proof.Machine.execSessionKeyExpiry p s
  | .drbgReseed => Sys2Proof.Machine.execDrbgReseed s
  | .rotResponse id ok bytes => Sys2Proof.Machine.execRotResponse id ok bytes s
  | .rotTimeoutExpiry id => Sys2Proof.Machine.execRotTimeoutExpiry id s
  | .blobRequestRetry => Sys2Proof.Machine.execBlobRequestRetry s
  | .secReload a => Sys2Proof.Machine.execSecReload a s
  | .lockstepMismatch imageOk => Sys2Proof.Machine.execLockstepMismatch imageOk s
  | .controllerRestartComplete => Sys2Proof.Machine.execControllerRestartComplete s
  | .agateKatRun l mismatches => Sys2Proof.Machine.execAgateKatRun l mismatches s
  | .clockXchkWindow => Sys2Proof.Machine.execClockXchkWindow s
  | .clockXchkWatchdog => Sys2Proof.Machine.execClockXchkWatchdog s
  | .ntDupMismatch diff => Sys2Proof.Machine.execNtDupMismatch diff s
  | .ledgerCheckTimer credit => Sys2Proof.Machine.execLedgerCheckTimer credit s
  | .scrubPass m fixed bad => Sys2Proof.Machine.execScrubPass m fixed bad s
  | .hzInjectTest c tripped => Sys2Proof.Machine.execHzInjectTest c tripped s
  | .cfgCrcCheck crc => Sys2Proof.Machine.execCfgCrcCheck crc s
  | .hzDualMismatch detail => Sys2Proof.Machine.execHzDualMismatch detail s
  | .hzReadbackMismatch => Sys2Proof.Machine.execHzReadbackMismatch s
  | .safClear a => Sys2Proof.Machine.execSafClear a s
  | .safInject a d k => Sys2Proof.Machine.execSafInject a d k s
  | .hzInChange n high => Sys2Proof.Machine.execHzInChange n high s
  | .hazardChannelSilent ch => Sys2Proof.Machine.execHazardChannelSilent ch s
  | .hazardHoldExpiry => Sys2Proof.Machine.execHazardHoldExpiry s
  | .hbOutToggle => Sys2Proof.Machine.execHbOutToggle s
  | .bootComplete crcOk => Sys2Proof.Machine.execBootComplete crcOk s
  | .selftestComplete t => Sys2Proof.Machine.execSelftestComplete t s
  | .startUpDone => Sys2Proof.Machine.execStartUpDone s
  | .pwrDomainOn a garnet => Sys2Proof.Machine.execPwrDomainOn a garnet s
  | .pwrDomainOff a garnet => Sys2Proof.Machine.execPwrDomainOff a garnet s
  | .pwrWakeReq a k bits alert => Sys2Proof.Machine.execPwrWakeReq a k bits alert s
  | .wakeIntervalStart alert pgood => Sys2Proof.Machine.execWakeIntervalStart alert pgood s
  | .pwrWakeOff a k bits => Sys2Proof.Machine.execPwrWakeOff a k bits s
  | .pgoodTimeout d => Sys2Proof.Machine.execPgoodTimeout d s
  | .diePgoodFall d => Sys2Proof.Machine.execDiePgoodFall d s
  | .pgoodFailClear a k bits => Sys2Proof.Machine.execPgoodFailClear a k bits s
  | .updLoad a => Sys2Proof.Machine.execUpdLoad a s
  | .updVerify a => Sys2Proof.Machine.execUpdVerify a s
  | .updHandover a => Sys2Proof.Machine.execUpdHandover a s
  | .firmwareHandover => Sys2Proof.Machine.execFirmwareHandover s
  | .firmwareAliveTimeout => Sys2Proof.Machine.execFirmwareAliveTimeout s
  | .updCommit a => Sys2Proof.Machine.execUpdCommit a s
  | .updDiscard a => Sys2Proof.Machine.execUpdDiscard a s
  | .culPhyRdyRise p => Sys2Proof.Machine.execCulPhyRdyRise p s
  | .culvertAlignmentWordRx p lane word => Sys2Proof.Machine.execCulvertAlignmentWordRx p lane word s
  | .scnAckRise data => Sys2Proof.Machine.execScnAckRise data s
  | .nvReadResponse ok bytes => Sys2Proof.Machine.execNvReadResponse ok bytes s
  | .firmwareAliveReport => Sys2Proof.Machine.execFirmwareAliveReport s
  | .coreAutoPowerUp => Sys2Proof.Machine.execCoreAutoPowerUp s
  | .wsOutEdge n => Sys2Proof.Machine.execWsOutEdge n s
  | .hbOutInjectionResume => Sys2Proof.Machine.execHbOutInjectionResume s

end Sys2Proof.Machine
end

