-- ==== Sys2Proof/Machine/Tick.lean ====
section
/-!
DEFINITION. Machine/Tick.lean: a tick of TCLK, which is what a step does while no command waits (log entry 4).
-/
namespace Sys2Proof.Machine

/-- The FRC counts while the always-on domain is out of reset (R113); it has 64 bits. -/
def Hw.nextFrc (h : Hw) : Nat := if h.pwr.aon then (h.frc + 1) % 2 ^ 64 else h.frc

/-- What a tick does before the FRC counts: the marks and schedule points it has taken are handled in the order of R150, the trackers and TSTAT are
noted, entries and orders of page VRD are matched (R459), the event buffers drain into the trace stream, the trace port takes its next word, the dual hazard comparison runs on, the lanes of culverts
send (R47). -/
def Hw.tickBefore (h : Hw) : Hw := h.tickSteps.noteView.noteStat.switchTick.vrdTick.watchTick.drainEvents.portTick.hzDualTick.laneTick

/-- One tick: its work, then the FRC counts, an accepted SET takes effect (R123), and a ledger period whose end NT has reached is marked (R369). No
part of a tick's work but this count moves the FRC. -/
def Hw.tick (h : Hw) : Hw := { (Hw.stepDue { h.tickBefore with frc := h.nextFrc }).markEnd with frc := h.nextFrc }

/-- The step of a block that no command reaches. -/
def State.idle (s : State) : Result := .next (s.clocked Hw.tick)

end Sys2Proof.Machine
end

