-- ==== Sys2Proof/Safety.lean ====
section
/-!
DEFINITION. Safety.lean: what a safe state of the block is, and what it means that a command completes, in the terms that claims use.
-/
namespace Sys2Proof.Machine

/-- The memory behind the DMA port is in its canonical form. -/
def State.memOk (s : State) : Prop := Memory.wf s.mem = true

/-- The invariant that every step keeps: the memory is in its canonical form and the profile is `p` (R1). -/
def State.Inv (p : Profile) (s : State) : Prop := s.memOk ∧ s.hw.prof = p

/-- A command ends in a next state of which `P` holds, with the memory and the waiting commands as they were. -/
def Completes (c : Instr) (s : State) (P : Hw → Prop) : Prop :=
  ∃ t : State, exec c s = .next t ∧ P t.hw ∧ t.mem = s.mem ∧ t.pending = s.pending

/-- The block with what left its ports during the last command taken away: where a command finds it. -/
def Hw.quiet (h : Hw) : Hw := { h with out := [] }

/-- In every state whose block meets `H` the command completes, and what it does is `F` to the block and nothing else: the memory behind the
DMA port, the waiting commands, the profile and the FRC stay, and of what left the ports only this command's output is kept. -/
def Does (c : Instr) (H : Hw → Prop) (F : Hw → Hw) : Prop := ∀ s : State, H s.hw.quiet → exec c s = .next (s.on F)

/-- Every register field but those listed reads as before. -/
def Hw.SameBut (h t : Hw) (l : List Field) : Prop := ∀ f : Field, (∀ e ∈ l, e.key ≠ f.key) → t.g f = h.g f

/-- The operator's access of `a` to offset `off` of page `p` reaches its register: the domain is powered, the page exists (R37, R43, R78). -/
abbrev Hw.Reach (h : Hw) (a : Acc) (p off : Nat) : Prop := a.oper = true ∧ h.powered p off = true ∧ h.present p = true

/-- The operator's write of a register of queue `q` reaches it: the queue exists (R10, R101). -/
abbrev QueueReach (h : Hw) (a : Acc) (q off : Nat) : Prop := h.Reach a (quePage q) off ∧ q < h.queueCount

/-- The access of `a` to offset `off` of mailbox `m` reaches it: the operator's, or that of the context that owns the mailbox (R43, R500, R510). -/
abbrev Hw.MbxReach (h : Hw) (a : Acc) (m off : Nat) : Prop :=
  h.powered 0x4D (mbxOff m off) = true ∧ h.admits a = true ∧ h.present 0x4D = true ∧ (a.oper || h.tenantOwns a.ctx 0x4D || h.ownsMbx a m) = true

/-- The block after the IRQ_MEN bit of a write of PAGE_CTL (R80, R92). -/
def afterMen (h : Hw) (p : Nat) (men : Bool) : Hw := (h.reply 0).s (R.PAGE_CTL_IRQ_MEN p) (b2n men)

/-- Bytes that arrive at port `p` under the keys in force are a frame `f` of the kind: the port carries the kind, the link runs, and the
frame is whole and has a right check (R324, R325, R525; log entry 20). -/
abbrev Hw.Hears (h : Hw) (p : Nat) (bs : List Nat) (kind : Nat) (f : Frame) : Prop :=
  let h := (h.takeStamp p).2
  h.carries p kind = true ∧ (isCulvert p = true → (h.link p).phy = true ∧ (h.link p).hunting = false) ∧
  (isCulvert p = true ∨ wireBytes 1 bs.length ≤ 9216) ∧ (h.session p).up = true ∧ parseFrame bs = some f ∧ f.kind = kind

/-- The block when a protected frame has been taken at port `p`: its time stamp is used up, the session counts no failed tags and knows that
the new keys are in use, the link has been heard (R54, R325, R525). -/
def Hw.heard (h : Hw) (p : Nat) : Hw :=
  let h := (h.takeStamp p).2
  let s := h.session p
  let from_ := if s.oldKey.isSome && s.oldFrom.isNone then some h.frc else s.oldFrom
  let k := h.putSession { s with tagFails := 0, oldFrom := from_, sig := if s.step == 0 then [] else s.sig }
  k.onLink p fun x => { x with lastRx := k.frc }

/-- When the time probe just heard at culvert port `p` arrived (R124). -/
def Hw.probeAt (h : Hw) (p : Nat) : Int := (h.nt : Int) - fine (h.g (R.CUL_LAT_RX.at p))

/-- The block after what a time probe shows has been taken (R124, R366): the peer's states, and the choice of the source. -/
def Hw.probed (h : Hw) (p servo : Nat) (lost press head : Bool) : Hw :=
  let k := h.heard p
  let k := k.putLink { k.link p with peerServo := servo % 8, peerLost := lost, probeRx := some (h.probeAt p).toNat }
  let k := if lost then { k with flw := { k.flw with lflags := k.flw.lflags ||| 4 } } else k
  let k := match h.prof with | .l => k.homeShows p press head | _ => k
  k.pickCulvert

/-- Queue `q` has started a descriptor `d` of engine `e` and opcode `op`, the engine's page is not FAULTED, none of the descriptor's transfers is under
way, and its reserved bits are zero (R90, R106, R107). -/
abbrev Hw.Starts (h : Hw) (q e op : Nat) (fields : List (Nat × Nat × Nat)) (d : DescWords) : Prop :=
  h.current q e op = some d ∧ h.descBusy q = false ∧ h.stopped e = false ∧ dw d 0 8 4 = e ∧ reservedZero d fields = true

/-- A LAUNCH message `msg` that port `p` hears: the first copy, in the order of its class (R326, R352, R353). -/
abbrev Hw.HearsLaunch (h : Hw) (p : Nat) (bs : List Nat) (msg : Nat) (f : Frame) : Prop :=
  h.Hears p bs 6 f ∧ launchOk f.payload = true ∧ nth f.payload 0 = msg ∧ f.hseq = nth ((h.heard p).link p).rxNext f.cls ∧
  ((h.heard p).acceptRel p f 0 0).1.fab.seenMsgs.contains (msg, fld f.payload 4 12) = false

/-- The block when that message has been taken and noted. -/
def Hw.heardLaunch (h : Hw) (p msg : Nat) (f : Frame) : Hw :=
  let k := ((h.heard p).acceptRel p f 0 0).1
  { k with fab := { k.fab with seenMsgs := (msg, fld f.payload 4 12) :: k.fab.seenMsgs } }

/-- The launch that a message speaks of (R353). -/
def Hw.toldLaunch (h : Hw) (b : List Nat) : Launch :=
  let new : Launch := ⟨fld b 4 4, fld b 8 8, fld b 16 4, fld b 2 2, 0, 0, [], 0⟩
  match h.fab.launch with
  | some l => if l.job = fld b 4 4 ∧ l.instant = fld b 8 8 then l else new
  | none => new

/-- The page and offset of the register that a command writes or reads for the operator alone, with its requester (R43, R510). -/
def operAt : Instr → Option (Acc × Nat × Nat)
  | .pageOwnerWrite a p _ => some (a, p, 0x1C)
  | .claimQuery a _ => some (a, 0x00, 0x60)
  | .blkCclkWrite a _ => some (a, 0x00, 0x6C)
  | .contextEnable a c => some (a, 0x01, 0x100 + 0x20 * c)
  | .contextDisable a c => some (a, 0x01, 0x100 + 0x20 * c)
  | .timStep a => some (a, 0x04, 0x4C)
  | .timSet a => some (a, 0x04, 0x4C)
  | .garRetire a _ => some (a, 0x10, 0x50)
  | .agtModelSwap a => some (a, 0x20, 0xA4)
  | .agtColSwap a => some (a, 0x20, 0x6C)
  | .launchArmCmd a => some (a, 0x28, 0x314)
  | .launchCancelCmd a => some (a, 0x28, 0x314)
  | .shpGswap a _ => some (a, 0x34, 0xC0)
  | .dbgStop a => some (a, 0x3A, 0x44)
  | .hgSwap a => some (a, 0x42, 0x124)
  | .hgCal a => some (a, 0x42, 0x124)
  | .vrdSpareWrite a _ => some (a, 0x44, 0x54)
  | .vrdAuthorise a _ => some (a, 0x44, 0x90)
  | .vrdHold a _ => some (a, 0x44, 0x90)
  | .vrdUnhold a _ => some (a, 0x44, 0x90)
  | .vrdLift a _ => some (a, 0x44, 0x90)
  | .vrdVoteYes a _ => some (a, 0x44, 0x90)
  | .vrdVoteNo a _ => some (a, 0x44, 0x90)
  | .vrdLogRestart a => some (a, 0x44, 0x90)
  | .vrdOrdLoad a _ => some (a, 0x44, 0xD0)
  | .vrdOrdRevoke a _ => some (a, 0x44, 0xD0)
  | .cmpArchive a => some (a, 0x48, 0x64)
  | .evrRdDataRead a => some (a, 0x4C, 0x7C)
  | .evrWrite a => some (a, 0x4C, 0x8C)
  | .evrMirrorRestart a => some (a, 0x4C, 0x8C)
  | .evrFormat a => some (a, 0x4C, 0x8C)
  | .secRekey a => some (a, 0x50, 0x4C)
  | .secReload a => some (a, 0x50, 0x4C)
  | .safClear a => some (a, 0x54, 0x48)
  | .safInject a _ _ => some (a, 0x54, 0x48)
  | .pwrDomainOn a _ => some (a, 0x58, 0x40)
  | .pwrDomainOff a _ => some (a, 0x58, 0x40)
  | .updLoad a => some (a, 0x5C, 0x54)
  | .updVerify a => some (a, 0x5C, 0x54)
  | .updHandover a => some (a, 0x5C, 0x54)
  | .updCommit a => some (a, 0x5C, 0x54)
  | .updDiscard a => some (a, 0x5C, 0x54)
  | _ => none

/-- What recording an error with a code does to the header of page `p`, and nothing else to the registers (R80, R112). -/
def Hw.Recorded (h t : Hw) (p code : Nat) : Prop :=
  t.g (R.PAGE_ERR_FIRST p) = (if h.g (R.PAGE_ERR_FIRST p) = 0 then code else h.g (R.PAGE_ERR_FIRST p)) ∧
  t.g (R.PAGE_ERR_COUNT p) = (if h.g (R.PAGE_ERR_COUNT p) + 1 < 2 ^ 16 then h.g (R.PAGE_ERR_COUNT p) + 1 else h.g (R.PAGE_ERR_COUNT p)) ∧ t.g (R.PAGE_IRQ_STAT_ERROR p) = 1 ∧
  h.SameBut t [R.PAGE_ERR_FIRST p, R.PAGE_ERR_COUNT p, R.PAGE_IRQ_STAT_ERROR p]

end Sys2Proof.Machine
end

