-- ==== Sys2Proof/WellFormed.lean ====
section
/-!
DEFINITION. WellFormed.lean: the operands fit the ports and fields that carry them (R30, R41–R43). A meaning cuts or ignores what a
wider operand would carry, so no meaning asks for this; the sender of a command does.
-/
namespace Sys2Proof

/-- A number below a bound. -/
def upto (n v : Nat) : Bool := decide (v < n)

/-- A 32-bit word. -/
def word (v : Nat) : Bool := decide (v < 2 ^ 32)

/-- A culvert or fabric port (R30). -/
def port (p : Nat) : Bool := decide (p < 0x210)

/-- A list of bytes. -/
def octets (l : List Nat) : Bool := l.all fun b => decide (b < 0x100)

/-- HT_CTX has six bits (R41). -/
def Acc.wf (a : Acc) : Bool := decide (a.ctx < 64)

/-- Every operand of the command fits. -/
def Instr.wellFormed : Instr → Bool
  | .porstNAssert => true
  | .porstNRelease => true
  | .coreRstNAssert => true
  | .coreDomainResetRelease => true
  | .garRstNAssert => true
  | .garnetSwitchGroupEnable => true
  | .garnetDomainResetRelease => true
  | .powerOkTimeout _ => true
  | .domainFault _ => true
  | .hostRegisterWrite a addr strb data => a.wf && upto (2 ^ 20) addr && upto 0x100 strb && upto (2 ^ 64) data
  | .readClearCounterRead a addr _ => a.wf && upto (2 ^ 20) addr
  | .pageErrRead a p => a.wf && upto 0x100 p
  | .latchingRegisterRead a addr => a.wf && upto (2 ^ 20) addr
  | .pageEnable a p _ => a.wf && upto 0x100 p
  | .pageDisable a p _ => a.wf && upto 0x100 p
  | .pageAbort a p _ => a.wf && upto 0x100 p
  | .pageStartComplete p => upto 0x100 p
  | .pageDrainComplete p => upto 0x100 p
  | .pageAbortComplete p => upto 0x100 p
  | .abortBoundExpiry p => upto 0x100 p
  | .pageFunctionFault p code => upto 0x100 p && upto 0x10000 code
  | .memoryEccUncorrectable p what _ _ => upto 0x100 p && upto 4 what
  | .pageOwnerWrite a p v => a.wf && upto 0x100 p && upto 0x100 v
  | .pageIrqStatClear a p bits => a.wf && upto 0x100 p && word bits
  | .claimQuery a r => a.wf && upto 0x10000 r
  | .blkCclkWrite a mhz => a.wf && upto 0x10000 mhz
  | .queueEnable a q => a.wf && upto 64 q
  | .queueStartComplete q => upto 64 q
  | .queueDisable a q => a.wf && upto 64 q
  | .queueAbort a q => a.wf && upto 64 q
  | .queueDoorbell a q tail => a.wf && upto 64 q && upto 0x10000 tail
  | .cqHeadWrite a q head => a.wf && upto 64 q && upto 0x10000 head
  | .queueEntryFetch q => upto 64 q
  | .descriptorStart engine _ => upto 8 engine
  | .listChain q => upto 64 q
  | .queueEntryComplete q => upto 64 q
  | .queueCoalTimeout q => upto 64 q
  | .queDbSumRead a page => a.wf && upto 2 page
  | .queIrqPendClear a page bits => a.wf && upto 2 page && word bits
  | .queCompletionClear a page => a.wf && upto 2 page
  | .dmaWriteResponse _ => true
  | .dmaErrorResponse _ => true
  | .dmaReadComplete _ => true
  | .timStep a => a.wf
  | .timSet a => a.wf
  | .timeProbeTx p => port p
  | .timeProbeRx p sec hdr servo _ _ _ _ => port p && upto 5 sec && upto 8 servo && octets hdr
  | .holdoverLimitExpiry => true
  | .holdoverBoundTimeLost => true
  | .sourceChangeSettled => true
  | .transientSettleExpiry => true
  | .ptpFrameRx i rx => upto 0x100 i && octets rx.1
  | .tsRxSofPulse i => upto 0x100 i
  | .tsTxSofPulse i => upto 0x100 i
  | .ptpSyncTx i => upto 0x100 i
  | .ptpDelayReqTx => true
  | .ptpAnnounceTx i => upto 0x100 i
  | .ptpSlavePortTimeout => true
  | .longhaulTimeRecord i _ _ _ _ => upto 0x100 i
  | .hwTimerFire t => upto 32 t
  | .stepMarkEdge _ => true
  | .stepInEdge t _ => upto 0x80 t
  | .phaseMarkEdge j _ => upto 16 j
  | .angleLate t => upto 0x80 t
  | .trackerStallTimeout t => upto 0x80 t
  | .acquireTimeout t => upto 0x80 t
  | .scheduleAngleFire t => upto 0x80 t
  | .scheduleMarkMissingFire t => upto 0x80 t
  | .stpSwap a t => a.wf && upto 0x80 t
  | .stpSetIndex a t => a.wf && upto 0x80 t
  | .stpTrkEnWrite a i v => a.wf && upto 0x100 i && word v
  | .frmCaptureFull a => a.wf
  | .frmCaptureSet a set => a.wf && upto 16 set
  | .frmSync a => a.wf
  | .partialTokenRefill => true
  | .cntSoftWrite a v => a.wf && upto (2 ^ 64) v
  | .proxyPollStart b => upto 16 b
  | .proxyPollComplete p segs _ => upto 0x80 p && (segs.all fun o => match o with | some l => octets l | none => true)
  | .garOpen q => upto 64 q
  | .garLoad q => upto 64 q
  | .garProject q => upto 64 q
  | .garClose q => upto 64 q
  | .garWload q => upto 64 q
  | .garLayer q => upto 64 q
  | .garStore q => upto 64 q
  | .digHash q => upto 64 q
  | .tapSot tap fmt tag bs _ _ _ => upto 40 tap && upto 8 fmt && upto (2 ^ 32) tag && octets bs
  | .tapBeat tap fmt bs _ _ _ => upto 40 tap && upto 8 fmt && octets bs
  | .tapEot tap fmt bs _ _ _ => upto 40 tap && upto 8 fmt && octets bs
  | .tapTensorIdleTimeout tap => upto 40 tap
  | .cmtEvent ch engine kind tag => upto 4 ch && upto 0x100 engine && upto 16 kind && upto (2 ^ 32) tag
  | .windowCloseComplete w => upto 16 w
  | .winCmdOpen a w => a.wf && upto 16 w
  | .winCmdClose a w => a.wf && upto 16 w
  | .macroTestSlot m _ => upto 0x200 m
  | .garRetire a m => a.wf && upto 0x200 m
  | .macroWeightEccError m => upto 0x200 m
  | .checkEnable a => a.wf
  | .checkDefinitionLoaded n => upto 0x1000 n
  | .checkDisable a => a.wf
  | .checkRecordArrival => true
  | .checkRoundTimeout n => upto 0x1000 n
  | .frameBoundary => true
  | .sampleDispatch => true
  | .sampleResult _ => true
  | .agtMload q => upto 64 q
  | .agtEload q => upto 64 q
  | .agtEval q => upto 64 q
  | .agtModelSwap a => a.wf
  | .agtColSwap a => a.wf
  | .agtSwapTakeEffect => true
  | .helloTx p => port p
  | .helloRx p sec _ bs => port p && upto 5 sec && octets bs
  | .keepaliveTx p => port p
  | .keepaliveRx p sec bs => port p && upto 5 sec && octets bs
  | .ackTx p => port p
  | .ackRx p sec bs => port p && upto 5 sec && octets bs
  | .lsaRefresh => true
  | .lsaRx p sec bs => port p && upto 5 sec && octets bs
  | .lsaAgeExpiry => true
  | .joinTimeout => true
  | .claimHoldExpiry => true
  | .routeRecompute => true
  | .dataFrameRx p sec _ bs => port p && upto 5 sec && octets bs
  | .culvertFrameCrcError p => port p
  | .culvertPhyDown p => port p
  | .culvertRxTimeout p => port p
  | .culvertFailback => true
  | .fabricLinkTimeout p => port p
  | .replayWindowExpiry => true
  | .longhaulReplayExpiry p => port p
  | .homesLostExpiry p => port p
  | .registerRx p sec bs => port p && upto 5 sec && octets bs
  | .registerRetry => true
  | .groupdefRx p sec bs => port p && upto 5 sec && octets bs
  | .redGroupLoad a v => a.wf && word v
  | .reductionPartialArrival => true
  | .reductionPartialTimeout => true
  | .reductionRoundTimeout => true
  | .launchArmCmd a => a.wf
  | .launchCancelCmd a => a.wf
  | .launchArmRx p sec bs => port p && upto 5 sec && octets bs
  | .launchCommitRx p sec bs => port p && upto 5 sec && octets bs
  | .launchAbortRx p sec bs => port p && upto 5 sec && octets bs
  | .culLaunchAck a => a.wf
  | .fabProxyAckWrite a i v => a.wf && upto 0x100 i && word v
  | .launchDeadline => true
  | .launchInstant => true
  | .culvertInsvcWrite a v => a.wf && word v
  | .streamRecordRelease source => word source
  | .gapEmitDeadline => true
  | .ledgerPeriodClose => true
  | .leafRehome => true
  | .leafRehomeReturn => true
  | .leafEncStepDown => true
  | .leafEncStepUp => true
  | .deliveryRingWrite c => upto 64 c
  | .routeWaitExpiry => true
  | .copyHostrec q => upto 64 q
  | .copyBytes q => upto 64 q
  | .egressFrameSelect p => port p
  | .gateEntryChange g => upto 16 g
  | .shpGswap a g => a.wf && upto 16 g
  | .traceSyncTimer => true
  | .traceRecordCloseTimer _ => true
  | .watchpointCrossing w => upto 16 w
  | .trigInEdge n => upto 0x1000 n
  | .trigOutPulseEnd n => upto 0x1000 n
  | .triggerFrameRx p sec bs => port p && upto 5 sec && octets bs
  | .trcTrigger a line => a.wf && upto 4 line
  | .trcRearm a => a.wf
  | .traceBufferFrozen => true
  | .trcSwmarkWrite a m v => a.wf && upto 0x200 m && upto (2 ^ 64) v
  | .trcRdDataRead a => a.wf
  | .hostLpReqRise _ => true
  | .hostLpReqFall => true
  | .dbgStop a => a.wf
  | .stopAckRise => true
  | .stopAckTimeout => true
  | .scanAckTimeout => true
  | .dumpComplete => true
  | .hangWatchdogExpiry q => upto 64 q
  | .dbgHangDoneClear a c v => a.wf && upto 64 c && word v
  | .testModeChange _ => true
  | .sensorResult ch v => upto 0x10000 ch && upto 0x10000 v
  | .sensorRecordCloseTimer => true
  | .sentinelSampleStart => true
  | .sentinelGateComplete => true
  | .opticalEvaluation => true
  | .fadeInterval => true
  | .switchExecution n => upto 0x1000 n
  | .heaterResultsLatch => true
  | .hgSwap a => a.wf
  | .hgCal a => a.wf
  | .heaterCalComplete g => upto 16 g
  | .verdictHoldExpiry => true
  | .expelVerdictRx => true
  | .vrdAuthorise a n => a.wf && upto 0x1000 n
  | .vrdHold a n => a.wf && upto 0x1000 n
  | .vrdUnhold a n => a.wf && upto 0x1000 n
  | .vrdLift a n => a.wf && upto 0x1000 n
  | .vrdVoteYes a n => a.wf && upto 0x1000 n
  | .vrdVoteNo a n => a.wf && upto 0x1000 n
  | .vrdLogRestart a => a.wf
  | .entryTtlExpiry n => upto 0x1000 n
  | .ballotRequestRx => true
  | .ballotVoteRx => true
  | .ballotTimeout n => upto 0x1000 n
  | .vrdOrdLoad a slot => a.wf && upto 32 slot
  | .vrdOrdRevoke a slot => a.wf && upto 32 slot
  | .budgetHourExpiry => true
  | .vrdSpareWrite a v => a.wf && word v
  | .cmpOpen q => upto 64 q
  | .cmpDeflate q => upto 64 q
  | .cmpClose q => upto 64 q
  | .cmpSave q => upto 64 q
  | .cmpRestore q => upto 64 q
  | .cmpInflate q => upto 64 q
  | .pckPack q => upto 64 q
  | .cmpArchive a => a.wf
  | .verdictArchiveCutTimer => true
  | .chunkRingWrite c => upto 64 c
  | .repeatWindowExpiry => true
  | .optimeSecond => true
  | .evrWrite a => a.wf
  | .evrMirrorRestart a => a.wf
  | .evrFormat a => a.wf
  | .evrRdDataRead a => a.wf
  | .mirrorItemWrite => true
  | .evrFlushTimer => true
  | .superblockTimer => true
  | .nvWriteResponse _ => true
  | .nvWriteTimeout => true
  | .mbxDataWrite a m i strb data => a.wf && upto 0x200 m && upto 0x100 i && upto 0x100 strb && upto (2 ^ 64) data
  | .mbxPush a m len => a.wf && upto 0x200 m && upto 0x80 len
  | .mbxAbort a m => a.wf && upto 0x200 m
  | .mbxPopRead a m => a.wf && upto 0x200 m
  | .firmwareMbxPop m => upto 0x200 m
  | .firmwareMbxSend m bytes => upto 0x200 m && octets bytes
  | .dbInSet a half v => a.wf && upto 2 half && word v
  | .dbOutClear a half v => a.wf && upto 2 half && word v
  | .firmwareDoorbell _ n => upto 0x1000 n
  | .contextEnable a c => a.wf && upto 64 c
  | .contextDisable a c => a.wf && upto 64 c
  | .contextClearDone c => upto 64 c
  | .ctxKill a c => a.wf && upto 64 c
  | .agreementRetry p => port p
  | .rekeyTimer p => port p
  | .secRekey a => a.wf
  | .oldKeyErase p => port p
  | .sessionKeyExpiry p => port p
  | .drbgReseed => true
  | .rotResponse _ _ bytes => octets bytes
  | .rotTimeoutExpiry _ => true
  | .blobRequestRetry => true
  | .secReload a => a.wf
  | .lockstepMismatch _ => true
  | .controllerRestartComplete => true
  | .agateKatRun l mismatches => upto 64 l && upto 0x10000 mismatches
  | .clockXchkWindow => true
  | .clockXchkWatchdog => true
  | .ntDupMismatch diff => upto (2 ^ 80) diff
  | .ledgerCheckTimer credit => (credit.all fun x => port x.1 && upto 8 x.2)
  | .scrubPass _ _ _ => true
  | .hzInjectTest c _ => upto 64 c
  | .cfgCrcCheck crc => word crc
  | .hzDualMismatch detail => word detail
  | .hzReadbackMismatch => true
  | .safClear a => a.wf
  | .safInject a d i => a.wf && upto 0x80 d && upto 0x100 i
  | .hzInChange n _ => upto 0x1000 n
  | .hazardChannelSilent ch => upto 0x10000 ch
  | .hazardHoldExpiry => true
  | .hbOutToggle => true
  | .bootComplete _ => true
  | .selftestComplete _ => true
  | .startUpDone => true
  | .pwrDomainOn a _ => a.wf
  | .pwrDomainOff a _ => a.wf
  | .pwrWakeReq a i bits alert => a.wf && upto 0x100 i && word bits && upto 0x100 alert
  | .wakeIntervalStart alert pgood => upto 0x100 alert && pgood.all word
  | .pwrWakeOff a i bits => a.wf && upto 0x100 i && word bits
  | .pgoodTimeout d => upto 0x80 d
  | .diePgoodFall d => upto 0x80 d
  | .pgoodFailClear a i bits => a.wf && upto 0x100 i && word bits
  | .updLoad a => a.wf
  | .updVerify a => a.wf
  | .updHandover a => a.wf
  | .firmwareHandover => true
  | .firmwareAliveTimeout => true
  | .updCommit a => a.wf
  | .updDiscard a => a.wf
  | .culPhyRdyRise p => port p
  | .culvertAlignmentWordRx p lane word => port p && upto 4 lane && upto (2 ^ 64) word
  | .scnAckRise data => octets data
  | .nvReadResponse _ bytes => octets bytes
  | .firmwareAliveReport => true
  | .coreAutoPowerUp => true
  | .wsOutEdge n => upto 0x1000 n
  | .hbOutInjectionResume => true

end Sys2Proof
end

