-- ==== Sys2Proof/Certificates/Slice0/Obligations.lean ====
section
/-!
DEFINITION. Certificates/Slice0/Obligations.lean: the statements for the provers.
-/
open Sys2Proof Sys2Proof.Machine


/-! ### The machine as a whole -/

/-- O1: a step takes the command at the front of the queue and runs it with the queue's rest. -/
def Obligations.StepRunsTheFront : Prop :=
  ∀ (c : Instr) (rest : List Instr) (s : State), step { s with pending := c :: rest } = exec c { s with pending := rest }

/-- O2: a step that finds no command waiting is a TCLK cycle. That it is one is the model's choice (log entry 4). -/
def Obligations.EmptyQueueTicks : Prop :=
  ∀ s : State, s.pending = [] → ∃ t, step s = .next t ∧ t.mem = s.mem ∧ t.pending = [] ∧ t.hw = { Hw.tick s.hw.quiet with prof := s.hw.prof } ∧
    (s.hw.pwr.aon = true → t.hw.frc = (s.hw.frc + 1) % 2 ^ 64) ∧ (s.hw.pwr.aon = false → t.hw.frc = s.hw.frc)

/-- O3: the FRC counts one on at every TCLK cycle that passes while the always-on domain is powered, whatever else the state holds; PORST_N alone sets
it to zero; no command writes it, and no state of a page, abort among them, touches it (R113). `Hw.tick` is a TCLK cycle. -/
def Obligations.FrcCounts : Prop :=
  (∀ h : Hw, h.pwr.aon = true → (Hw.tick h).frc = (h.frc + 1) % 2 ^ 64) ∧
  (∀ s : State, Completes .porstNAssert s fun t => t.frc = 0) ∧
  (∀ (c : Instr) (s t : State), c ≠ .porstNAssert → c ≠ .porstNRelease → exec c s = .next t → t.hw.frc = s.hw.frc)

/-- O4: every command ends in a next state, whatever its operands and the state: none stops the model. The queue and the profile (R1) stay as they
are, and the memory behind the DMA port changes by the response to a write alone (R45, R46). -/
def Obligations.EveryCommandCompletes : Prop :=
  ∀ (c : Instr) (s : State), ∃ t, exec c s = .next t ∧ t.pending = s.pending ∧ t.hw.prof = s.hw.prof ∧
    ((∀ id, c ≠ .dmaWriteResponse id) → t.mem = s.mem)

/-- O5: the machine right after reset meets the invariant. That it is a Boldal T is the model's choice (log entry 1). -/
def Obligations.ResetMeetsInvariant : Prop := State.reset.Inv .t

/-- O6: the Reset column of the register tables, for registers of every chapter, in every profile (R10). -/
def Obligations.ResetColumn : Prop :=
  ∀ p : Profile, let h := Hw.resetFor p
    h.g R.BLK_CLAIM_RESULT_HOLDER = 0xFE ∧ h.g (R.Q_CFG_SQ_LOG.at 5) = 4 ∧ h.g R.TIM_BOUND_BOUND = 0xFFFF ∧ h.g R.TIM_CFG_FF_EN = 1 ∧
    h.g R.STP_PERIOD_MIN_MIN = 100 ∧ h.g R.FRM_CFG_KEY_EVERY = 16 ∧ h.g R.FLW_CFG_PERIOD_MS = 10 ∧ h.g R.FLW_LEVEE_HIGH = 0xE0 ∧
    h.g R.FLW_LEVEE_LOW = 0xA0 ∧ h.g R.SHP_PCFG_OVERHEAD = 24 ∧ h.g R.POL_SEL_CLASS = 3 ∧ h.g R.TRC_CFG_LOW_LEVEE = 0xC0 ∧ h.g R.DBG_CFG_FREEZE = 1 ∧
    h.g R.HLT_EARLY_H_HOURS = 0xFFFFFFFF ∧ h.g R.VRD_TIMES_HOLD_S = 60 ∧ h.g R.EVR_CFG_REPEAT_MS = 1000 ∧ h.g R.SEC_CFG_REKEY_S = 3600 ∧
    h.g R.PWR_DOM_GAR_AUTO = 1 ∧ h.g R.UPD_STAT_FROM_ROM = 1 ∧ h.state 0x00 = 2 ∧ h.state 0x54 = 1 ∧ h.state 0x30 = 0 ∧ h.frc = 0

/-- O7: every step keeps the invariant: the memory behind the DMA port stays in its canonical form, and the part stays the profile it is (R1). -/
def Obligations.EveryStepKeepsInvariant : Prop :=
  ∀ (p : Profile) (s t : State), s.Inv p → step s = .next t → t.Inv p

/-- O8: a write whose response arrives stands in memory byte for byte at its address, as far as the bursts sent reach, and every other byte reads as
before; of a write all of whose bursts are sent that is every byte (R45, R46). -/
def Obligations.WrittenBytesStand : Prop :=
  (∀ (s : State) (id : Nat) (r : DmaReq), Memory.wf s.mem = true → s.hw.dmaReq id = some r → r.write = true → r.bytes.length ≤ 2 ^ 64 →
    ∃ t, exec (.dmaWriteResponse id) s = .next t ∧ t.pending = s.pending ∧
      (∀ i, i < r.bytes.length → i < r.reached → Memory.read t.mem ((r.addr + i) % 2 ^ 64) = BitVec.ofNat 8 (nth r.bytes i)) ∧
      ∀ x, (∀ i, i < r.bytes.length → i < r.reached → x ≠ (r.addr + i) % 2 ^ 64) → Memory.read t.mem x = Memory.read s.mem x) ∧
  (∀ r : DmaReq, r.whole = true → r.reached = r.len)

/-- O9: a frame's bytes read back as the frame, with every field of the link header at every value that R323 gives it. -/
def Obligations.FrameReadsBack : Prop :=
  ∀ (f : Frame) (rest : List Nat), f.kind ≤ 8 → f.cls < 8 → f.src < 2 ^ 12 → f.dst < 2 ^ 12 → f.hseq < 2 ^ 32 → f.payload.length < 2 ^ 16 →
    f.pfx.length = (if f.routed then 34 else 0) → parseFrame (f.bytes ++ rest) = some f

/-- O10: bytes whose link header is of another version or KIND, or has a reserved bit set, are no frame (R323, R324). -/
def Obligations.OtherFramesAreNone : Prop :=
  ∀ bs : List Nat, (nth bs 0 % 16 ≠ 1 ∨ 8 < nth bs 0 / 16 ∨ 2 ^ 5 ≤ nth bs 1 ∨ 2 ^ 12 ≤ fld bs 2 2 ∨ 2 ^ 12 ≤ fld bs 4 2 ∨ fld bs 12 4 ≠ 0) →
    parseFrame bs = none

/-- O11: a tenant context gets a bus error at every register that the operator alone may reach; ACCESS_DENIED stands in the header of the page
addressed, and nothing else changes but the note of the tick that set its ERROR bit (R11, R43, R510). -/
def Obligations.TenantsAreRefused : Prop :=
  ∀ (c : Instr) (a : Sys2Proof.Acc) (p off : Nat) (s : State), operAt c = some (a, p, off) → a.oper = false → s.hw.powered p off = true → s.hw.admits a = true →
    s.hw.present p = true → Completes c s fun t =>
      s.hw.Recorded t p E.accessDenied ∧ t = { s.hw.quiet with regs := t.regs, sets := t.sets, rsp := ⟨0, true⟩ }

/-- O12: while the domain of a page is off, an access to the operator's registers is answered with a bus error and has no effect (R37). -/
def Obligations.UnpoweredAccessesDoNothing : Prop :=
  ∀ (c : Instr) (a : Sys2Proof.Acc) (p off : Nat) (s : State), operAt c = some (a, p, off) → s.hw.powered p off = false →
    Completes c s fun t => t = { s.hw.quiet with rsp := ⟨0, true⟩ }

/-- O13: a page that the profile does not implement takes the operator's writes without effect (R10, R78). -/
def Obligations.AbsentPagesIgnoreWrites : Prop :=
  ∀ (c : Instr) (a : Sys2Proof.Acc) (p off : Nat) (s : State), operAt c = some (a, p, off) → a.oper = true → s.hw.powered p off = true → s.hw.present p = false →
    Completes c s fun t => t = { s.hw.quiet with rsp := ⟨0, false⟩ }

/-- O14: a refused write records its code in the header of the page it was addressed to, and has no effect on any other
register or state but the note of the tick that set its ERROR bit (R11, R83, R112). -/
def Obligations.RefusedWritesOnlyRecord : Prop :=
  let refused (c : Instr) (s : State) (p code : Nat) : Prop :=
    Completes c s fun t => s.hw.Recorded t p code ∧ t = { s.hw.quiet with regs := t.regs, sets := t.sets, rsp := ⟨0, false⟩ }
  (∀ (s : State) a, s.hw.Reach a 0x4C 0x8C → s.hw.running 0x4C = true → refused (.evrFormat a) s 0x4C E.badState) ∧
  (∀ (s : State) a d i, d < 32 → i < 65536 → d = 0 ∨ 17 < d → s.hw.Reach a 0x54 0x48 → refused (.safInject a d i) s 0x54 E.badValue) ∧
  (∀ (s : State) a, s.hw.Reach a 0x5C 0x54 → s.hw.updState ≠ 2 → refused (.updHandover a) s 0x5C E.badState) ∧
  (∀ (s : State) a, s.hw.Reach a 0x5C 0x54 → s.hw.updState ≠ 4 → refused (.updCommit a) s 0x5C E.badState) ∧
  (∀ (s : State) a, s.hw.Reach a 0x5C 0x54 → s.hw.updState = 3 ∨ s.hw.updState = 4 → refused (.updDiscard a) s 0x5C E.badState) ∧
  (∀ (s : State) a, s.hw.Reach a 0x38 0x4C → s.hw.on R.TRC_STAT_FILLING = true → refused (.trcRearm a) s 0x38 E.badState) ∧
  (∀ (s : State) a n e, s.hw.Reach a 0x44 0x90 → s.hw.vEntry n = some e → finalState e.state = true → refused (.vrdHold a n) s 0x44 E.badState) ∧
  (∀ (s : State) a n e, s.hw.Reach a 0x44 0x90 → s.hw.vEntry n = some e → e.kind = 0 → refused (.vrdAuthorise a n) s 0x44 E.accessDenied) ∧
  (∀ (s : State) a, s.hw.Reach a 0x48 0x64 → s.hw.chanOn 1 = false → refused (.cmpArchive a) s 0x48 E.badState) ∧
  (∀ (s : State) a slot, 32 ≤ slot → s.hw.Reach a 0x44 0xD0 → refused (.vrdOrdRevoke a slot) s 0x44 E.badValue)

/-- O15: inbound mailboxes, for the operator and the owner (R501): a write of MBX_DATA stores the word; PUSH with a length of 1 to 64 sets FULL
and LEN; while FULL is set every write to MBX_DATA or PUSH gets a bus error, has no effect and records MBX_FULL; a length outside 1 to 64 is
refused with BAD_VALUE; a pop by firmware clears FULL and raises SPACE. Nothing else changes. -/
def Obligations.InboundMailboxes : Prop :=
  (∀ (s : State) a m i data, m < 8 → i < 8 → s.hw.MbxReach a m (8 * i) → s.hw.mbxFull m = false →
    Completes (.mbxDataWrite a m i 0xFF data) s fun t => t.g (R.MBX_DATA_DATA.at (8 * m + i)) = data % 2 ^ 64 ∧ t.rsp = ⟨0, false⟩ ∧
      s.hw.SameBut t [R.MBX_DATA_DATA.at (8 * m + i), R.PAGE_SEQ_SEQ 0x4D]) ∧
  (∀ (s : State) a m len, m < 8 → 1 ≤ len → len ≤ 64 → s.hw.MbxReach a m 0x40 → s.hw.mbxFull m = false → s.hw.mbxTakes = true →
    Completes (.mbxPush a m len) s fun t => t.g (R.MBX_STAT_FULL.at m) = 1 ∧ t.g (R.MBX_STAT_LEN.at m) = len ∧ t.rsp = ⟨0, false⟩ ∧
      s.hw.SameBut t [R.MBX_STAT_FULL.at m, R.MBX_STAT_TAKEN.at m, R.MBX_STAT_LEN.at m, R.PAGE_SEQ_SEQ 0x4D]) ∧
  (∀ (s : State) a m i strb data, m < 8 → i < 8 → [0x0F, 0xF0, 0xFF].contains strb = true → s.hw.MbxReach a m (8 * i) →
    s.hw.mbxFull m = true → Completes (.mbxDataWrite a m i strb data) s fun t =>
      s.hw.Recorded t 0x4D E.mbxFull ∧ t = { s.hw.quiet with regs := t.regs, sets := t.sets, rsp := ⟨0, true⟩ }) ∧
  (∀ (s : State) a m len, m < 8 → s.hw.MbxReach a m 0x40 → s.hw.mbxFull m = true →
    Completes (.mbxPush a m len) s fun t => s.hw.Recorded t 0x4D E.mbxFull ∧ t = { s.hw.quiet with regs := t.regs, sets := t.sets, rsp := ⟨0, true⟩ }) ∧
  (∀ (s : State) m, m < 8 → s.hw.firmware = true → s.hw.mbxFull m = true →
    Completes (.firmwareMbxPop m) s fun t => t.g (R.MBX_STAT_FULL.at m) = 0 ∧
      t.g (R.PAGE_IRQ_STAT_FUNC_IRQ 0x4D) = (s.hw.g (R.PAGE_IRQ_STAT_FUNC_IRQ 0x4D) ||| 2) % 2 ^ 16 ∧
      s.hw.SameBut t [R.MBX_STAT_FULL.at m, R.MBX_STAT_TAKEN.at m, R.MBX_STAT_LEN.at m, R.PAGE_IRQ_STAT_FUNC_IRQ 0x4D]) ∧
  (∀ (s : State) a m len, m < 8 → len = 0 ∨ (64 < len ∧ len < 128) → s.hw.MbxReach a m 0x40 → s.hw.mbxFull m = false →
    Completes (.mbxPush a m len) s fun t => s.hw.Recorded t 0x4D E.badValue ∧ t = { s.hw.quiet with regs := t.regs, sets := t.sets, rsp := ⟨0, false⟩ })

/-- O16: outbound mailboxes and doorbells (R502, R504): a send by firmware sets FULL and LEN; a read of MBX_POP answers LEN and clears FULL, and
answers 0 with no effect while the mailbox is not full; a write to the data of an outbound mailbox gets a bus error and records ACCESS_DENIED;
a write of DB_IN sets bits, a write of DB_OUT clears bits but those set in the same tick (R11), and a doorbell that firmware rings sets its bit and raises DOORBELL. -/
def Obligations.OutboundMailboxesAndDoorbells : Prop :=
  (∀ (s : State) m bytes, 8 ≤ m → m < 16 → 0 < bytes.length → bytes.length ≤ 64 → s.hw.firmware = true → s.hw.mbxFull m = false → s.hw.mbxTakes = true →
    Completes (.firmwareMbxSend m bytes) s fun t => t.g (R.MBX_STAT_FULL.at m) = 1 ∧ t.g (R.MBX_STAT_LEN.at m) = bytes.length) ∧
  (∀ (s : State) a m, 8 ≤ m → m < 16 → s.hw.MbxReach a m 0x48 → s.hw.mbxFull m = true →
    Completes (.mbxPopRead a m) s fun t => t.rsp = ⟨s.hw.g (R.MBX_STAT_LEN.at m), false⟩ ∧ t.g (R.MBX_STAT_FULL.at m) = 0 ∧
      s.hw.SameBut t [R.MBX_STAT_FULL.at m, R.MBX_STAT_TAKEN.at m, R.MBX_STAT_LEN.at m]) ∧
  (∀ (s : State) a m, m < 16 → s.hw.MbxReach a m 0x48 → s.hw.mbxFull m = false →
    Completes (.mbxPopRead a m) s fun t => t = { s.hw.quiet with rsp := ⟨0, false⟩ }) ∧
  (∀ (s : State) a m i strb data, 8 ≤ m → m < 16 → i < 8 → [0x0F, 0xF0, 0xFF].contains strb = true → s.hw.MbxReach a m (8 * i) →
    Completes (.mbxDataWrite a m i strb data) s fun t =>
      s.hw.Recorded t 0x4D E.accessDenied ∧ t = { s.hw.quiet with regs := t.regs, sets := t.sets, rsp := ⟨0, true⟩ }) ∧
  (∀ (s : State) a v, v < 2 ^ 32 → s.hw.Reach a 0x4D 0x80 → Completes (.dbInSet a 0 v) s fun t =>
    t.g R.DB_IN_LO_BITS = (s.hw.g R.DB_IN_LO_BITS ||| v) % 2 ^ 32 ∧ s.hw.SameBut t [R.DB_IN_LO_BITS, R.PAGE_SEQ_SEQ 0x4D]) ∧
  (∀ (s : State) a v, v < 2 ^ 32 → s.hw.Reach a 0x4D 0x88 → Completes (.dbOutClear a 0 v) s fun t =>
    t.g R.DB_OUT_LO_BITS = (s.hw.g R.DB_OUT_LO_BITS - (s.hw.g R.DB_OUT_LO_BITS &&& (v - (v &&& s.hw.setNow R.DB_OUT_LO_BITS)))) % 2 ^ 32 ∧ s.hw.SameBut t [R.DB_OUT_LO_BITS, R.PAGE_SEQ_SEQ 0x4D]) ∧
  (∀ (s : State) n, n < 32 → s.hw.firmware = true → Completes (.firmwareDoorbell true n) s fun t =>
    t.g R.DB_OUT_LO_BITS = (s.hw.g R.DB_OUT_LO_BITS ||| 2 ^ n) % 2 ^ 32 ∧
    t.g (R.PAGE_IRQ_STAT_FUNC_IRQ 0x4D) = (s.hw.g (R.PAGE_IRQ_STAT_FUNC_IRQ 0x4D) ||| 4) % 2 ^ 16 ∧
    s.hw.SameBut t [R.DB_OUT_LO_BITS, R.PAGE_IRQ_STAT_FUNC_IRQ 0x4D])

/-- O17: a read latches for its requester alone: each context, and the operator, holds latched values of its own, and a read by one never changes
what another reads (R511). -/
def Obligations.LatchesArePrivate : Prop :=
  ∀ (s : State) (a b : Sys2Proof.Acc) (addr key : Nat), whoOf a ≠ whoOf b →
    let kept (c : Instr) : Prop := Completes c s fun t =>
      (t.latches.find? fun l => l.who == whoOf b && l.key == key) = (s.hw.latches.find? fun l => l.who == whoOf b && l.key == key)
    kept (.latchingRegisterRead a addr) ∧ kept (.readClearCounterRead a addr false) ∧ kept (.readClearCounterRead a addr true)

/-- O18: an enabled hazard input that rises drives HAZARD high, is named as the source and counted, and is logged (R548, R556). -/
def Obligations.HazardInputTrips : Prop :=
  ∀ (s : State) (n : Nat), n < 8 → s.hw.pwr.aon = true → bit s.hw.saf.hzEn n = true → bit s.hw.saf.hzIn n = false →
    Completes (.hzInChange n true) s fun t =>
      t.g R.SAF_STAT_HAZARD = 1 ∧ t.g R.SAF_HZ_SRC_SRC = 1 ∧ t.g R.SAF_HZ_SRC_INDEX = n ∧ t.g R.SAF_HZ_COUNT_COUNT = (s.hw.g R.SAF_HZ_COUNT_COUNT + 1) % 2 ^ 32 ∧
      bit t.saf.hzIn n = true ∧
      s.hw.SameBut t [R.SAF_STAT_HAZARD, R.SAF_HZ_SRC_SRC, R.SAF_HZ_SRC_INDEX, R.SAF_HZ_COUNT_COUNT, R.PAGE_IRQ_STAT_FUNC_IRQ 0x54,
        R.EVR_ENTRIES_COUNT, R.EVR_UNMIRRORED_COUNT, R.EVR_OLDEST_OFF, R.EVR_NEWEST_OFF, R.EVR_NEWEST_SEQ_SEQ, R.EVR_OVERWRITTEN_COUNT,
        R.EVR_MIRROR_LOST_COUNT, R.PAGE_IRQ_STAT_FUNC_IRQ 0x4C]

/-- O19: VRD_CMD HOLD marks the named entry and no other (R448, R466). -/
def Obligations.HoldMarksOneEntry : Prop :=
  ∀ (s : State) (a : Sys2Proof.Acc) (n : Nat) (e : VEntry), s.hw.Reach a 0x44 0x90 → s.hw.vEntry n = some e → finalState e.state = false →
    Completes (.vrdHold a n) s fun t => t.vEntry n = some { e with held := true } ∧ (∀ m, m ≠ n → t.vEntry m = s.hw.vEntry m) ∧
      t.dma = s.hw.dma ∧ s.hw.SameBut t [R.VRD_ESTAT_STATE.at n, R.VRD_ESTAT_AKIND.at n, R.VRD_ESTAT_REASON.at n, R.VRD_ESTAT_YES.at n,
        R.VRD_ESTAT_NO.at n, R.VRD_ESTAT_AUTH.at n, R.VRD_ESUBJ_SUBJECT.at n, R.VRD_STAT_WITHHELD, R.PAGE_SEQ_SEQ 0x44]

/-! ### Power, wake-up and the pages -/

/-- O20: what the resets and the switching of the core domain leave and keep (R35, R36, R557–R560). -/
def Obligations.ResetsAndDomains : Prop :=
  (∀ s : State, Completes .porstNAssert s fun t =>
    t.frc = 0 ∧ t.pwr = { Pwr.reset with tied := s.hw.pwr.tied } ∧ t.evr = Evr.reset ∧ t.g R.TIM_STATUS_FIRST_STEP_DONE = 0 ∧ t.flw = Flw.reset ∧ t.fab = Fab.reset ∧
    (∀ f : Field, f.key ≠ R.SAF_STAT_HAZARD.key → t.g f = (Hw.resetFor s.hw.prof).g f)) ∧
  (∀ s : State, s.hw.pwr.porst = true → Completes .porstNRelease s fun t =>
    t.frc = 0 ∧ t.pwr.porst = false ∧ t.pwr.aon = true ∧ t.g R.PWR_START_AON = 1 ∧ t.evr = s.hw.evr ∧ s.hw.SameBut t [R.PWR_START_AON]) ∧
  (∀ s : State, s.hw.pwr.aon = true → Completes .coreRstNAssert s fun t =>
    t.frc = s.hw.frc ∧ t.tim.rate = s.hw.tim.rate ∧ t.pwr.core = false ∧ t.pwr.gar = false ∧ t.pwr.aon = true ∧ t.gar.accounts = [] ∧ t.queues = [] ∧
    t.claims = (s.hw.claims.filter fun c => alwaysOnPage c.2) ∧ t.fab.lsdb = [] ∧ t.sec = Sec.reset ∧ t.state 0x30 = 0 ∧ t.g R.TIM_STATUS_FIRST_STEP_DONE = s.hw.g R.TIM_STATUS_FIRST_STEP_DONE) ∧
  (∀ s : State, s.hw.pwr.porst = false → s.hw.pwr.coreEn = true → s.hw.pwr.core = false → Completes .coreDomainResetRelease s fun t =>
    t.pwr.core = true ∧ t.pwr.isoCore = false ∧ t.g R.PWR_DOM_CORE_ST = 1 ∧ t.g R.PWR_START_CORE = 1 ∧ t.frc = s.hw.frc ∧
    (s.hw.on R.PWR_DOM_GAR_AUTO = true → t.pwr.garEn = true)) ∧
  (∀ s : State, s.hw.pwr.garEn = true → s.hw.pwr.groups < s.hw.g R.PWR_DOM_GROUPS → (s.hw.pwr.groups = 0 ∨ s.hw.pwr.groupFrc + 2000 ≤ s.hw.frc) →
    Completes .garnetSwitchGroupEnable s fun t =>
      t.pwr.groups = s.hw.pwr.groups + 1 ∧ t.pwr.groupFrc = s.hw.frc ∧ s.hw.SameBut t []) ∧
  (∀ s : State, s.hw.pwr.aon = true → s.hw.pwr.autoDone = false → s.hw.pwr.releaseFrc + 10000 ≤ s.hw.frc → s.hw.on R.PWR_DOM_CORE_AUTO = true →
    Completes .coreAutoPowerUp s fun t => t.pwr.coreEn = true ∧ t.pwr.autoDone = true)

/-- O21: what the commands of the resets and the power domains do (R35, R36, R38, R557–R559). -/
def Obligations.ResetAndPowerCommandsDo : Prop :=
  (∀ s : State, exec .porstNAssert s = .next (s.clocked fun h =>
    Hw.s { Hw.resetFor h.prof with pwr := { Pwr.reset with tied := h.pwr.tied }, freeCtr := h.freeCtr, saf := { Saf.reset with testMode := h.saf.testMode } }
      R.SAF_STAT_HAZARD (b2n h.saf.testMode))) ∧
  (∀ s : State, s.hw.pwr.porst = true → exec .porstNRelease s = .next (s.clocked fun h =>
    Hw.s { h with frc := 0, pwr := { h.pwr with porst := false, aon := true, releaseFrc := 0, coreSince := 0, intFrc := 0 } } R.PWR_START_AON 1)) ∧
  Does .coreAutoPowerUp (fun h => h.pwr.aon = true ∧ h.pwr.autoDone = false ∧ h.pwr.coreEn = false ∧ h.pwr.releaseFrc + 10000 ≤ h.frc ∧
      h.on R.PWR_DOM_CORE_AUTO = true)
    (fun h => Hw.s { h with pwr := { h.pwr with autoDone := true, coreEn := true, coreEnFrc := h.frc } } R.PWR_DOM_CORE_ST 3) ∧
  Does .coreRstNAssert (fun h => h.pwr.aon = true) Hw.coreReset ∧
  Does .coreDomainResetRelease (fun h => h.pwr.porst = false ∧ h.pwr.coreEn = true ∧ h.pwr.core = false) (fun h =>
    let h := h.resetRegs coreGone
    let h := (Hw.s { h with pwr := { h.pwr with core := true, coreRst := false, isoCore := false }, claims := h.claims.filter fun c => alwaysOnPage c.2 }
      R.PWR_DOM_CORE_ST 1).s R.PWR_START_CORE 1
    if h.on R.PWR_DOM_GAR_AUTO then h.garnetUp else h) ∧
  Does .garRstNAssert (fun h => h.pwr.core = true) Hw.garnetReset ∧
  Does .garnetSwitchGroupEnable (fun h => h.pwr.garEn = true ∧ h.pwr.groups < h.g R.PWR_DOM_GROUPS ∧ (h.pwr.groups = 0 ∨ h.pwr.groupFrc + 2000 ≤ h.frc))
    (fun h => { h with pwr := { h.pwr with groups := h.pwr.groups + 1, groupFrc := h.frc } }) ∧
  Does .garnetDomainResetRelease (fun h => h.pwr.core = true ∧ h.pwr.garEn = true ∧ h.pwr.gar = false ∧ h.pwr.groups = h.g R.PWR_DOM_GROUPS ∧
      h.pwr.groupFrc + 2000 ≤ h.frc)
    (fun h => Hw.s { h.garnetPagesOff with pwr := { h.garnetPagesOff.pwr with gar := true, garRst := false, isoGar := false } } R.PWR_DOM_GAR_ST 1) ∧
  Does (.powerOkTimeout true) (fun h => h.pwr.garEn = true ∧ h.g R.PWR_DOM_GAR_ST = 3 ∧ h.pwr.garEnFrc + 1000000 ≤ h.frc)
    (fun h => h.garnetFault.faultPages garnetPages) ∧
  Does (.powerOkTimeout false) (fun h => h.pwr.coreEn = true ∧ h.g R.PWR_DOM_CORE_ST = 3 ∧ h.pwr.coreEnFrc + 1000000 ≤ h.frc)
    (fun h => h.coreFault.faultPages h.corePages) ∧
  Does (.domainFault true) (fun h => h.pwr.garEn = true) (fun h => h.garnetFault.faultPages garnetPages) ∧
  Does (.domainFault false) (fun h => h.pwr.coreEn = true) (fun h => h.coreFault.faultPages (h.corePages ++ garnetPages)) ∧
  (∀ a : Acc, Does (.pwrDomainOn a true) (fun h => h.Reach a 0x58 0x40 ∧ h.pwr.core = true) (fun h =>
    (Hw.garnetUp ((h.reply 0).s R.PWR_DOM_GAR_ON 1)).accepted 0x58)) ∧
  (∀ a : Acc, Does (.pwrDomainOn a false) (fun h => h.Reach a 0x58 0x40 ∧ h.pwr.porst = false) (fun h =>
    (Hw.coreUp ((h.reply 0).s R.PWR_DOM_CORE_ON 1)).accepted 0x58)) ∧
  (∀ a : Acc, Does (.pwrDomainOff a true) (fun h => h.Reach a 0x58 0x40 ∧ h.off 0x10 = true ∧ h.off 0x14 = true) (fun h =>
    (Hw.garnetDown ((h.reply 0).s R.PWR_DOM_GAR_ON 0)).accepted 0x58)) ∧
  (∀ a : Acc, Does (.pwrDomainOff a false) (fun h => h.Reach a 0x58 0x40 ∧ h.allOff [0x00, 0x54, 0x58] = true) (fun h =>
    (Hw.coreDown ((h.reply 0).s R.PWR_DOM_CORE_ON 0)).accepted 0x58)) ∧
  (∀ high : Bool, Does (.testModeChange high) (fun h => h.pwr.aon = true ∧ high = true) (fun h =>
    let h := (Hw.each { h with saf := { h.saf with testMode := true } } (List.range 4) fun h i => h.s (R.PWR_WAKE_STAT_WAKE.at i) 0).s R.SAF_STAT_HAZARD 1
    Hw.detection { h with trc := { h.trc with stopReq := false }, pwr := { h.pwr with pgoodWait := [] } }))

/-- O22: what the commands of the wake sequencer do (R565–R569, R576). -/
def Obligations.WakeCommandsDo : Prop :=
  (∀ a i bits alert, i < 4 → bits < 2 ^ 32 → Does (.pwrWakeReq a i bits alert) (fun h => h.prof = .t ∧
      (h.sampleAlert (alert % 256)).Reach a 0x58 (0x100 + 4 * i) ∧
      (Hw.wakeReq ((h.sampleAlert (alert % 256)).reply 0) i bits).isOk = true)
    (fun h => match Hw.wakeReq ((h.sampleAlert (alert % 256)).reply 0) i bits with
      | .ok k => k.accepted 0x58
      | .error _ => h)) ∧
  (∀ a i bits alert, i < 4 → bits < 2 ^ 32 → Does (.pwrWakeReq a i bits alert) (fun h => h.prof = .t ∧
      (h.sampleAlert (alert % 256)).Reach a 0x58 (0x100 + 4 * i) ∧
      ((maskOutputs i bits).any fun d => (h.sampleAlert (alert % 256)).dieStep d == 0) = true)
    (fun h => ((h.sampleAlert (alert % 256)).reply 0).err 0x58 E.badValue)) ∧
  (∀ alert pgood, Does (.wakeIntervalStart alert pgood) (fun h => h.prof = .t ∧ h.pwr.aon = true ∧ h.pwr.intFrc + h.pwr.intervalUs * 1000 ≤ h.frc)
    (fun h =>
      let p := { h.pwr with intFrc := h.pwr.intFrc + h.pwr.intervalUs * 1000, intervalUs := h.g R.PWR_WAKE_CFG_INTERVAL_US,
                            used := List.replicate 8 0, monUsed := List.replicate 8 0,
                            budget := (List.range 8).map fun s => h.g (R.PWR_BUDGET_A.at s), alertCounted := false }
      ((Hw.sampleAlert { h with pwr := p } (alert % 256)).samplePgood pgood).walk)) ∧
  (∀ a i bits, i < 4 → bits < 2 ^ 32 → Does (.pwrWakeOff a i bits) (fun h => h.prof = .t ∧ h.Reach a 0x58 (0x110 + 4 * i))
    (fun h => ((h.reply 0).wakeOff i bits).accepted 0x58)) ∧
  (∀ d, Does (.pgoodTimeout d) (fun h => h.pwr.aon = true ∧ (h.pwr.pgoodWait.any fun w => w.1 == d && w.2 ≤ h.frc) = true)
    (fun h => (Hw.setBits { h with pwr := { h.pwr with pgoodWait := h.pwr.pgoodWait.filter fun w => w.1 != d } }
      (R.PWR_PGOOD_FAIL_FAIL.at (d / 32)) (2 ^ (d % 32))).raise 0x58 17)) ∧
  (∀ d, d < 128 → Does (.diePgoodFall d) (fun h => h.prof = .t ∧ h.pwr.aon = true ∧ bit (h.g (R.PWR_PGOOD_PGOOD.at (d / 32))) (d % 32) = true ∧
      (h.dropBits (R.PWR_PGOOD_PGOOD.at (d / 32)) (2 ^ (d % 32))).wakeHigh d = true)
    (fun h => (h.dropBits (R.PWR_PGOOD_PGOOD.at (d / 32)) (2 ^ (d % 32))).pgoodFails d)) ∧
  (∀ a i bits, i < 4 → bits < 2 ^ 32 → Does (.pgoodFailClear a i bits) (fun h => h.prof = .t ∧ h.Reach a 0x58 (0x150 + 4 * i))
    (fun h => ((h.reply 0).clrBits (R.PWR_PGOOD_FAIL_FAIL.at i) bits).accepted 0x58))

/-- O23: what the commands of the page states do (R81, R84, R85, R87, R89–R92, R98, R112). -/
def Obligations.PageCommandsDo : Prop :=
  (∀ a p men, Does (.pageEnable a p men) (fun h => h.Reach a p 8 ∧ noEnable p = false ∧ (afterMen h p men).state p = 0 ∧
      (afterMen h p men).enableRefused p = none ∧ (afterMen h p men).cannotHave p = none ∧
      ((afterMen h p men).claim p ((afterMen h p men).needs p) ((afterMen h p men).needTimers p)).isOk = true)
    (fun h => match (afterMen h p men).claim p ((afterMen h p men).needs p) ((afterMen h p men).needTimers p) with
      | .ok k => ((k.setState p 1).onStart p).showNeed
      | .error _ => h)) ∧
  (∀ a p men, Does (.pageEnable a p men) (fun h => h.Reach a p 8 ∧ noEnable p = false ∧ (afterMen h p men).state p = 3)
    (fun h => (afterMen h p men).setState p 6)) ∧
  (∀ a p men, Does (.pageEnable a p men) (fun h => h.Reach a p 8 ∧ noEnable p = false ∧ ((afterMen h p men).state p = 4 ∨ (afterMen h p men).state p = 5))
    (fun h => (afterMen h p men).err p E.badState)) ∧
  (∀ a p men, Does (.pageDisable a p men) (fun h => h.Reach a p 8 ∧ noEnable p = false ∧ ((afterMen h p men).state p = 1 ∨ (afterMen h p men).state p = 2))
    (fun h => (((afterMen h p men).setState p 3).onDrain p).showWaits p)) ∧
  (∀ a p men, Does (.pageAbort a p men) (fun h => h.Reach a p 8 ∧ noEnable p = false ∧ ((afterMen h p men).state p = 1 ∨ (afterMen h p men).state p = 5) ∧
      (afterMen h p men).stuck p = false)
    (fun h =>
      let k := ((afterMen h p men).onAbort p).setState p 4
      Hw.showWaits { k with aborts := (p, k.frc) :: k.aborts.filter fun x => x.1 != p } p)) ∧
  (∀ a p men, Does (.pageAbort a p men) (fun h => h.Reach a p 8 ∧ noEnable p = false ∧ (afterMen h p men).stuck p = true)
    (fun h => afterMen h p men)) ∧
  (∀ p, Does (.pageStartComplete p) (fun h => p ≠ 0x54 ∧ h.present p = true ∧ h.state p = 1 ∧ noEnable p = false ∧ h.mayRun p = true)
    (fun h => ((h.setState p 2).onRunning p).showWaits p)) ∧
  (∀ p, Does (.pageDrainComplete p) (fun h => p ≠ 0x48 ∧ h.present p = true ∧ noEnable p = false ∧ h.state p = 3 ∧ h.drained p = true ∧
      (h.onDrained p).state p = 3)
    (fun h => (h.onDrained p).pageOff p)) ∧
  (∀ p, Does (.pageAbortComplete p) (fun h => h.present p = true ∧ noEnable p = false ∧ h.state p = 4 ∧ h.aborted p = true)
    (fun h => ((h.onOff p).pageOff p).setBits (R.PAGE_IRQ_STAT_ABORT_DONE p) 1)) ∧
  (∀ p since, Does (.abortBoundExpiry p) (fun h => h.aborts.find? (fun x => x.1 == p) = some (p, since) ∧ h.state p = 4 ∧
      since + h.g (R.PAGE_ABORT_BOUND_BOUND p) * 1000 ≤ h.frc)
    (fun h => Hw.abortOverrun { h with aborts := h.aborts.filter fun x => x.1 != p, overruns := p :: h.overruns } false p ((h.frc - since) / 1000 % 2 ^ 32))) ∧
  (∀ p code, E.defined code = true → (p ≠ 0x44 ∨ code ≠ E.diagMismatch) → Does (.pageFunctionFault p code) (fun h => h.present p = true ∧
      noEnable p = false ∧ (h.state p = 1 ∨ h.state p = 2 ∨ h.state p = 3 ∨ h.state p = 6))
    (fun h => ((h.fault p code).secLeft p).showWaits p)) ∧
  Does (.pageFunctionFault 0x44 E.diagMismatch) (fun h => h.present 0x44 = true ∧ (h.state 0x44 = 1 ∨ h.state 0x44 = 2 ∨ h.state 0x44 = 3 ∨ h.state 0x44 = 6))
    (fun h =>
      ((h.fresh.2.dangerous false 16 3 (h.fresh.1 % 2 ^ 16) (h.fresh.1 / 2 ^ 16 % 2 ^ 32)).fault 0x44 E.diagMismatch).showWaits 0x44) ∧
  (∀ p x y, Does (.memoryEccUncorrectable p 0 x y) (fun h => h.pwr.core = true ∧ h.present p = true ∧ noEnable p = false)
    (fun h => ((h.fault p E.eccUncorr).secLeft p).showWaits p)) ∧
  (∀ p x y, Does (.memoryEccUncorrectable p 2 x y) (fun h => h.pwr.core = true) (fun h => h.loseReserve x)) ∧
  (∀ a p v, v < 256 → p ≠ 0x10 → p ≠ 0x11 → p ≠ 0x12 → p ≠ 0x13 → Does (.pageOwnerWrite a p v) (fun h => h.Reach a p 0x1C ∧ h.off p = true ∧
      (v < h.contexts ∨ v = 0xFF))
    (fun h => ((h.reply 0).s (R.PAGE_OWNER_OWNER p) v).accepted p)) ∧
  (∀ a p, Does (.pageIrqStatClear a p 0xFFFFFFFF) (fun h => h.Reach a p 0x14 ∧ p ≠ 2 ∧ p ≠ 3)
    (fun h => (((((h.reply 0).clrBits (R.PAGE_IRQ_STAT_STATE_CHG p) 1).clrBits (R.PAGE_IRQ_STAT_ERROR p) 1).clrBits
      (R.PAGE_IRQ_STAT_ABORT_DONE p) 1).clrBits (R.PAGE_IRQ_STAT_CLAIM_FAIL p) 1).clrBits (R.PAGE_IRQ_STAT_FUNC_IRQ p) 0xFFFF)) ∧
  (∀ a r, r < 2 ^ 16 → Does (.claimQuery a r) (fun h => h.Reach a 0 0x60)
    (fun h =>
      let who := if h.absent r then 0xFF else (h.holder r).getD 0xFE
      let k := ((h.reply 0).s R.BLK_CLAIM_RESULT_RES r).s R.BLK_CLAIM_RESULT_HOLDER who
      (k.s R.BLK_CLAIM_RESULT_HCTX (if k.present who then k.g (R.PAGE_OWNER_OWNER who) else 0xFF)).accepted 0)) ∧
  (∀ a mhz, 200 ≤ mhz → mhz ≤ 1500 → Does (.blkCclkWrite a mhz) (fun h => h.Reach a 0 0x6C ∧ h.g R.BLK_CCLK_MHZ = mhz)
    (fun h => (h.reply 0).accepted 0)) ∧
  (∀ a mhz, 200 ≤ mhz → mhz ≤ 1500 → Does (.blkCclkWrite a mhz) (fun h => h.Reach a 0 0x6C ∧ (h.pwr.core = false ∨ h.allOff offCclk = true) ∧
      h.g R.BLK_CCLK_MHZ ≠ mhz)
    (fun h => (Hw.liveUpdate ((h.reply 0).s R.BLK_CCLK_MHZ mhz).showWidth 6 0 mhz (h.g R.BLK_CCLK_MHZ)).accepted 0)) ∧
  (∀ a p, Does (.pageErrRead a p) (fun h => h.Reach a p 0x10)
    (fun h => (((h.reply 0).s (R.PAGE_ERR_FIRST p) 0).s (R.PAGE_ERR_COUNT p) 0).reply (h.g (R.PAGE_ERR_FIRST p) + 65536 * h.g (R.PAGE_ERR_COUNT p))))

/-! ### Queues and the DMA port -/

/-- O24: what the host's commands on a queue do (R85, R87, R89, R101–R103, R105, R110, R510, R579). -/
def Obligations.QueueCommandsDo : Prop :=
  (∀ a q, Does (.queueEnable a q) (fun h => QueueReach h a q 0x40C ∧ h.qState q = 0 ∧ h.running (quePage q) = true ∧ h.ctxOn (h.qCtx q) = true)
    (fun h =>
      let k := (((h.reply 0).s (R.Q_HEAD_HEAD.at q) 0).s (R.CQ_HEAD_HEAD.at q) 0).s (R.CQ_TAIL_TAIL.at q) 0
      let k := if (h.queue q).bellOff then k else k.s (R.Q_TAIL_TAIL.at q) 0
      ((k.putQueue ⟨q, [], false, (h.queue q).irqCount, (h.queue q).irqFirst, 0, 0⟩).setQState q 1).accepted (quePage q))) ∧
  (∀ a q, Does (.queueEnable a q) (fun h => QueueReach h a q 0x40C ∧ h.qState q = 3 ∧ h.running (quePage q) = true ∧ h.ctxOn (h.qCtx q) = true)
    (fun h => ((h.reply 0).setQState q 6).accepted (quePage q))) ∧
  (∀ a q, Does (.queueEnable a q) (fun h => QueueReach h a q 0x40C ∧ (h.qState q = 0 ∨ h.qState q = 3) ∧
      ¬ (h.running (quePage q) = true ∧ h.ctxOn (h.qCtx q) = true))
    (fun h => (h.reply 0).queueErr q E.badState)) ∧
  (∀ q, Does (.queueStartComplete q) (fun h => h.qState q = 1) (fun h => (h.setQState q 2).setWait q)) ∧
  (∀ a q, Does (.queueDisable a q) (fun h => QueueReach h a q 0x40C ∧ (h.qState q = 1 ∨ h.qState q = 2))
    (fun h => (Hw.queueSettle (Hw.setQState ((h.reply 0).putQueue { h.queue q with drainTo := h.g (R.Q_TAIL_TAIL.at q) }) q 3) q).accepted
      (quePage q))) ∧
  (∀ a q, Does (.queueAbort a q) (fun h => QueueReach h a q 0x40C ∧ (h.qState q = 1 ∨ h.qState q = 2 ∨ h.qState q = 3 ∨ h.qState q = 6))
    (fun h => (Hw.queueSettle (Hw.setQState ((h.reply 0).putQueue { h.queue q with runs := endRuns E.aborted (h.queue q).runs }) q 4) q).accepted
      (quePage q))) ∧
  (∀ a q tail, tail < 65536 → Does (.queueDoorbell a q tail) (fun h => QueueReach h a q 0x418 ∧ (h.qState q = 1 ∨ h.qState q = 2 ∨ h.qState q = 6) ∧
      (tail + 65536 - h.g (R.Q_HEAD_HEAD.at q)) % 65536 ≤ 2 ^ h.g (R.Q_CFG_SQ_LOG.at q) ∧
      (h.g (R.Q_TAIL_TAIL.at q) + 65536 - h.g (R.Q_HEAD_HEAD.at q)) % 65536 ≤ (tail + 65536 - h.g (R.Q_HEAD_HEAD.at q)) % 65536)
    (fun h => ((h.reply 0).s (R.Q_TAIL_TAIL.at q) tail).accepted (quePage q))) ∧
  (∀ a q tail, Does (.queueDoorbell a q tail) (fun h => QueueReach h a q 0x418 ∧ (h.qState q = 3 ∨ h.qState q = 4 ∨ h.qState q = 5))
    (fun h => (h.reply 0).queueErr q E.badState)) ∧
  (∀ a q head, Does (.cqHeadWrite a q head) (fun h => QueueReach h a q 0x428 ∧
      (head % 65536 + 65536 - h.g (R.CQ_HEAD_HEAD.at q)) % 65536 ≤ h.cqUsed q)
    (fun h => (Hw.setWait ((h.reply 0).s (R.CQ_HEAD_HEAD.at q) head) q).accepted (quePage q))) ∧
  (∀ a n, Does (.queDbSumRead a n) (fun h => h.Reach a (2 + n % 2) 0x40)
    (fun h => ((h.reply 0).dropBits (R.QUE_DB_SUM_PEND.at (n % 2)) (h.g (R.QUE_DB_SUM_PEND.at (n % 2)))).reply (h.g (R.QUE_DB_SUM_PEND.at (n % 2))))) ∧
  (∀ a n bits, bits < 2 ^ 32 → Does (.queIrqPendClear a n bits) (fun h => h.Reach a (2 + n % 2) 0x44)
    (fun h => ((h.reply 0).clrBits (R.QUE_IRQ_PEND_PEND.at (n % 2)) bits).accepted (2 + n % 2))) ∧
  (∀ a n, Does (.queCompletionClear a n) (fun h => h.Reach a (2 + n % 2) 0x14 ∧ h.g (R.QUE_IRQ_PEND_PEND.at (n % 2)) = 0)
    (fun h => (h.reply 0).clrBits (R.PAGE_IRQ_STAT_FUNC_IRQ (2 + n % 2)) 1))

/-- O25: what the engines' commands on a queue do (R104, R105, R107, R109, R110, R516). -/
def Obligations.QueueWorkDoes : Prop :=
  (∀ q, Does (.queueEntryFetch q) (fun h => h.mayFetch q = true)
    (fun h =>
      let x := h.queue q
      let i := h.g (R.Q_HEAD_HEAD.at q)
      let k := h.putQueue { x with runs := x.runs ++ [⟨i, [], false, [], [], none, false, 0, false, false, 0, h.frc, 0⟩] }
      (k.s (R.Q_HEAD_HEAD.at q) (i + 1)).dmaRead (k.qCtx q) (k.sqAddr q i) 64 (.entry q i))) ∧
  (∀ q a n, Does (.listChain q) (fun h => ∃ r, (h.queue q).runs.find? (fun r => !r.ended && r.chain.isSome) = some r ∧ r.chain = some (a, n))
    (fun h => match (h.queue q).runs.find? (fun r => !r.ended && r.chain.isSome) with
      | some r => (h.onRun q r.index fun r => { r with chain := none }).dmaRead (h.qCtx q) a (64 * n) (.list q r.index)
      | none => h)) ∧
  (∀ q r rest, Does (.queueEntryComplete q) (fun h => (h.queue q).runs = r :: rest ∧ r.ended = true ∧ h.cqFull q = false)
    (fun h =>
      let t := h.g (R.CQ_TAIL_TAIL.at q)
      let a := h.g64 (R.CQ_BASE_LO_BASE.at q) (R.CQ_BASE_HI_BASE.at q) + 16 * (t % 2 ^ h.g (R.Q_CFG_CQ_LOG.at q))
      let k := (h.putQueue { h.queue q with runs := rest }).dmaWrite (h.qCtx q) a (h.completion q r) (.completion q)
      let k := (k.s (R.CQ_TAIL_TAIL.at q) (t + 1)).setBits (R.QUE_DB_SUM_PEND.at (q / 32)) (2 ^ (q % 32))
      let k := if r.code = 0 then k else (k.s (R.Q_STATE_ERR.at q) r.code).inc (R.Q_ERRCNT_COUNT.at q)
      let k := if bit (nth r.words 0) 33 then k.countIrq q else k
      (k.setWait q).queueSettle q)) ∧
  (∀ q, Does (.queueCoalTimeout q) (fun h => 0 < (h.queue q).irqCount ∧ h.g (R.Q_COAL_TIME.at q) ≠ 0 ∧
      (h.queue q).irqFirst + h.g (R.Q_COAL_TIME.at q) * 1000 ≤ h.frc)
    (fun h => Hw.putQueue ((h.setBits (R.QUE_IRQ_PEND_PEND.at (q / 32)) (2 ^ (q % 32))).raise (quePage q) 16) { h.queue q with irqCount := 0 })) ∧
  (∀ e charge c q r, Does (.descriptorStart e charge) (fun h => h.running (enginePage e) = true ∧ h.engineBusy e < h.engineLanes e ∧
      (h.noteReady e).pickNext e = some (c, q, r))
    (fun h => (h.noteReady e).startOne e charge c q r))

/-- O26: what a response of the DMA port does (R45, R46). -/
def Obligations.DmaResponsesDo : Prop :=
  (∀ (s : State) (id : Nat) (r : DmaReq), s.hw.dmaReq id = some r → r.write = true →
    exec (.dmaWriteResponse id) s = .next
      { s.on fun h => if r.whole then (h.dmaEnd id).writeDone r else h.dmaBack id with
        mem := Memory.writeBytes s.mem r.addr (r.bytes.take r.reached) }) ∧
  (∀ (s : State) (id : Nat) (r : DmaReq), s.hw.dmaReq id = some r →
    exec (.dmaErrorResponse id) s = .next (s.on fun h => (h.dmaEnd id).dmaFailed r)) ∧
  (∀ (s : State) (id : Nat) (r : DmaReq), s.hw.dmaReq id = some r → r.write = false →
    exec (.dmaReadComplete id) s = .next
      (s.on fun h => if r.whole then (h.dmaEnd id).readDone r (Memory.readBytes s.mem r.addr r.len) else h.dmaBack id)) ∧
  (∀ (s : State) (id : Nat) (r : DmaReq), Memory.wf s.mem = true → s.hw.dmaReq id = some r → r.write = true →
    ∃ t, exec (.dmaWriteResponse id) s = .next t ∧ ∀ x, (∀ i, i < r.bytes.length → x ≠ (r.addr + i) % 2 ^ 64) →
      Memory.read t.mem x = Memory.read s.mem x)

/-! ### Host accesses by address -/

/-- O27: what a host access by address does (R9, R42, R80, R365, R511): a write of PAGE_IRQ_EN, one of a function register, one with strobes that R42 does
not allow, a read of a counter that reading clears, and the read of TIM_NT0 that latches the rest of the time for its requester. -/
def Obligations.HostAccessesDo : Prop :=
  (∀ a p v, p < 256 → v < 2 ^ 32 → Does (.hostRegisterWrite a (4096 * p + 0x18) 0x0F v) (fun h => h.Reach a p 0x18)
    (fun h => (h.reply 0).s (R.PAGE_IRQ_EN_EN p) v)) ∧
  (∀ a low high, low < high → high < 256 → Does (.hostRegisterWrite a 0x30048 0x0F (high + 256 * low)) (fun h => h.Reach a 0x30 0x48 ∧ h.off 0x30 = true)
    (fun h => (((h.reply 0).s R.FLW_LEVEE_HIGH high).s R.FLW_LEVEE_LOW low).accepted 0x30)) ∧
  (∀ a addr strb data, strb % 256 ≠ 0x0F → strb % 256 ≠ 0xF0 → strb % 256 ≠ 0xFF →
    Does (.hostRegisterWrite a addr strb data) (fun _ => True) Hw.busError) ∧
  (∀ a, Does (.readClearCounterRead a 0x5C068 false) (fun h => h.Reach a 0x5C 0x68)
    (fun h => ((h.reply 0).s R.UPD_ROLLBACKS_COUNT 0).reply (h.g R.UPD_ROLLBACKS_COUNT % 2 ^ 32))) ∧
  (∀ a, Does (.latchingRegisterRead a 0x04050) (fun h => h.Reach a 0x04 0x50)
    (fun h => ((h.reply 0).latchRead a 0x04 0x50).reply (h.nt % 2 ^ 32)))

/-! ### Time, PTP and the step trackers -/

/-- O28: what the commands and the instants of network time do (R115, R120, R122–R125, R138–R140, R366). -/
def Obligations.TimeCommandsDo : Prop :=
  (∀ a, Does (.timStep a) (fun h => h.Reach a 0x04 0x4C ∧ h.g R.TIM_CFG_SOURCE ≠ 3 ∧ (h.g R.TIM_STATUS_SERVO = 2 ∨ h.g R.TIM_STATUS_SERVO = 3))
    (fun h => Hw.accepted { h.reply 0 with tim := { h.tim with stepPending := true } } 0x04)) ∧
  (∀ a, Does (.timStep a) (fun h => h.Reach a 0x04 0x4C ∧ (h.g R.TIM_CFG_SOURCE = 3 ∨ h.g R.TIM_STATUS_SERVO = 0 ∨ h.g R.TIM_STATUS_SERVO = 1 ∨
      h.g R.TIM_STATUS_SERVO = 4))
    (fun h => (h.reply 0).err 0x04 E.badState)) ∧
  (∀ a, Does (.timSet a) (fun h => h.Reach a 0x04 0x4C ∧ h.running 0x04 = true ∧ h.g R.TIM_CFG_SOURCE = 3)
    (fun h =>
      let nt := h.g (R.TIM_SET_NT_NT.at 0) + 2 ^ 32 * h.g (R.TIM_SET_NT_NT.at 1) + 2 ^ 64 * (h.g (R.TIM_SET_NT_NT.at 2) % 2 ^ 16)
      Hw.accepted { h.reply 0 with tim := { h.tim with setDue := h.tim.setDue ++ [nt * 2 ^ 32] } } 0x04)) ∧
  (∀ (h : Hw) t, h.tim.setDue = [t] → h.stepDue = Hw.stepTo { h with tim := { h.tim with setDue := [] } } t h.frc) ∧
  (∀ a, Does (.timSet a) (fun h => h.Reach a 0x04 0x4C ∧ (h.running 0x04 = false ∨ h.g R.TIM_CFG_SOURCE ≠ 3)) (fun h => (h.reply 0).err 0x04 E.badState)) ∧
  (∀ p, Does (.timeProbeTx p) (fun h => h.probes p = true ∧ (h.link p).up = true ∧ h.inService p = true ∧ (h.link p).lastProbe + 16000 ≤ h.frc)
    (fun h =>
      let t := ((h.nt : Int) + fine (if isCulvert p then h.g (R.CUL_LAT_TX.at p) else h.g (R.PTP_TX_LAT_LAT.at (fabIndex p)))).toNat
      let k := h.sendOut p (.probe p h.probeHeader [h.g R.TIM_STATUS_SERVO, h.g R.TIM_STATUS_TIME_LOST, h.g R.FLW_STAT_PRESSURE, h.g R.FLW_STAT_HEADROOM, t,
        (h.link p).probeRx.getD 0])
      k.onLink p fun x => { x with lastProbe := k.frc, probeT := some t })) ∧
  (∀ p hdr servo lost press head t1 f, Does (.timeProbeRx p 1 hdr servo lost press head (t1, none))
    (fun h => isCulvert p = true ∧ h.Hears p (probeFrame hdr) 7 f) (fun h => h.probed p servo lost press head)) ∧
  (∀ p hdr servo lost press head t1 t3 t4 f, Does (.timeProbeRx p 1 hdr servo lost press head (t1, some t4))
    (fun h => isCulvert p = true ∧ h.Hears p (probeFrame hdr) 7 f ∧ ((h.heard p).link p).probeT = some t3)
    (fun h =>
      let m := twoWay t1 (h.probeAt p) t3 t4
      let k := ((h.probed p servo lost press head).onLink p fun k => { k with delayNs := (m.1 / 65536).toNat }).triggerCond
      if k.prof = .l ∧ k.g R.TIM_CFG_SOURCE = 1 ∧ k.g R.TIM_STATUS_SRC_USED = p + 1 ∧ servo = 3 ∧ !lost then k.measure m.2 else k)) ∧
  (∀ p hdr servo lost press head stamps t2 f, Does (.timeProbeRx p 1 hdr servo lost press head stamps)
    (fun h => isCulvert p = false ∧ h.prof = .g ∧ h.longhaul p = true ∧ h.Hears p (probeFrame hdr) 7 f ∧ (h.takeStamp p).1 = some t2)
    (fun h => (h.heard p).hopExchange p t2 stamps)) ∧
  Does .holdoverLimitExpiry (fun h => h.faulted 0x04 = false ∧ h.g R.TIM_STATUS_SERVO = 4 ∧ h.tim.limitDone = false ∧ h.tim.holdFrc + h.holdLimit ≤ h.frc)
    (fun h => Hw.breach { h with tim := { h.tim with limitDone := true } } 6 0x09 h.timBound) ∧
  Does .holdoverBoundTimeLost (fun h => h.faulted 0x04 = false ∧ h.g R.TIM_STATUS_SERVO = 4 ∧ h.tim.holdBound ≠ 0xFFFF ∧ 10000 < h.timBound ∧ h.on R.TIM_STATUS_TIME_LOST = false)
    (fun h =>
      let k := ((h.s R.TIM_STATUS_TIME_LOST 1).err 0x04 E.timeLost).raise 0x04 17
      let k := k.event 0x0011 2 (le 8 (unsigned 64 ((h.timBound * 65536 : Nat) : Int)) ++ [1])
      Hw.breach { k with flw := { k.flw with lflags := k.flw.lflags ||| 4 } } 6 0x08 0) ∧
  Does .sourceChangeSettled (fun h => h.faulted 0x04 = false ∧ h.tim.srcUntil ≠ 0 ∧ h.tim.srcUntil ≤ h.frc) (fun h => { h with tim := { h.tim with srcUntil := 0 } }) ∧
  (∀ t, Does .transientSettleExpiry (fun h => h.faulted 0x04 = false ∧ h.tim.belowSince = some t ∧ t + h.g R.TIM_TRANSIENT_SETTLE_MS * 1000000 ≤ h.frc ∧
      h.on R.TIM_STATUS_TRANSIENT = true ∧ h.prof = .l)
    (fun h => (h.s R.TIM_STATUS_TRANSIENT 0).restore 6 0x0A)) ∧
  (∀ t, Does .transientSettleExpiry (fun h => h.faulted 0x04 = false ∧ h.tim.belowSince = some t ∧ t + h.g R.TIM_TRANSIENT_SETTLE_MS * 1000000 ≤ h.frc ∧
      h.on R.TIM_STATUS_TRANSIENT = true ∧ h.prof ≠ .l)
    (fun h => (Hw.s { h with tim := { h.tim with widenUntil := h.frc + 3 * logNs h.ptp.syncLog } } R.TIM_STATUS_TRANSIENT 0).restore 6 0x0A)) ∧
  (∀ t x, Does (.hwTimerFire t) (fun h => h.timer t = some x ∧ x.next ≤ h.ns ∧ x.late = false ∧ (∀ y ∈ h.tim.timers, y.next ≤ h.ns → t ≤ y.num))
    (fun h => Hw.timerActs { h with tim := { h.tim with
        timers := h.tim.timers.map fun y => if y.num = t then { y with next := x.next + max 1 x.period, late := false } else y } } x.use
      ((x.next - x.base) / max 1 x.period)))

/-- O29: what the frames, pulses and instants of PTP do (R53–R55, R126, R127, R130, R135). -/
def Obligations.PtpCommandsDo : Prop :=
  (∀ i bs bad, Does (.ptpFrameRx i (bs, bad)) (fun h => i < h.fabrics ∧ (bad = true ∨ 9216 < wireBytes 0 bs.length))
    (fun h => (h.takeStamp (0x200 + i)).2.discard (0x200 + i))) ∧
  (∀ i bs, Does (.ptpFrameRx i (bs, false)) (fun h => i < h.fabrics ∧ (h.takeStamp (0x200 + i)).2.running 0x05 = false ∧ wireBytes 0 bs.length ≤ 9216)
    (fun h => (h.takeStamp (0x200 + i)).2)) ∧
  (∀ i bs, Does (.ptpFrameRx i (bs, false)) (fun h => i < h.fabrics ∧ (h.takeStamp (0x200 + i)).2.running 0x05 = true ∧
      wireBytes 0 bs.length ≤ 9216 ∧ readPtp bs = none)
    (fun h => (h.takeStamp (0x200 + i)).2.inc (R.PTP_DISCARD_COUNT.at i))) ∧
  (∀ i bs m, Does (.ptpFrameRx i (bs, false)) (fun h => i < h.fabrics ∧ (h.takeStamp (0x200 + i)).2.running 0x05 = true ∧
      wireBytes 0 bs.length ≤ 9216 ∧ readPtp bs = some m ∧ m.typ ≠ 2 ∧ m.typ ≠ 3 ∧ m.typ ≠ 10 ∧
      ((h.takeStamp (0x200 + i)).2.pickPort i m).ocTakes i m = true)
    (fun h =>
      let a := h.takeStamp (0x200 + i)
      let k := a.2.pickPort i m
      let out := if m.typ < 2 ∧ a.1.isNone ∨ 4608 < wireBytes 0 bs.length then [] else k.tcPorts i
      (k.ocTake i m a.1).each out fun k j => k.tcSend i bs m a.1 j)) ∧
  (∀ i bs m, Does (.ptpFrameRx i (bs, false)) (fun h => i < h.fabrics ∧ (h.takeStamp (0x200 + i)).2.running 0x05 = true ∧
      wireBytes 0 bs.length ≤ 4608 ∧ readPtp bs = some m ∧ m.typ ≠ 2 ∧ m.typ ≠ 3 ∧ m.typ ≠ 10 ∧
      ((h.takeStamp (0x200 + i)).2.pickPort i m).ocTakes i m = false ∧ (2 ≤ m.typ ∨ (h.takeStamp (0x200 + i)).1.isSome = true) ∧
      ((h.takeStamp (0x200 + i)).2.pickPort i m).tcPorts i ≠ [])
    (fun h =>
      let a := h.takeStamp (0x200 + i)
      let k := a.2.pickPort i m
      k.each (k.tcPorts i) fun k j => k.tcSend i bs m a.1 j)) ∧
  (∀ i, Does (.tsRxSofPulse i) (fun h => h.ptpHas i = true)
    (fun h => h.onPort i fun x =>
      if x.stamps.length < 16 then { x with stamps := x.stamps ++ [h.pulseNt (h.g (R.PTP_RX_DLY_DELAY.at i))] } else { x with beyond := true })) ∧
  (∀ i predicted seq l, Does (.tsTxSofPulse i) (fun h => h.ptpHas i = true ∧ (h.ptpPort i).sent = (0, predicted, seq) :: l)
    (fun h => (h.onPort i fun x => { x with sent := l }).checkEgress i predicted (h.pulseNt (h.g (R.PTP_TX_LAT_DELAY.at i))))) ∧
  (∀ i predicted seq l, Does (.tsTxSofPulse i) (fun h => h.ptpHas i = true ∧ (h.ptpPort i).sent = (1, predicted, seq) :: l)
    (fun h =>
      let k := h.onPort i fun x => { x with sent := l }
      let t := h.pulseNt (h.g (R.PTP_TX_LAT_DELAY.at i))
      k.ptpSend i 3 0 (ptpHeader 8 44 (k.g R.PTP_CFG_DOMAIN) 0 (t % 65536 : Nat) (k.portIdentity i) seq 2 (signed 4 (k.g R.PTP_CFG_LOG_SYNC)) ++
        timeBytes t))) ∧
  (∀ i, Does (.ptpSyncTx i) (fun h => h.ptpHas i = true ∧ h.ptpMaster = true ∧ h.elapsed (h.ptpPort i).syncFrc (logNs (signed 4 (h.g R.PTP_CFG_LOG_SYNC))) = true)
    (fun h =>
      let q := (h.ptpPort i).syncSeq
      let log := signed 4 (h.g R.PTP_CFG_LOG_SYNC)
      let k := h.onPort i fun x => { x with syncFrc := some h.frc, syncSeq := (x.syncSeq + 1) % 65536 }
      k.ptpSend i 1 q (ptpHeader 0 44 (k.g R.PTP_CFG_DOMAIN) 2 0 (k.portIdentity i) q 0 log ++ timeBytes 0))) ∧
  Does .ptpDelayReqTx (fun h => h.ptpHas h.slavePort = true ∧ h.ptpSlave = true ∧ h.ptp.alive = true ∧
      h.elapsed h.ptp.dreqFrc (logNs (signed 4 (h.g R.PTP_CFG_LOG_DREQ))) = true)
    (fun h =>
      let i := h.slavePort
      let q := h.ptp.dreqSeq
      let k := { h with ptp := { h.ptp with dreqFrc := some h.frc, dreqSeq := (q + 1) % 65536, dreq := some (q, none) } }
      k.ptpSend i 2 q (ptpHeader 1 44 (k.g R.PTP_CFG_DOMAIN) 0 (-(k.asym i)) (k.portIdentity i) q 1 127 ++ timeBytes 0)) ∧
  (∀ i, Does (.ptpAnnounceTx i) (fun h => h.ptpHas i = true ∧ h.ptpMaster = true ∧ h.elapsed (h.ptpPort i).annFrc 1000000000 = true)
    (fun h =>
      let q := (h.ptpPort i).annSeq
      let k := h.onPort i fun x => { x with annFrc := some h.frc, annSeq := (x.annSeq + 1) % 65536 }
      k.ptpSend i 3 0 (ptpHeader 11 64 (k.g R.PTP_CFG_DOMAIN) 0 0 (k.portIdentity i) q 5 0 ++ timeBytes 0 ++
        [0, 0, 0, 128, 248, 0xFE, 0xFF, 0xFF, 128] ++ k.clockId ++ [0, 0, 0xA0]))) ∧
  Does .ptpSlavePortTimeout (fun h => h.running 0x05 = true ∧ h.ptpSlave = true ∧ h.ptp.alive = true ∧
      h.ptp.lastSync + 3 * logNs h.ptp.syncLog ≤ h.frc ∧ h.ptp.backup = false ∧ h.on R.PTP_CFG_BACKUP_EN = true)
    (fun h => h.slaveOn true) ∧
  Does .ptpSlavePortTimeout (fun h => h.running 0x05 = true ∧ h.ptpSlave = true ∧ h.ptp.alive = true ∧
      h.ptp.lastSync + 3 * logNs h.ptp.syncLog ≤ h.frc ∧ (h.ptp.backup = true ∨ h.on R.PTP_CFG_BACKUP_EN = false))
    (fun h => Hw.showSlave { h with ptp := { h.ptp with alive := false, run := none } }) ∧
  (∀ i m t1 t2 t3 t4, Does (.longhaulTimeRecord i t1 t2 t3 t4) (fun h => h.prof = .g ∧ h.ptpHas i = true ∧ h.longhaul (0x200 + i) = true ∧
      h.elapsed (h.ptpPort i).hopFrc 1000000000 = true ∧ (h.link (0x200 + i)).exch = some m)
    (fun h => h.hopRecord i m)) ∧
  (∀ i t1 t2 t3 t4, Does (.longhaulTimeRecord i t1 t2 t3 t4) (fun h => h.prof = .g ∧ h.ptpHas i = true ∧ h.longhaul (0x200 + i) = true ∧
      h.elapsed (h.ptpPort i).hopFrc 1000000000 = true ∧ (h.link (0x200 + i)).exch = none ∧ t2 ≤ h.frc ∧ t3 ≤ h.frc)
    (fun h => h.hopRecord i (twoWay t1 (h.captured t2 (-(h.g (R.PTP_RX_DLY_DELAY.at i) : Int))) (h.captured t3 (h.g (R.PTP_TX_LAT_LAT.at i))) t4)))

/-- O30: what the marks, time-outs and commands of the step trackers do (R64, R65, R146, R150–R166). -/
def Obligations.TrackerCommandsDo : Prop :=
  Does (.stepMarkEdge true) (fun h => h.prof = .l ∧ h.pwr.core = true) (fun h => (h.count 5 0x01F 0 1).stepMark 0 h.frc) ∧
  (∀ t high, 4 ≤ high → Does (.stepInEdge t high) (fun h => h.prof = .t ∧ h.pwr.core = true ∧
      bit (h.g (R.STP_IN_MASK_MASK.at (t / 32))) (t % 32) = true ∧ h.g (R.STP_IN_CFG_FILTER.at t) ≤ high)
    (fun h => h.stepMark t (h.frc - high - h.g (R.STP_IN_CFG_DELAY.at t)))) ∧
  (∀ j, j < 15 → Does (.phaseMarkEdge j true) (fun h => h.prof = .l ∧ h.pwr.core = true) (fun h => (h.count 5 (0x010 + j) 0 1).latchMark j)) ∧
  (∀ (h : Hw) j, j < 15 → h.stp.marks = [j] → h.tickMarks = Hw.phaseMark { h with stp := { h.stp with marks := [] } } j) ∧
  (∀ (h : Hw) i j, i < j → j < 15 → h.stp.marks = [j, i] → h.tickMarks = (Hw.phaseMark { h with stp := { h.stp with marks := [] } } i).phaseMark j) ∧
  (∀ t, Does (.angleLate t) (fun h => h.running 0x06 = true ∧ h.trkState t = 3 ∧ (h.trackerOf t).internal h.frc = 0xFFFF)
    (fun h => h.s (R.TRK_STAT_LATE.at t) 1)) ∧
  (∀ t, Does (.trackerStallTimeout t) (fun h => h.running 0x06 = true ∧ h.trkState t = 3 ∧
      2 * (h.trackerOf t).pPred < (((h.frc - (h.trackerOf t).fLast) * 2 ^ 16 : Nat) : Int))
    (fun h => h.stallTimeout t)) ∧
  (∀ t, Does (.acquireTimeout t) (fun h => h.running 0x06 = true ∧ h.trkState t = 2 ∧ h.periodMax < (h.frc - (h.trackerOf t).fLast) * 2 ^ 16)
    (fun h => h.stallTimeout t)) ∧
  (∀ t, Does (.scheduleAngleFire t) (fun h => h.running 0x06 = true) (fun h => h.latchPoint (.entry t false))) ∧
  (∀ t, Does (.scheduleMarkMissingFire t) (fun h => h.running 0x06 = true) (fun h => h.latchPoint (.entry t true))) ∧
  (∀ t, Does (.scheduleAngleFire t) (fun h => h.running 0x06 = false) (fun h => h)) ∧
  (∀ t, Does (.scheduleMarkMissingFire t) (fun h => h.running 0x06 = false) (fun h => h)) ∧
  (∀ (h : Hw) t a e l, h.running 0x06 = true → h.stp.marks = [] → h.stp.points = [.entry t false] → h.unfired t = (a, e, false) :: l →
    h.trkState t ≠ 4 → a ≤ h.angleOf (h.trackerOf t) →
    (∀ u, u < h.trackerCount → ∀ y ∈ h.dueEntry u, ¬ (y.1 < a ∨ (y.1 = a ∧ y.2.1.num < e.num))) →
    h.tickSteps =
      (Hw.putTracker { h with stp := { h.stp with marks := [], points := [] } } { h.trackerOf t with fired := e.num :: (h.trackerOf t).fired }).act e
        (some t) 0) ∧
  (∀ (h : Hw) t a e l u y, u < 128 → h.prof = .t → h.running 0x06 = true → h.stp.marks = [] → h.stp.points = [.entry t false] →
    h.unfired t = (a, e, false) :: l → h.dueEntry u = some y → (y.1 < a ∨ (y.1 = a ∧ y.2.1.num < e.num)) →
    h.tickSteps = { h with stp := { h.stp with marks := [], points := [] } }) ∧
  (∀ (h : Hw) t a e l, h.running 0x06 = true → h.stp.marks = [] → h.stp.points = [.entry t true] → h.unfired t = (a, e, true) :: l →
    h.trkState t ≠ 4 → a ≤ h.angleOf (h.trackerOf t) →
    (∀ u, u < h.trackerCount → ∀ y ∈ h.dueEntry u, ¬ (y.1 < a ∨ (y.1 = a ∧ y.2.1.num < e.num))) →
    h.tickSteps =
      ((Hw.inc { h with stp := { h.stp with marks := [], points := [] } } (R.PH_MISS_COUNT.at e.phase)).putTracker
        { h.trackerOf t with fired := e.num :: (h.trackerOf t).fired }).act e (some t) 0) ∧
  (∀ (h : Hw) num n e, h.running 0x06 = true → h.stp.marks = [] → h.stp.points = [.timed num n] → (h.stp.table.find? fun e => e.num == num) = some e →
    h.tickSteps = Hw.act { h with stp := { h.stp with marks := [], points := [] } } e none n) ∧
  (∀ a t, Does (.stpSwap a t) (fun h => h.Reach a 0x06 0x50 ∧ t < h.trackerCount ∧ h.off 0x06 = true ∧ h.shadowTable.all h.entryLegal = true)
    (fun h => Hw.accepted { h.reply 0 with stp := { h.stp with table := h.shadowTable, pending := none } } 0x06)) ∧
  (∀ a t k, Does (.stpSwap a t) (fun h => h.Reach a 0x06 0x50 ∧ t < h.trackerCount ∧ h.off 0x06 = false ∧ h.running 0x06 = true ∧
      h.shadowTable.all h.entryLegal = true ∧ (h.reply 0).claim 0x06 (schPins h.shadowTable) (schTimers h.shadowTable) = .ok k)
    (fun h => Hw.accepted (Hw.s { k with stp := { k.stp with pending := some (h.shadowTable, t) } } R.STP_SCHED_STAT_SWAP_PENDING 1) 0x06)) ∧
  (∀ a t, Does (.stpSwap a t) (fun h => h.Reach a 0x06 0x50 ∧ t < h.trackerCount ∧ (h.off 0x06 = true ∨ h.running 0x06 = true) ∧
      h.shadowTable.all h.entryLegal = false)
    (fun h => ((h.reply 0).err 0x06 E.badValue).dropSwap)) ∧
  (∀ a t, Does (.stpSetIndex a t) (fun h => h.Reach a 0x06 0x50 ∧ t < h.trackerCount ∧
      h.g R.STP_INDEX_SET_LO_INDEX + 2 ^ 32 * h.g R.STP_INDEX_SET_HI_INDEX ≠ 2 ^ 48 - 1)
    (fun h => ((h.reply 0).putTracker { h.trackerOf t with
      loadIndex := some (h.g R.STP_INDEX_SET_LO_INDEX + 2 ^ 32 * h.g R.STP_INDEX_SET_HI_INDEX) }).accepted 0x06)) ∧
  (∀ a v, v < 2 → Does (.stpTrkEnWrite a 0 v) (fun h => h.Reach a 0x06 0x80 ∧ h.prof = .l)
    (fun h => (((h.reply 0).s (R.STP_TRK_EN_EN.at 0) v).each (List.range 32) fun h t =>
      if bit v (t % 32) then (if h.trkState t = 0 && h.running 0x06 then h.trackerIdle t else h)
      else if h.trkState t = 0 then h
      else ((h.s (R.TRK_STAT_REASON.at t) 3).stepRecord t 0 3 0 h.frc).trackerOff t).accepted 0x06)) ∧
  (∀ a i v, i < 4 → v < 2 ^ 32 → Does (.stpTrkEnWrite a i v) (fun h => h.Reach a 0x06 (0x80 + 4 * i) ∧ h.prof ≠ .l ∧
      v &&& h.g (R.STP_IN_MASK_MASK.at i) ≠ v)
    (fun h => (h.reply 0).err 0x06 E.badValue))

/-- O31: what the commands of counters, frames and the management buses do (R174, R176, R177, R189, R206–R209). -/
def Obligations.FrameCommandsDo : Prop :=
  (∀ a, Does (.frmCaptureFull a) (fun h => h.Reach a 0x09 0x48 ∧ h.running 0x09 = true) (fun h => ((h.reply 0).captureFull none).accepted 0x09)) ∧
  (∀ a set, Does (.frmCaptureSet a set) (fun h => h.Reach a 0x09 0x48 ∧ h.running 0x09 = true ∧ h.prof = .l)
    (fun h => ((h.reply 0).capture (some (set % 16))).accepted 0x09)) ∧
  (∀ a, Does (.frmSync a) (fun h => h.Reach a 0x09 0x48 ∧ h.running 0x09 = true)
    (fun h => ((h.reply 0).each (h.flw.streams.map fun s => s.source) fun h src => h.syncStream src).accepted 0x09)) ∧
  (∀ a set, Does (.frmCaptureSet a set) (fun h => h.Reach a 0x09 0x48 ∧ h.running 0x09 = false) (fun h => (h.reply 0).err 0x09 E.badState)) ∧
  Does .partialTokenRefill (fun h => h.running 0x09 = true ∧ h.cnt.tokenFrc + 25000 ≤ h.frc)
    (fun h => { h with cnt := { h.cnt with tokens := min 8 (h.cnt.tokens + 1), tokenFrc := h.cnt.tokenFrc + 25000 } }) ∧
  (∀ a v, v < 2 ^ 64 → Does (.cntSoftWrite a v) (fun h => h.Reach a 0x08 0x58 ∧ h.prof = .l ∧ h.g (R.CNT_SRC_CLASS.at (h.g R.CNT_SOFT_SLOT_SLOT)) = 7 ∧
      h.running 0x08 = true)
    (fun h =>
      let n := h.g R.CNT_SOFT_SLOT_SLOT
      let k := (h.reply 0).setSlot n (h.slotVal n + v)
      Hw.accepted { k with cnt := { k.cnt with soft := (n, v, k.frc) :: k.cnt.soft.filter fun x => x.2.2 == k.frc } } 0x08)) ∧
  (∀ a v, Does (.cntSoftWrite a v) (fun h => h.Reach a 0x08 0x58 ∧ (h.prof ≠ .l ∨ h.g (R.CNT_SRC_CLASS.at (h.g R.CNT_SOFT_SLOT_SLOT)) ≠ 7))
    (fun h => (h.reply 0).err 0x08 E.badValue)) ∧
  (∀ b x, Does (.proxyPollStart b) (fun h => h.prof = .t ∧ (h.state 0x0A = 2 ∨ h.state 0x0A = 3 ∨ h.state 0x0A = 6) ∧ h.busBusy b = false ∧
      h.waiting b = some x)
    (fun h =>
      let p := x.num
      let latched := h.g (R.PRX_DIE_LATCH_MODE.at p) = 1
      let dly : Int := if latched then signed 16 (h.g (R.PRX_LATCH_DLY_DLY.at p)) else 0
      let st := { Hw.stampAt { h with frc := ((h.frc : Int) + dly).toNat } (h.g (R.PRX_DIE_TRACKER.at p)) 1 with
        nt := unsigned 80 ((h.nt : Int) + dly * 65536) }
      (h.putProxy { x with due := none, busy := true, stamp := st }).emit
        (.busPoll b p (h.g (R.PRX_DIE_ADDR.at p)) (h.g (R.PRX_BUS_CFG_MODE.at b)) (h.on (R.PRX_BUS_CFG_PEC.at b))
          (if latched then some (h.g (R.PRX_LATCH_REG.at p), h.g (R.PRX_LATCH_VAL.at p)) else none)
          ((h.segments p).map fun s =>
            (h.g (R.PRX_SEG_REG.at (p * 16 + s.1)), h.g (R.PRX_SEG_COUNT.at (p * 16 + s.1)), 2 ^ h.g (R.PRX_SEG_WIDTH.at (p * 16 + s.1))))))) ∧
  (∀ p segs span, Does (.proxyPollComplete p segs span) (fun h => h.prof = .t ∧ (h.proxyOf p).busy = true ∧
      (h.state 0x0A = 2 ∨ h.state 0x0A = 3 ∨ h.state 0x0A = 6) ∧
      ((h.segments p).isEmpty || ((h.segments p).filter fun s => bit (h.readSegs p (h.segments p) 0 segs { h.proxyOf p with busy := false } 0).2 s.1).length !=
        (h.segments p).length) = true)
    (fun h =>
      let r := h.readSegs p (h.segments p) 0 segs { h.proxyOf p with busy := false } 0
      let bad := ((h.segments p).filter fun s => bit r.2 s.1).length
      let k := { h with trc := { h.trc with polled := p :: h.trc.polled } }
      let k := ((k.putProxy r.1).inc (R.PRX_POLLS_COUNT.at p)).add (R.PRX_STALE_COUNT.at p) bad
      let k := (k.s (R.PRX_STAT_FAIL_RUN.at p) 0).s (R.PRX_STAT_UNREACHABLE.at p) 0
      let key := k.nodeId * 128 + p
      let k := { k with agt := { k.agt with unreachable := k.agt.unreachable.filter (· != key) } }
      let latch := k.g (R.PRX_DIE_LATCH_MODE.at p) == 1
      if !k.running 0x09 || !k.running 0x08 then k.pollOver p else
      Hw.pollOver (k.encode (k.frameStream (some p) 1) ⟨r.1.vals, false, r.2, !latch, if latch then 0 else min span (2 ^ 32 - 1), r.1.stamp⟩) p)) ∧
  (∀ p segs span, Does (.proxyPollComplete p segs span) (fun h => h.prof = .t ∧ (h.proxyOf p).busy = true ∧
      (h.state 0x0A = 2 ∨ h.state 0x0A = 3 ∨ h.state 0x0A = 6) ∧ h.segments p ≠ [] ∧
      ((h.segments p).filter fun s => bit (h.readSegs p (h.segments p) 0 segs { h.proxyOf p with busy := false } 0).2 s.1).length = (h.segments p).length)
    (fun h =>
      let r := h.readSegs p (h.segments p) 0 segs { h.proxyOf p with busy := false } 0
      let k := { h with trc := { h.trc with polled := p :: h.trc.polled } }
      ((((k.putProxy r.1).inc (R.PRX_POLLS_COUNT.at p)).add (R.PRX_STALE_COUNT.at p) (h.segments p).length).pollFailed p).pollOver p)) ∧
  (∀ p segs span, Does (.proxyPollComplete p segs span) (fun h => h.prof = .t ∧ (h.proxyOf p).busy = true ∧ h.state 0x0A ≠ 2 ∧ h.state 0x0A ≠ 3 ∧
      h.state 0x0A ≠ 6)
    (fun h => (h.putProxy { h.proxyOf p with busy := false }).pollOver p))

/-! ### Taps, checks and the tree engine -/

/-- O32: what the beats of a tap and the commands of windows do (R230–R236, R252). -/
def Obligations.TapCommandsDo : Prop :=
  (∀ tap fmt tag bs err full digFull, fmt ≠ 7 → Does (.tapSot tap fmt tag bs err full digFull) (fun h =>
      let k := (h.countBeat tap err).count 2 tap 1 1
      k.running 0x10 = true ∧ k.on (R.TAP_CFG_EN.at tap) = true ∧ k.tensor tap = none ∧ k.matchBinding tap tag = none)
    (fun h => ((h.countBeat tap err).count 2 tap 1 1).inc R.GAR_UNBOUND_COUNT)) ∧
  (∀ tap fmt tag bs b n, fmt < 6 → Does (.tapSot tap fmt tag bs false false false) (fun h =>
      let k := (h.countBeat tap false).count 2 tap 1 1
      k.running 0x10 = true ∧ k.on (R.TAP_CFG_EN.at tap) = true ∧ k.tensor tap = none ∧ k.matchBinding tap tag = some b ∧
      k.on (R.TAP_CFG_HDR.at tap) = false ∧ (k.takeTensor b tag).2 = some n ∧ k.on (R.BIND_CTL_FMT_OVR.at b) = false)
    (fun h =>
      let k := (h.countBeat tap false).count 2 tap 1 1
      let m := (k.takeTensor b tag).1.inc (R.BIND_TENSORS_COUNT.at b)
      m.tensorData ⟨tap, fmt, fmt, 0, none, 0, tag, some b, m.g (R.BIND_CTL_MODE.at b), some n, m.g (R.BIND_CTL_WINDOW.at b), m.on (R.BIND_CTL_DIG.at b), false,
        [], m.frc⟩ bs)) ∧
  (∀ tap fmt tag bs b n, fmt < 6 → fld bs 0 8 % 32 = 0 → Does (.tapSot tap fmt tag bs false false false) (fun h =>
      let k := (h.countBeat tap false).count 2 tap 1 1
      k.running 0x10 = true ∧ k.on (R.TAP_CFG_EN.at tap) = true ∧ k.tensor tap = none ∧ k.matchBinding tap tag = some b ∧
      k.on (R.TAP_CFG_HDR.at tap) = true ∧ (k.takeTensor b tag).2 = some n ∧ k.on (R.BIND_CTL_FMT_OVR.at b) = false)
    (fun h =>
      let k := (h.countBeat tap false).count 2 tap 1 1
      let m := (k.takeTensor b tag).1.inc (R.BIND_TENSORS_COUNT.at b)
      m.putTensor ⟨tap, fmt, fmt, fld bs 0 8, some (fld bs 8 8), 0, tag, some b, m.g (R.BIND_CTL_MODE.at b), some n, m.g (R.BIND_CTL_WINDOW.at b),
        m.on (R.BIND_CTL_DIG.at b), false, [], m.frc⟩)) ∧
  (∀ tap fmt tag bs err full digFull t, Does (.tapSot tap fmt tag bs err full digFull) (fun h =>
      let k := (h.countBeat tap err).count 2 tap 1 1
      k.tensor tap = some t ∧ (k.tensorEnd t true).running 0x10 = false)
    (fun h => ((h.countBeat tap err).count 2 tap 1 1).tensorEnd t true)) ∧
  (∀ tap bs t, Does (.tapBeat tap t.tapFmt bs false false false) (fun h => (h.countBeat tap false).tensor tap = some t)
    (fun h => (h.countBeat tap false).tensorData t bs)) ∧
  (∀ tap fmt bs digFull t, Does (.tapBeat tap fmt bs true false digFull) (fun h => (h.countBeat tap true).tensor tap = some t)
    (fun h => (h.countBeat tap true).tensorEnd t true)) ∧
  (∀ tap fmt bs err digFull t, Does (.tapBeat tap fmt bs err true digFull) (fun h => (h.countBeat tap err).tensor tap = some t)
    (fun h => (((h.countBeat tap err).inc (R.TAP_OVF_COUNT.at tap)).choice 5).tensorEnd t true)) ∧
  (∀ tap bs t u, Does (.tapEot tap t.tapFmt bs false false false) (fun h => (h.countBeat tap false).tensor tap = some t ∧
      ((h.countBeat tap false).tensorData t bs).tensor tap = some u)
    (fun h => ((h.countBeat tap false).tensorData t bs).tensorEnd u false)) ∧
  (∀ tap t, Does (.tapTensorIdleTimeout tap) (fun h => h.faulted 0x10 = false ∧ h.tensor tap = some t ∧ t.lastFrc + 100000 ≤ h.frc) (fun h => h.tensorEnd t true)) ∧
  (∀ w, w < 16 → Does (.windowCloseComplete w) (fun h =>
      let k := h.each (h.windowAccounts w) fun k n => k.closeFor (h.win w) n
      h.faulted 0x10 = false ∧ h.on (R.WIN_STAT_CLOSING.at w) = true ∧ h.windowBusy w = false ∧
      ((k.s (R.WIN_STAT_CLOSING.at w) 0).inc (R.WIN_STAT_INSTANCES.at w)).on (R.WIN_STAT_DEFER.at w) = false)
    (fun h =>
      let k := h.each (h.windowAccounts w) fun k n => k.closeFor (h.win w) n
      (k.s (R.WIN_STAT_CLOSING.at w) 0).inc (R.WIN_STAT_INSTANCES.at w))) ∧
  (∀ a w, w < 16 → Does (.winCmdOpen a w) (fun h => h.Reach a 0x13 0x80 ∧ h.running 0x10 = true ∧ h.on (R.WIN_STAT_CLOSING.at w) = false ∧
      h.on (R.WIN_STAT_OPEN.at w) = false)
    (fun h => ((h.reply 0).windowOpenNow w none).accepted 0x13)) ∧
  (∀ a w, w < 16 → Does (.winCmdClose a w) (fun h => h.Reach a 0x13 0x80 ∧ h.on (R.WIN_STAT_OPEN.at w) = true)
    (fun h =>
      let k := (((h.reply 0).putWin { h.win w with stamp := h.stampOwn, stall := false, swap := false }).s (R.WIN_STAT_OPEN.at w) 0).s
        (R.WIN_STAT_CLOSING.at w) 1
      (k.each (k.windowTensors w) fun k _ => k.choice 3).accepted 0x13)) ∧
  (∀ a w, w < 16 → Does (.winCmdClose a w) (fun h => h.Reach a 0x13 0x80 ∧ h.on (R.WIN_STAT_OPEN.at w) = false) (fun h => (h.reply 0).accepted 0x13))

/-- O33: what the commands of the check entries do (R255–R257). -/
def Obligations.CheckCommandsDo : Prop :=
  (∀ a, Does (.checkEnable a) (fun h => h.Reach a 0x13 0x144 ∧ h.prof ≠ .l ∧ h.running 0x10 = true ∧ h.on (R.CHK_CTL_EN.at (h.g R.CHK_SEL_ENTRY)) = false)
    (fun h =>
      let n := h.g R.CHK_SEL_ENTRY
      let k := (h.reply 0).s (R.CHK_CTL_EN.at n) 1
      (k.dmaRead (h.g (R.CHK_CTX_CTX.at n)) (h.g64 (R.CHK_DEF_LO_ADDR.at n) (R.CHK_DEF_HI_ADDR.at n)) (h.g (R.CHK_DEF_LEN_BYTES.at n)) (.check n)).accepted 0x13)) ∧
  (∀ n x, Does (.checkDefinitionLoaded n) (fun h => (h.chk.raw.find? fun y => y.1 == n) = some x ∧ h.readCheck x.2 = none)
    (fun h => ((Hw.s { h with chk := { h.chk with raw := h.chk.raw.filter fun y => y.1 != n } } (R.CHK_CTL_EN.at n) 0).err 0x13 E.badValue).raise 0x13 18)) ∧
  (∀ n x d, Does (.checkDefinitionLoaded n) (fun h => (h.chk.raw.find? fun y => y.1 == n) = some x ∧ h.readCheck x.2 = some d)
    (fun h =>
      let k := { h with chk := { h.chk with raw := h.chk.raw.filter fun y => y.1 != n } }
      let k := (k.putCheck ⟨n, d, [], []⟩).s (R.CHK_CTL_LOADED.at n) 1
      (if d.kind = 0 && !d.covered.isEmpty then ((k.putRedGroup (k.groupOf n d)).showGroup (k.checkGroup n)).floodGroup (k.groupOf n d) else k).fpIdentity)) ∧
  (∀ a e, Does (.checkDisable a) (fun h => h.Reach a 0x13 0x144 ∧ h.prof ≠ .l ∧ h.running 0x10 = true ∧ h.checkEntry (h.g R.CHK_SEL_ENTRY) = some e ∧
      e.defn.kind ≠ 0)
    (fun h => (((h.reply 0).closeRounds e).dropCheck (h.g R.CHK_SEL_ENTRY)).accepted 0x13)) ∧
  (∀ a e, Does (.checkDisable a) (fun h => h.Reach a 0x13 0x144 ∧ h.prof ≠ .l ∧ h.running 0x10 = false ∧ h.checkEntry (h.g R.CHK_SEL_ENTRY) = some e)
    (fun h => (h.reply 0).err 0x13 E.badState)) ∧
  (∀ x, Does .checkRecordArrival (fun h => (h.flw.held.find? fun x => h.arrived x && h.checkTakes x.r && !h.contributes x.r) = some x ∧
      h.duplicate x.r = false)
    (fun h => if x.r.typ = 0x20 then (h.deliver x).1.sketchAt x.r else (h.deliver x).1.digestAt x.r)) ∧
  (∀ n e r, Does (.checkRoundTimeout n) (fun h => h.checkEntry n = some e ∧
      (e.rounds.filter fun r => r.firstFrc + e.defn.timeoutUs * 1000 ≤ h.frc).getLast? = some r)
    (fun h => h.evalRound e r true))

/-- O34: what the samples, descriptors and swaps of the tree engine do (R291–R293, R296, R301, R303, R309, R312, R314, R318–R320). -/
def Obligations.AgateCommandsDo : Prop :=
  (∀ b rest, Does .frameBoundary (fun h => h.agtWorks = true ∧ h.agt.bounds = b :: rest)
    (fun h => Hw.each { h with agt := { h.agt with bounds := rest } }
      ((List.range h.slotCount).filter fun s => Hw.slotTakes { h with agt := { h.agt with bounds := rest } } s b.ent.key b.frameNo)
      fun h s => h.assemble b s)) ∧
  Does .frameBoundary (fun h => h.agtWorks = false) (fun h => h) ∧
  (∀ x l, Does .sampleDispatch (fun h => h.agtWorks = true ∧ (h.agt.samples.find? fun x => x.lane.isNone && !x.done) = some x ∧ h.bestLane = some l)
    (fun h => h.putSamples (h.agt.samples.map fun y => if y.ser = x.ser then { y with lane := some l } else y))) ∧
  (∀ ser x, Does (.sampleResult ser) (fun h => h.agtWorks = true ∧ (h.agt.samples.find? fun x => x.ser == ser && x.lane.isSome && !x.done) = some x)
    (fun h =>
      let k := h.putSamples (h.agt.samples.map fun y => if y.ser = ser then { y with done := true } else y)
      k.releaseDone x.slot k.agt.samples.length)) ∧
  (∀ q d, Does (.agtMload q) (fun h => h.Starts q 3 0x30 [(0, 16, 4), (1, 0, 64), (2, 0, 32)] d ∧ h.slotFault q (dw d 0 16 4) = none ∧ dw d 2 0 32 ≠ 0 ∧
      dw d 2 0 32 % 64 = 0 ∧ nth d 1 % 64 = 0 ∧ h.on (R.AGT_MS_STAT_STANDBY_BUSY.at (dw d 0 16 4)) = false)
    (fun h => ((h.putSlotState { h.slotState (dw d 0 16 4) with standby := none }).s (R.AGT_MS_STAT_STANDBY_VALID.at (dw d 0 16 4)) 0).descRead q (nth d 1)
      (dw d 2 0 32))) ∧
  (∀ q d, Does (.agtEload q) (fun h => h.Starts q 3 0x31 [(1, 0, 64), (2, 0, 18), (2, 32, 19)] d ∧ dw d 2 32 19 ≠ 0 ∧
      dw d 2 0 18 + dw d 2 32 19 ≤ h.entityRows)
    (fun h => h.descRead q (nth d 1) (136 * dw d 2 32 19))) ∧
  (∀ q d r, Does (.agtEval q) (fun h => h.started q = some r ∧ h.jobOpen q r.index = false ∧
      h.Starts q 3 0x32 [(0, 16, 6), (1, 0, 64), (2, 0, 16), (2, 32, 32), (3, 0, 64)] d ∧ h.slotFault q (dw d 0 16 4) = none ∧ dw d 2 0 16 ≠ 0 ∧
      nth d 1 % 64 = 0 ∧ nth d 3 % 64 = 0 ∧ dw d 2 32 32 = 0xFFFFFFFF ∧ (h.slotState (dw d 0 16 4)).active.isSome = true)
    (fun h => h.descRead q (nth d 1) (576 * dw d 2 0 16))) ∧
  (∀ a, Does (.agtModelSwap a) (fun h => h.Reach a 0x20 0xA4 ∧ h.on (R.AGT_MS_STAT_STANDBY_VALID.at (h.g R.AGT_MSEL_SLOT)) = true)
    (fun h => ((h.reply 0).s (R.AGT_MS_STAT_SWAP_PENDING.at (h.g R.AGT_MSEL_SLOT)) 1).accepted 0x20)) ∧
  (∀ a, Does (.agtModelSwap a) (fun h => h.Reach a 0x20 0xA4 ∧ h.on (R.AGT_MS_STAT_STANDBY_VALID.at (h.g R.AGT_MSEL_SLOT)) = false)
    (fun h => (h.reply 0).err 0x20 E.badState)) ∧
  (∀ a, Does (.agtColSwap a) (fun h => h.Reach a 0x20 0x6C ∧ ∀ r, r < 128 → bit (h.g (R.AGT_COL_A_A.at r)) 21 = true → bits (h.g (R.AGT_COL_A_A.at r)) 28 3 < 6)
    (fun h => ((h.reply 0).s R.AGT_COL_STAT_COL_PENDING 1).accepted 0x20)) ∧
  Does .agtSwapTakeEffect (fun h => h.faulted 0x20 = false ∧ h.agt.bounds = [] ∧ ((List.range h.slotCount).filter fun s => h.on (R.AGT_MS_STAT_SWAP_PENDING.at s)) = [] ∧
      h.on R.AGT_COL_STAT_COL_PENDING = true)
    (fun h => h.swapRules) ∧
  (∀ s, Does .agtSwapTakeEffect (fun h => h.faulted 0x20 = false ∧
      ((List.range h.slotCount).filter fun s => h.on (R.AGT_MS_STAT_SWAP_PENDING.at s) && !(h.agt.bounds.any fun b => h.slotTakes s b.ent.key b.frameNo)) = [s] ∧
      (h.swapModel s).on R.AGT_COL_STAT_COL_PENDING = false)
    (fun h => h.swapModel s))

/-! ### The sketch array -/

/-- O35: what the descriptors of the sketch array, the dense-layer engine and the digest engine do (R227, R237, R241, R242, R246–R248, R273). -/
def Obligations.GarnetDescriptorsDo : Prop :=
  (∀ q d, Does (.garOpen q) (fun h => h.Starts q 1 1 [(0, 16, 14), (1, 0, 64), (2, 0, 16)] d ∧ h.kLogOk (dw d 0 26 4) = true ∧
      dw d 0 16 10 < h.accountCount ∧ h.accOpen (dw d 0 16 10) = false)
    (fun h => (h.openAccount (dw d 0 16 10) (h.qCtx q) 1 (dw d 0 26 4) (dw d 2 0 16) (nth d 1) 0xFF 0).descDone q)) ∧
  (∀ q d, Does (.garOpen q) (fun h => h.Starts q 1 1 [(0, 16, 14), (1, 0, 64), (2, 0, 16)] d ∧ h.kLogOk (dw d 0 26 4) = true ∧
      dw d 0 16 10 < h.accountCount ∧ h.accOpen (dw d 0 16 10) = true)
    (fun h => h.descFail q E.badState)) ∧
  (∀ q d a r, Does (.garLoad q) (fun h => h.qEngine q = 1 ∧ h.Starts q 1 2 [(1, 0, 64), (2, 0, 64)] d ∧
      h.opbAddr (h.qCtx q) (dw d 2 32 32) (dw d 2 0 32) = some a ∧ dw d 2 0 32 ≠ 0 ∧ dw d 2 32 32 % 64 = 0 ∧ h.started q = some r)
    (fun h => h.dmaRead (h.qCtx q) (nth d 1) (dw d 2 0 32) (.payload q r.index))) ∧
  (∀ q d bs, Does (.garProject q) (fun h => h.Starts q 1 3 [(0, 16, 14), (1, 0, 64), (2, 0, 64)] d ∧ dw d 0 26 3 ≤ 5 ∧ dw d 0 16 10 < h.accountCount ∧
      dw d 2 0 32 ≠ 0 ∧ nth d 1 % 32 = 0 ∧ h.ownAccount q (dw d 0 16 10) = true ∧
      (h.operand (h.qCtx q) (dw d 2 32 32) (fmtBytes (dw d 0 26 3) (dw d 2 0 32)) (bit (nth d 0) 29)).2 = .ok bs)
    (fun h =>
      let k := (h.operand (h.qCtx q) (dw d 2 32 32) (fmtBytes (dw d 0 26 3) (dw d 2 0 32)) (bit (nth d 0) 29)).1
      ((k.feed (dw d 0 16 10) (dw d 0 26 3) (nth d 1) ((fmtVals (dw d 0 26 3) bs).take (dw d 2 0 32))).inc
        (R.ACC_TENSORS_COUNT.at (dw d 0 16 10))).descDone q)) ∧
  (∀ q d, Does (.garClose q) (fun h => h.Starts q 1 4 [(0, 16, 12), (1, 0, 64)] d ∧ dw d 0 26 2 = 0 ∧ dw d 0 16 10 < h.accountCount ∧
      h.ownAccount q (dw d 0 16 10) = true)
    (fun h => (h.closeAccount (dw d 0 16 10) true h.stampOwn).descDone q)) ∧
  (∀ q d r, Does (.garClose q) (fun h => h.Starts q 1 4 [(0, 16, 12), (1, 0, 64)] d ∧ dw d 0 26 2 = 1 ∧ dw d 0 16 10 < h.accountCount ∧
      nth d 1 % 64 = 0 ∧ h.ownAccount q (dw d 0 16 10) = true ∧ (h.closeAccount (dw d 0 16 10) false h.stampOwn).started q = some r)
    (fun h =>
      let a := h.account (dw d 0 16 10)
      let k := h.closeAccount (dw d 0 16 10) false h.stampOwn
      k.dmaWrite (k.qCtx q) (nth d 1) (h.sketchPart a h.frc 0 a.acc.length true) (.payload q r.index))) ∧
  (∀ q d r, Does (.garWload q) (fun h => h.Starts q 2 0x10 [(1, 0, 64), (2, 0, 32)] d ∧ dw d 2 16 16 ≠ 0 ∧
      h.denseOwn (h.qCtx q) (dw d 2 0 16) (dw d 2 16 16) = true ∧ dw d 2 0 16 + dw d 2 16 16 ≤ h.densePages ∧ h.started q = some r)
    (fun h => h.dmaRead (h.qCtx q) (nth d 1) (dw d 2 16 16 * densePageBytes) (.payload q r.index))) ∧
  (∀ q d ba oa bs, Does (.garLayer q) (fun h =>
      let nIn := dw d 2 0 16
      let nOut := dw d 2 16 16
      let f := if bit (nth d 0) 16 then 1 else 0
      h.Starts q 2 0x11 [(0, 16, 2), (0, 29, 1), (1, 0, 64), (2, 0, 48), (3, 0, 32), (4, 0, 21), (4, 24, 8)] d ∧
      0 < nIn ∧ nIn ≤ 4096 ∧ 0 < nOut ∧ nOut ≤ 4096 ∧ signed 4 (dw d 4 24 4) ≤ signed 4 (dw d 4 28 4) ∧
      h.denseOwn (h.qCtx q) (dw d 2 32 16) (ceilDiv nIn 256 * ceilDiv nOut 256) = true ∧
      dw d 2 32 16 + ceilDiv nIn 256 * ceilDiv nOut 256 ≤ h.densePages ∧
      h.opbAddr (h.qCtx q) (dw d 3 0 32) (4 * nOut) = some ba ∧
      h.opbAddr (h.qCtx q) (dw d 1 32 32) (if bit (nth d 0) 17 then 4 * nOut else ceilDiv nOut 2) = some oa ∧
      (h.operand (h.qCtx q) (dw d 1 0 32) (fmtBytes f nIn) (bit (nth d 0) 29)).2 = .ok bs)
    (fun h =>
      let nIn := dw d 2 0 16
      let nOut := dw d 2 16 16
      let out32 := bit (nth d 0) 17
      let f := if bit (nth d 0) 16 then 1 else 0
      let k := (h.operand (h.qCtx q) (dw d 1 0 32) (fmtBytes f nIn) (bit (nth d 0) 29)).1
      let xs := ((fmtVals f bs).take nIn).map (alignVal f 0)
      let bias := k.opbRead ba (4 * nOut)
      let ys := (List.range nOut).map fun o =>
        layerOut out32 (signed 16 (dw d 4 0 16)) (dw d 4 16 5) (signed 4 (dw d 4 24 4)) (signed 4 (dw d 4 28 4))
          (k.layerSum (dw d 2 32 16) nOut xs o) (signed 32 (fld bias (4 * o) 4))
      let out := if out32 then ys.flatMap fun y => le 4 (unsigned 32 y) else nibbles (ys.map (unsigned 4))
      let tag := match k.started q with | some r => dw r.words 0 16 16 | none => 0
      let used := (List.range (ceilDiv nIn 256 * ceilDiv nOut 256)).map fun i => k.gar.denseOrder.getD ((dw d 2 32 16 + i) / 4) 0
      let k := { k with gar := { k.gar with layerUse := k.gar.layerUse ++ used.eraseDups.map fun m => (m, k.ns, q, tag) } }
      (k.opbWrite oa out).descDone q)) ∧
  (∀ q d a r, Does (.garStore q) (fun h => h.Starts q 2 0x12 [(1, 0, 64), (2, 0, 64)] d ∧
      h.opbAddr (h.qCtx q) (dw d 2 32 32) (dw d 2 0 32) = some a ∧ h.started q = some r ∧ dw d 2 0 32 ≠ 0)
    (fun h => h.dmaWrite (h.qCtx q) (nth d 1) (h.opbRead a (dw d 2 0 32)) (.payload q r.index))) ∧
  (∀ q d r, Does (.digHash q) (fun h => h.Starts q 6 0x20 [(0, 16, 2), (1, 0, 64), (2, 0, 40), (2, 48, 16), (3, 0, 64)] d ∧ dw d 0 16 2 ≠ 3 ∧
      dw d 2 0 40 ≠ 0 ∧ (dw d 0 16 2 ≠ 0 → nth d 3 % 32 = 0) ∧ h.started q = some r)
    (fun h => h.dmaRead (h.qCtx q) (nth d 1) (dw d 2 0 40) (.payload q r.index)))

/-- O36: what the retirement and the test of macros do (R243–R245, R249). -/
def Obligations.MacroCommandsDo : Prop :=
  (∀ a m, Does (.garRetire a m) (fun h => h.Reach a 0x10 0x50 ∧ m < h.physMacros) (fun h => ((h.reply 0).retire m 1).accepted 0x10)) ∧
  (∀ a m, Does (.garRetire a m) (fun h => h.Reach a 0x10 0x50 ∧ h.physMacros ≤ m) (fun h => (h.reply 0).err 0x10 E.badValue)) ∧
  (∀ m, Does (.macroWeightEccError m) (fun h => h.pwr.gar = true) (fun h => h.retire m 2)) ∧
  (∀ m, Does (.macroTestSlot m false) (fun h => h.running 0x10 = true ∧ h.retired m = false ∧ m < h.physMacros ∧ h.on R.SAF_CFG_GAR_KAT_DIS = false ∧
      ((List.range ((h.diagRun 4).katFailed false m).physMacros).filter fun x => m < x && !((h.diagRun 4).katFailed false m).retired x) ≠ [])
    (fun h => (h.diagRun 4).katFailed false m)) ∧
  (∀ m t, Does (.macroTestSlot m true) (fun h =>
      let k := (h.diagRun 4).katPassed m
      let n := ((k.setRole t (h.gar.pools.getD m 4)).setRole m 3).replaceDense m t
      h.running 0x10 = true ∧ h.retired m = false ∧ m < h.physMacros ∧ h.on R.SAF_CFG_GAR_KAT_DIS = false ∧ h.gar.pools.getD m 4 ≠ 3 ∧
      k.on R.GAR_STAT_DEGRADED = false ∧ k.lastInRole 3 = some t ∧ ((List.range n.physMacros).filter fun x => m < x && !n.retired x) = [])
    (fun h => ((((h.diagRun 4).katPassed m).setRole t (h.gar.pools.getD m 4)).setRole m 3).replaceDense m t |>.inc R.GAR_ROT_ROUNDS))

/-! ### Links, the fabric, flow and the shaper -/

/-- O37: what the frames and time-outs of a link do (R49, R324–R328, R340, R341, R343, R344, R362, R371). -/
def Obligations.LinkCommandsDo : Prop :=
  (∀ p, Does (.helloTx p) (fun h => h.inService p = true ∧ isCulvert p = false ∧ ((h.link p).lastHello = 0 ∨ (h.link p).lastHello + 1000000 ≤ h.frc))
    (fun h => h.sendHello p)) ∧
  (∀ p, Does (.helloTx p) (fun h => h.inService p = true ∧ isCulvert p = true ∧ (h.link p).up = false ∧ (h.link p).lastHello = 0)
    (fun h => h.sendHello p)) ∧
  (∀ p bs f, Does (.helloRx p 1 none bs) (fun h => h.Hears p bs 0 f ∧ helloOk f.payload = false) (fun h => (h.heard p).discard p)) ∧
  (∀ p bs f, helloOk f.payload = true →
    Does (.helloRx p 1 none bs) (fun h => h.Hears p bs 0 f ∧ isCulvert p = false ∧ fld f.payload 0 8 = (h.heard p).fab.ident)
      (fun h => ((h.heard p).onLink p fun k => { k with peerIdent := fld f.payload 0 8, peerNode := fld f.payload 8 2, peerState := nth f.payload 10 }).fault
        0x28 E.idConflict)) ∧
  (∀ p bs f, helloOk f.payload = true → f.payload.length = 13 →
    Does (.helloRx p 1 none bs) (fun h =>
        let k := ((h.heard p).onLink p fun k => { k with peerIdent := fld f.payload 0 8, peerNode := fld f.payload 8 2, peerState := nth f.payload 10 })
        h.Hears p bs 0 f ∧ isCulvert p = true ∧ p ≠ 0 ∧ (k.link p).up = false)
      (fun h =>
        let k := ((h.heard p).onLink p fun k => { k with peerIdent := fld f.payload 0 8, peerNode := fld f.payload 8 2, peerState := nth f.payload 10 })
        ((k.linkUp p).linkGreets p).showLink p)) ∧
  (∀ p, Does (.keepaliveTx p) (fun h => (h.link p).up = true ∧ (h.link p).lastTx + (if isCulvert p then 4000 else 10000) ≤ h.frc)
    (fun h => h.sendFrame p (h.plainFrame 1 1 ((List.range 8).flatMap fun c => le 4 ((h.link p).lastSeq c))))) ∧
  (∀ p bs f, f.payload.length = 32 → Does (.keepaliveRx p 1 bs) (fun h => h.Hears p bs 1 f)
    (fun h => (h.heard p).each (List.range 8) fun h c => h.goBack p c (fld f.payload (4 * c) 4))) ∧
  (∀ p, Does (.ackTx p) (fun h => h.carries p 2 = true ∧ (h.link p).up = true ∧ (h.link p).ackDue = true ∧ (h.link p).lastAck + 2000 ≤ h.frc ∧ h.nearBoundary (h.ackGuard p) = false)
    (fun h =>
      let k := h.link p
      let h := h.each (List.range 8) fun h c => h.ledger c fun l => { l with received := l.received + nth k.unack c }
      let h := h.sendFrame p (h.plainFrame 2 1 ((List.range 8).flatMap fun c => le 4 (k.lastSeq c) ++ le 4 (k.cack c)))
      h.onLink p fun k => { k with unack := List.replicate 8 0, unackRep := List.replicate 8 0, ackDue := false, lastAck := h.frc,
                                   custody := k.custody.filter fun x => !ahead32 (k.cack x.cls) x.hseq })) ∧
  (∀ p bs f, f.payload.length = 64 → Does (.ackRx p 1 bs) (fun h => h.Hears p bs 2 f)
    (fun h => (h.heard p).each (List.range 8) fun h c => h.ackClass p c (fld f.payload (8 * c) 4) (fld f.payload (8 * c + 4) 4))) ∧
  (∀ p, Does (.culvertFrameCrcError p) (fun h => isCulvert p = true ∧ h.inService p = true ∧ (h.link p).phy = true)
    (fun h => (h.inc (R.CUL_CRC_COUNT.at p)).onLink p fun k => { k with hunting := true })) ∧
  (∀ p lane, lane < 2 → Does (.culvertAlignmentWordRx p lane (0xA5C30F5A00000000 + lane)) (fun h => isCulvert p = true ∧ h.inService p = true)
    (fun h => h.onLink p fun k => { k with hunting := false })) ∧
  (∀ p, Does (.culvertPhyDown p) (fun h => isCulvert p = true ∧ h.portExists p = true)
    (fun h => ((h.onLink p fun k => { k with phy := false }).linkDown p).showLink p)) ∧
  (∀ p, Does (.culPhyRdyRise p) (fun h => isCulvert p = true ∧ h.portExists p = true ∧ h.absent (0x8000 + p) = false ∧ h.phyReset p = false)
    (fun h =>
      let k := (h.onLink p fun k => { k with phy := true, hunting := true, lastRx := h.frc, lastHello := 0, upSince := 0 }).showLink p
      if k.inService p && (k.session p).step == 0 then k.startAgreement p (k.session p).nextGen else k)) ∧
  (∀ p, Does (.culPhyRdyRise p) (fun h => h.phyReset p = true) (fun h => h)) ∧
  (∀ p, Does (.culvertRxTimeout p) (fun h => isCulvert p = true ∧ (h.link p).up = true ∧ (h.link p).lastRx + 20000 ≤ h.frc) (fun h => h.linkDown p)) ∧
  (∀ p, Does (.fabricLinkTimeout p) (fun h => isCulvert p = false ∧ (h.link p).up = true ∧ (h.link p).lastRx + 50000 ≤ h.frc)
    (fun h => (h.linkDown p).aloneClaim.acksMoved)) ∧
  Does .culvertFailback (fun h => h.prof = .l ∧ h.g R.CUL_LEAF_ACTIVE = 2 ∧ h.on R.FLW_STAT_REHOMED = false ∧ (h.link 0).up = true ∧
      (h.link 0).upSince + h.g R.CUL_CFG_FAILBACK_MS * 1000000 ≤ h.frc)
    (fun h => h.s R.CUL_LEAF_ACTIVE 1) ∧
  Does .replayWindowExpiry (fun h => h.prof = .l ∧ h.fab.links = [] ∧ ∀ x ∈ h.flw.held, ∀ f, x.firstSent = some f → h.frc < f + 2000000)
    (fun h => h.restore 1 0x02) ∧
  (∀ x f, x.firstSent = some f → Does .replayWindowExpiry (fun h => h.prof = .l ∧ h.fab.links = [] ∧ h.flw.held = [x] ∧ f + 2000000 ≤ h.frc ∧ h.homesLost = false)
    (fun h => ((((h.release x).dropHeld x 4 E.replayExceeded).raise 0x2C 21).err 0x2C E.replayExceeded).breach 1 0x02 0)) ∧
  (∀ x f, x.firstSent = some f → Does .replayWindowExpiry (fun h => h.prof = .l ∧ h.fab.links = [] ∧ h.flw.held = [x] ∧ f + 2000000 ≤ h.frc ∧
      h.homesLost = true)
    (fun h => (h.release x).dropHeld x 5 0)) ∧
  (∀ p t x f, x.firstSent = some f → t.recs = [x] → Does (.longhaulReplayExpiry p) (fun h => h.longhaul p = true ∧ (h.link p).retained = [t] ∧
      (∀ x ∈ h.flw.held, x.keptBy ≠ some p) ∧ f + 8000000 ≤ h.frc)
    (fun h => ((h.dropFrame p t 4 E.replayExceeded).err 0x28 E.replayExceeded).breach 1 0x02 0)) ∧
  (∀ p x f, x.firstSent = some f → x.keptBy = some p → Does (.longhaulReplayExpiry p) (fun h => h.longhaul p = true ∧ (h.link p).retained = [] ∧
      h.flw.held = [x] ∧ f + 8000000 ≤ h.frc)
    (fun h => (((h.release x).dropHeld x 4 E.replayExceeded).err 0x28 E.replayExceeded).breach 1 0x02 0)) ∧
  (∀ a v, Does (.culvertInsvcWrite a v) (fun h => h.Reach a 0x2C 0x54 ∧ h.g R.CUL_SEL_PORT < h.culverts ∧ v % 2 = 0)
    (fun h =>
      let p := h.g R.CUL_SEL_PORT
      let k := ((Hw.linkDown (h.reply 0) p).endSession p).s (R.CUL_PORT_CTL_INSVC.at p) 0
      (((k.onLink p fun k => { k with phy := false }).showLink p).showNeed).accepted 0x2C)) ∧
  (∀ a v, Does (.culvertInsvcWrite a v) (fun h => h.Reach a 0x2C 0x54 ∧ h.g R.CUL_SEL_PORT < h.culverts ∧ v % 2 = 1 ∧
      h.absent (0x8000 + h.g R.CUL_SEL_PORT) = true)
    (fun h => (h.reply 0).claimFail 0x2C (0x8000 + h.g R.CUL_SEL_PORT))) ∧
  (∀ a v, Does (.culvertInsvcWrite a v) (fun h => h.Reach a 0x2C 0x54 ∧ h.g R.CUL_SEL_PORT < h.culverts ∧ v % 2 = 1 ∧
      h.absent (0x8000 + h.g R.CUL_SEL_PORT) = false ∧ h.off 0x2C = true)
    (fun h => ((h.reply 0).s (R.CUL_PORT_CTL_INSVC.at (h.g R.CUL_SEL_PORT)) 1).accepted 0x2C)) ∧
  (∀ a v k, Does (.culvertInsvcWrite a v) (fun h => h.Reach a 0x2C 0x54 ∧ h.g R.CUL_SEL_PORT < h.culverts ∧ v % 2 = 1 ∧
      h.absent (0x8000 + h.g R.CUL_SEL_PORT) = false ∧ h.off 0x2C = false ∧
      (h.reply 0).resvNeed (h.g R.CUL_SEL_PORT :: (h.reply 0).culsIn.filter (· != h.g R.CUL_SEL_PORT)) (if h.off 0x28 then [] else (h.reply 0).fabsIn) ≤
        h.g R.FLW_RESV_AVAIL ∧
      (h.reply 0).claim 0x2C [0x8000 + h.g R.CUL_SEL_PORT] 0 = .ok k)
    (fun h =>
      let p := h.g R.CUL_SEL_PORT
      ((((k.s (R.CUL_PORT_CTL_INSVC.at p) 1).liveUpdate 5 p (k.g (R.CUL_LAT_TX.at p) + 2 ^ 16 * k.g (R.CUL_LAT_RX.at p)) 0).showLink p).showNeed).accepted 0x2C))

/-- O38: what the instants and the command of link sessions do (R519, R526). -/
def Obligations.SessionCommandsDo : Prop :=
  (∀ p t, Does (.agreementRetry p) (fun h => (h.session p).retryFrc = some t ∧ t ≤ h.frc) (fun h => h.startAgreement p (h.session p).nextGen)) ∧
  (∀ p, Does (.rekeyTimer p) (fun h => (h.session p).up = true ∧ (h.session p).step = 0 ∧ h.isLo p = true ∧
      (h.session p).upFrc + h.g R.SEC_CFG_REKEY_S * 1000000000 ≤ h.frc)
    (fun h => h.startAgreement p ((h.session p).gen + 1))) ∧
  (∀ a, Does (.secRekey a) (fun h => h.Reach a 0x50 0x4C)
    (fun h => ((h.reply 0).startAgreement (h.g R.SEC_SEL_PORT) (h.session (h.g R.SEC_SEL_PORT)).nextGen).accepted 0x50)) ∧
  (∀ p t, Does (.oldKeyErase p) (fun h => (h.session p).oldFrom = some t ∧ t + 10000000 ≤ h.frc)
    (fun h => h.putSession { h.session p with oldKey := none, oldFrom := none })) ∧
  (∀ p, Does (.sessionKeyExpiry p) (fun h => (h.session p).up = true ∧ (h.session p).upFrc + 2 * h.g R.SEC_CFG_REKEY_S * 1000000000 ≤ h.frc)
    (fun h => (h.endSession p).startAgreement p 0)) ∧
  Does .drbgReseed (fun h => h.pwr.core = true ∧ (65536 ≤ h.sec.drbgReqs ∨ h.sec.drbgFrc + 60000000000 ≤ h.frc) ∧ h.sec.rot = [])
    (fun h => h.rotAsk 4 [] .entropy)

/-- O39: what the claim of a node ID, the link-state database and the frames of the fabric do (R22, R325, R326, R330, R333, R336, R339). -/
def Obligations.FabricCommandsDo : Prop :=
  Does .joinTimeout (fun h => h.running 0x28 = true ∧ h.timed = true ∧ h.g R.FAB_ID_STATE = 0 ∧ h.fab.links = [] ∧ h.fab.joinFrc + 3000000 ≤ h.frc)
    (fun h => (h.tentative h.firstCandidate).claimId) ∧
  Does .claimHoldExpiry (fun h => h.running 0x28 = true ∧ h.g R.FAB_ID_STATE = 1 ∧ h.fab.claimFrc + h.g R.FAB_CFG_CLAIM_HOLD * 1000000 ≤ h.frc)
    (fun h => h.claimId) ∧
  Does .lsaRefresh (fun h => h.running 0x28 = true ∧ h.g R.FAB_ID_STATE ≠ 0 ∧ (h.fab.lsaDirty = true ∨ h.fab.lsaFrc + 100000000 ≤ h.frc))
    (fun h => h.advertise) ∧
  (∀ p bs f l, Does (.lsaRx p 1 bs) (fun h => h.Hears p bs 3 f ∧ readLsa f.payload (h.heard p).frc = some l ∧
      f.hseq = nth ((h.heard p).link p).rxNext f.cls ∧ h.prof ≠ .l ∧ (h.heard p).running 0x28 = true)
    (fun h => (((h.heard p).acceptRel p f 0 0).1.takeLsa p l.1 l.2 f.payload).joinCheck)) ∧
  (∀ p bs f l, Does (.lsaRx p 1 bs) (fun h => h.Hears p bs 3 f ∧ readLsa f.payload (h.heard p).frc = some l ∧
      f.hseq ≠ nth ((h.heard p).link p).rxNext f.cls)
    (fun h => (h.heard p).putLink { (h.heard p).link p with ackDue := true })) ∧
  Does .lsaAgeExpiry (fun h => h.faulted 0x28 = false ∧ ∃ x ∈ h.fab.lsdb, x.node ≠ h.g R.FAB_ID_NODE ∧ x.heardFrc + 1000000000 ≤ h.frc)
    (fun h => h.putDb (h.fab.lsdb.filter fun x => x.node == h.g R.FAB_ID_NODE || h.frc < x.heardFrc + 1000000000) true) ∧
  Does .routeRecompute (fun h => h.running 0x28 = true ∧ h.fab.dbDirty = true)
    (fun h =>
      let k := h.putOwn
      let me := k.g R.FAB_ID_NODE
      let old := k.fab.routes
      let k := { k with fab := { k.fab with routes := k.computeRoutes } }
      let k := { k with flw := { k.flw with held := k.flw.held.map fun (x : HeldRec) =>
        if (old.any fun r => r.dst == k.dstOf x) && (k.route (k.dstOf x)).isNone then { x with waitFrom := k.frc } else x } }
      let keep := k.fab.lsdb.filter fun l => l.node == me || (k.route l.node).isSome || (k.portTo l.node).isSome
      let k := k.putDb keep (decide (keep.length < k.fab.lsdb.length))
      ((((Hw.raise { k with fab := { k.fab with dbDirty := false } } 0x28 17).showBackup).treeChanged h.trees).showQuorum.acksMoved).aloneClaim.triggerCond) ∧
  (∀ p bs f, Does (.registerRx p 1 bs) (fun h => h.Hears p bs 8 f ∧ isCulvert p = true ∧ registerOk f.payload = true ∧
      f.hseq = nth ((h.heard p).link p).rxNext f.cls)
    (fun h => ((h.heard p).acceptRel p f 0 0).1.register p f.payload)) ∧
  Does .registerRetry (fun h => h.fab.regFrc + 1000000 ≤ h.frc ∧ h.prof = .l ∧ (h.link 0).up = true ∧ h.on R.CUL_LEAF_REGISTERED = false)
    (fun h =>
      let k := { h with fab := { h.fab with regFrc := h.frc } }
      k.sendRel 0 8 1 0xFFF [] (k.plainFrame 8 1 ([0, 0, 0, 0] ++ le 8 k.fab.ident ++ List.replicate 12 0))) ∧
  Does .registerRetry (fun h => h.fab.regFrc + 1000000 ≤ h.frc ∧ h.prof = .l ∧ (h.link 1).up = true ∧ h.on R.CUL_LEAF_REGISTERED = true ∧
      h.fab.standbyOk = false)
    (fun h =>
      let k := { h with fab := { h.fab with regFrc := h.frc, standbyOk := false } }
      k.sendRel 1 8 1 0xFFF [] (k.plainFrame 8 1
        ([2, 0, 0, 0] ++ le 8 k.fab.ident ++ [0, 0, 0, 0] ++ le 2 (k.g R.CUL_LEAF_NODE) ++ [k.g R.CUL_LEAF_PORT] ++ List.replicate 5 0))) ∧
  (∀ p dei bs f, Does (.dataFrameRx p 1 dei bs) (fun h => h.Hears p bs 4 f ∧ h.prof ≠ .l ∧ f.payload ≠ [] ∧
      (h.heard p).flwDrains = false ∧ f.hseq = nth ((h.heard p).link p).rxNext f.cls ∧
      ((h.heard p).link p).held f.cls + f.bytes.length ≤ (h.heard p).window p f.cls ∧
      (h.heard p).resvFull f.cls f.payload.length = false)
    (fun h => (h.heard p).dataFrame p f dei)) ∧
  (∀ p dei bs f, Does (.dataFrameRx p 1 dei bs) (fun h => h.Hears p bs 4 f ∧ h.prof ≠ .l ∧ f.payload ≠ [] ∧
      (h.heard p).flwDrains = false ∧ f.hseq = nth ((h.heard p).link p).rxNext f.cls ∧
      (h.heard p).window p f.cls < ((h.heard p).link p).held f.cls + f.bytes.length)
    (fun h => (h.heard p).inc R.FLW_OVERRUN_COUNT)) ∧
  (∀ p dei bs f, Does (.dataFrameRx p 1 dei bs) (fun h => h.Hears p bs 4 f ∧ h.prof ≠ .l ∧ f.payload ≠ [] ∧ (h.heard p).flwDrains = true)
    (fun h => h.heard p)) ∧
  (∀ p, Does (.homesLostExpiry p) (fun h => h.prof ≠ .l ∧ p < h.primaries ∧ h.on (R.CUL_PORT_STAT_REG.at p) = true ∧ (h.link p).up = false ∧
      (h.link p).downSince + 2000000 ≤ h.frc ∧ h.agt.unreachable.contains (h.nodeId * 128 + p) = false ∧
      (h.flw.expected.filter fun e => e.1 / 2 ^ 13 == h.nodeId * 128 + p) = [])
    (fun h => Hw.advise { h with agt := { h.agt with unreachable := (h.nodeId * 128 + p) :: h.agt.unreachable } } (h.nodeId * 128 + p)))

/-- O40: what the commands of reductions do (R325, R346, R348, R349). -/
def Obligations.ReductionCommandsDo : Prop :=
  (∀ a v, Does (.redGroupLoad a v) (fun h => h.Reach a 0x24 0x44 ∧ h.g R.RED_SEL_GROUP < h.checkGroup 0 ∧ h.running 0x24 = true ∧ v % 2 = 1 ∧
      h.on (R.RED_CTL_EN.at (h.g R.RED_SEL_GROUP)) = false)
    (fun h =>
      let n := h.g R.RED_SEL_GROUP
      (((h.reply 0).s (R.RED_CTL_EN.at n) 1).dmaRead (h.g (R.RED_CTX_CTX.at n))
        (h.g64 (R.RED_DEF_LO_ADDR.at n) (R.RED_DEF_HI_ADDR.at n)) (h.g (R.RED_DEF_LEN_BYTES.at n)) (.group n)).accepted 0x24)) ∧
  (∀ a v, Does (.redGroupLoad a v) (fun h => h.Reach a 0x24 0x44 ∧ h.g R.RED_SEL_GROUP < h.checkGroup 0 ∧ h.running 0x24 = true ∧ v % 2 = 0 ∧
      h.on (R.RED_CTL_EN.at (h.g R.RED_SEL_GROUP)) = true)
    (fun h =>
      let n := h.g R.RED_SEL_GROUP
      ((((h.reply 0).s (R.RED_CTL_EN.at n) 0).removeGroup n).floodRemoval n).accepted 0x24)) ∧
  (∀ p bs f, Does (.groupdefRx p 1 bs) (fun h => h.Hears p bs 5 f ∧ groupDefOk f.payload = true ∧ f.hseq = nth ((h.heard p).link p).rxNext f.cls ∧
      h.prof ≠ .l)
    (fun h => ((h.heard p).acceptRel p f 0 0).1.groupDef p f.payload)) ∧
  (∀ x, Does .reductionPartialArrival (fun h => (h.flw.held.find? fun x => h.takesSet x || h.contributes x.r ||
      (h.running 0x24 && h.arrived x && x.r.typ == 0x28 && x.dst.isSome)) = some x ∧ h.contributes x.r = true ∧ h.duplicate x.r = false)
    (fun h => (h.copied x).memberArrived x.r)) ∧
  (∀ x, Does .reductionPartialArrival (fun h => (h.flw.held.find? fun x => h.takesSet x || h.contributes x.r ||
      (h.running 0x24 && h.arrived x && x.r.typ == 0x28 && x.dst.isSome)) = some x ∧ h.contributes x.r = true ∧ h.duplicate x.r = true)
    (fun h => h.copied x)) ∧
  (∀ x, Does .reductionPartialArrival (fun h => (h.flw.held.find? fun x => h.takesSet x || h.contributes x.r ||
      (h.running 0x24 && h.arrived x && x.r.typ == 0x28 && x.dst.isSome)) = some x ∧ h.contributes x.r = false ∧ h.takesSet x = false ∧ h.duplicate x.r = false ∧
      x.r.known = true)
    (fun h => (h.deliver x).1.partialArrived x.r)) ∧
  Does .reductionPartialTimeout (fun h => h.state 0x24 = 2 ∨ h.state 0x24 = 3 ∨ h.state 0x24 = 6) (fun h => h.each (h.dueRounds false 4) fun h x => h.finishRound x.1 x.2 4) ∧
  Does .reductionRoundTimeout (fun h => h.state 0x24 = 2 ∨ h.state 0x24 = 3 ∨ h.state 0x24 = 6) (fun h => h.each (h.dueRounds true 1) fun h x => h.finishRound x.1 x.2 4)

/-- O41: what the commands and the messages of a launch do (R351–R356). -/
def Obligations.LaunchCommandsDo : Prop :=
  (∀ a, Does (.launchArmCmd a) (fun h =>
      let ns := h.g (R.FAB_LAUNCH_NT_NT.at 0) + 2 ^ 32 * h.g (R.FAB_LAUNCH_NT_NT.at 1)
      h.Reach a 0x28 0x314 ∧ h.running 0x28 = true ∧ h.g R.FAB_ID_STATE = 2 ∧ h.ns + 2000000 + 2 * h.launchH ≤ ns ∧
      0 < h.g R.FAB_LAUNCH_SIZE_SIZE ∧ h.g R.FAB_LAUNCH_SIZE_SIZE ≤ 262144 ∧ ∀ l, h.fab.launch = some l → l.decision ≠ 0)
    (fun h =>
      let ns := h.g (R.FAB_LAUNCH_NT_NT.at 0) + 2 ^ 32 * h.g (R.FAB_LAUNCH_NT_NT.at 1)
      let l : Launch := ⟨h.g R.FAB_LAUNCH_JOB_JOB, ns, h.g R.FAB_LAUNCH_SIZE_SIZE, h.nodeId, 0, 0, [], h.launchH⟩
      let k := { h.reply 0 with fab := { h.fab with launch := some l, seenMsgs := h.fab.seenMsgs.filter fun x => x.2 % 2 ^ 32 != l.job } }
      let k := ((k.showLaunch l 1 0).s R.FAB_LAUNCH_COUNT_COUNT 0).raise 0x28 19
      ((k.spread l (launchMsg l 0 0 0)).showBackup).accepted 0x28)) ∧
  (∀ a, Does (.launchArmCmd a) (fun h =>
      let ns := h.g (R.FAB_LAUNCH_NT_NT.at 0) + 2 ^ 32 * h.g (R.FAB_LAUNCH_NT_NT.at 1)
      h.Reach a 0x28 0x314 ∧ h.running 0x28 = true ∧ h.g R.FAB_ID_STATE = 2 ∧ ns < h.ns + 2000000 + 2 * h.launchH)
    (fun h => ((h.reply 0).err 0x28 E.badValue).s R.FAB_LAUNCH_STAT_REASON 2)) ∧
  (∀ a l, Does (.launchCancelCmd a) (fun h => h.Reach a 0x28 0x314 ∧ h.fab.launch = some l ∧ l.root = h.nodeId ∧ l.decision = 0 ∧
      h.ns + 500000 + l.h < l.instant)
    (fun h => ((h.reply 0).rootAbort l 3).accepted 0x28)) ∧
  (∀ l, Does .launchDeadline (fun h => h.faulted h.launchPage = false ∧ h.fab.launch = some l ∧ l.root = h.nodeId ∧ h.prof ≠ .l ∧ l.decision = 0 ∧
      l.instant ≤ h.ns + 500000 + l.h ∧ ackCount l.acks = l.size)
    (fun h =>
      let k := { h with fab := { h.fab with launch := some { l with decision := 1 } } }
      (((k.showLaunch l 2 0).raise 0x28 20).launchEvent l 2 0).spread l (launchMsg l 1 0 (ackCount l.acks)))) ∧
  (∀ l, Does .launchDeadline (fun h => h.faulted h.launchPage = false ∧ h.fab.launch = some l ∧ l.root = h.nodeId ∧ h.prof ≠ .l ∧ l.decision = 0 ∧
      l.instant ≤ h.ns + 500000 + l.h ∧ ackCount l.acks ≠ l.size)
    (fun h => h.rootAbort l 1)) ∧
  (∀ l, Does .launchInstant (fun h => h.faulted h.launchPage = false ∧ h.fab.launch = some l ∧ l.instant ≤ h.ns ∧ h.prof = .l ∧ l.decision = 1)
    (fun h => Hw.raise { h with fab := { h.fab with launch := none } } 0x2C 19)) ∧
  (∀ l, Does .launchInstant (fun h => h.faulted h.launchPage = false ∧ h.fab.launch = some l ∧ l.instant ≤ h.ns ∧ h.prof = .l ∧ l.decision = 0)
    (fun h =>
      let k := { h with fab := { h.fab with launch := none } }
      ((k.s R.CUL_LAUNCH_STAT_STATE 3).raise 0x2C 20).err 0x2C E.launchAbort)) ∧
  (∀ a, Does (.culLaunchAck a) (fun h => h.Reach a 0x2C 0x90 ∧ h.prof = .l ∧ h.g R.CUL_LAUNCH_STAT_STATE = 1)
    (fun h =>
      let k := (h.reply 0).s R.CUL_LAUNCH_STAT_ACKED 1
      (k.handOver (k.setRecords (h.g R.CUL_LAUNCH_JOB_JOB) [(k.g R.CUL_LEAF_NODE, 2 ^ k.g R.CUL_LEAF_PORT)] 0x0000 none)).accepted 0x2C)) ∧
  (∀ a i v l, i < 4 → Does (.fabProxyAckWrite a i v) (fun h => h.Reach a 0x28 (0x320 + 4 * i) ∧ h.prof = .t ∧ h.fab.launch = some l ∧ l.decision = 0 ∧
      (addAcks l.acks h.nodeId (v % 2 ^ 32 * 2 ^ (32 * i))).2 = true)
    (fun h => ((h.reply 0).acksChanged { l with acks := (addAcks l.acks h.nodeId (v % 2 ^ 32 * 2 ^ (32 * i))).1 }).accepted 0x28)) ∧
  (∀ p bs f, Does (.launchArmRx p 1 bs) (fun h => h.HearsLaunch p bs 0 f ∧ h.prof = .l)
    (fun h =>
      let k := h.heardLaunch p 0 f
      let l := k.toldLaunch f.payload
      let k := Hw.s { k with fab := { k.fab with launch := some { l with decision := 0, acks := [] } } } R.CUL_LAUNCH_JOB_JOB l.job
      let k := k.s64 (R.CUL_LAUNCH_NT_NT.at 0) (R.CUL_LAUNCH_NT_NT.at 1) l.instant
      (((k.s (R.CUL_LAUNCH_NT_NT.at 2) 0).s R.CUL_LAUNCH_STAT_STATE 1).s R.CUL_LAUNCH_STAT_ACKED 0).raise 0x2C 18)) ∧
  (∀ p bs f, Does (.launchCommitRx p 1 bs) (fun h => h.HearsLaunch p bs 1 f ∧ h.prof = .l ∧
      (h.heardLaunch p 1 f).ns < ((h.heardLaunch p 1 f).toldLaunch f.payload).instant)
    (fun h =>
      let k := h.heardLaunch p 1 f
      Hw.s { k with fab := { k.fab with launch := some { k.toldLaunch f.payload with decision := 1 } } } R.CUL_LAUNCH_STAT_STATE 2)) ∧
  (∀ p bs f, Does (.launchAbortRx p 1 bs) (fun h => h.HearsLaunch p bs 2 f ∧ h.prof = .l)
    (fun h =>
      let k := h.heardLaunch p 2 f
      (Hw.s { k with fab := { k.fab with launch := some { k.toldLaunch f.payload with decision := 2, reason := nth f.payload 1 } } }
        R.CUL_LAUNCH_STAT_STATE 3).raise 0x2C 20)) ∧
  (∀ p bs f, Does (.launchArmRx p 1 bs) (fun h => h.HearsLaunch p bs 0 f ∧
      let k := h.heardLaunch p 0 f
      let l := k.toldLaunch f.payload
      h.prof ≠ .l ∧ (((Hw.showLaunch { k with fab := { k.fab with launch := some { l with decision := 0, acks := [] } } } l 1 0).raise 0x28 19).showBackup).prof ≠ .l)
    (fun h =>
      let k := h.heardLaunch p 0 f
      let l := k.toldLaunch f.payload
      (((Hw.showLaunch { k with fab := { k.fab with launch := some { l with decision := 0, acks := [] } } } l 1 0).raise 0x28 19).showBackup).spread l f.payload))

/-- O42: what the instants of flow control, ledgers and delivery do, and the copy engine's descriptors (R191, R368, R369, R374–R380, R580). -/
def Obligations.FlowCommandsDo : Prop :=
  (∀ source, Does (.streamRecordRelease source) (fun h => ∃ x ∈ h.flw.streams, x.source = source)
    (fun h => h.releaseStream source false (h.stream source).held.length)) ∧
  (∀ source r rest, localOf source ≠ 0x1002 → Does (.streamRecordRelease source) (fun h => (∃ x ∈ h.flw.streams, x.source = source) ∧
      (h.stream source).held = r :: rest ∧ h.pathBefore r.source r.stamp = true ∧ h.frc < r.stamp.frc + 200000) (fun h => h)) ∧
  Does .gapEmitDeadline (fun _ => True) (fun h => h.each (h.flw.losses.filter fun l => l.at_ + 100000 ≤ h.frc) fun h l => h.emitGap l) ∧
  Does .ledgerPeriodClose (fun h => h.flwWorks = true ∧ h.timed = true ∧ h.periodEnd + h.ackDelay ≤ h.ns)
    (fun h => h.closePeriod h.periodEnd h.periodEnd 0) ∧
  Does .ledgerPeriodClose (fun h => h.ns < h.periodEnd + h.ackDelay) (fun h => h) ∧
  Does .leafRehome (fun h => h.prof = .l ∧ h.running 0x30 = true ∧ h.g R.CUL_LEAF_ACTIVE = 1 ∧ h.on R.FLW_STAT_REHOMED = false ∧ (h.link 0).up = true ∧
      (h.link 1).up = true ∧ h.since (h.flw.pressSince.getD 0 none) (h.g R.FLW_CFG_REHOME_MS * 1000000) = true ∧ (h.flw.headSince.getD 1 none).isSome = true)
    (fun h => (((h.s R.CUL_LEAF_ACTIVE 2).s R.FLW_STAT_REHOMED 1).raise 0x30 23).choice 12) ∧
  Does .leafRehomeReturn (fun h => h.prof = .l ∧ h.on R.FLW_STAT_REHOMED = true ∧ (h.link 0).up = true ∧
      h.since (h.flw.noPressSince.getD 0 none) (h.g R.CUL_CFG_FAILBACK_MS * 1000000) = true)
    (fun h => (h.s R.CUL_LEAF_ACTIVE 1).s R.FLW_STAT_REHOMED 0) ∧
  Does .leafEncStepDown (fun h => h.running 0x30 = true ∧ h.noRelief h.rehomeNs = true ∧ h.encoding < 2 ∧
      (h.cnt.stepDown = 0 ∨ h.cnt.stepFrc + h.rehomeNs ≤ h.frc))
    (fun h => (Hw.s { h with cnt := { h.cnt with stepDown := h.cnt.stepDown + 1, stepFrc := h.frc } } R.FRM_STAT_STEPPED_DOWN
      (b2n (h.g R.FRM_CFG_ENC < h.g R.FRM_STAT_ENC_ACTIVE))).choice 11) ∧
  Does .leafEncStepUp (fun h => 0 < h.cnt.stepDown ∧ h.calm h.failbackNs = true ∧ h.cnt.stepFrc + h.failbackNs ≤ h.frc)
    (fun h => (Hw.s { h with cnt := { h.cnt with stepDown := h.cnt.stepDown - 1, stepFrc := h.frc } } R.FRM_STAT_STEPPED_DOWN
      (b2n ((h.cnt.stepDown - 1 != 0 || h.on R.FRM_STAT_STEPPED_DOWN) && h.g R.FRM_CFG_ENC < h.g R.FRM_STAT_ENC_ACTIVE))).choice 11) ∧
  (∀ c x at_ t, Does (.deliveryRingWrite c) (fun h => h.flwWorks = true ∧ h.ringBusy c = false ∧ h.coverLosses.ringNext c = some x ∧
      h.coverLosses.duplicate x.r = false ∧ h.coverLosses.ringAt c x.r = some (0, at_, t))
    (fun h =>
      let k := h.coverLosses
      k.dmaWrite k.operCtx (k.g64 (R.DLV_BASE_LO_BASE.at c) (R.DLV_BASE_HI_BASE.at c) + at_) x.r.bytes (.ring c x.r))) ∧
  (∀ c x, Does (.deliveryRingWrite c) (fun h => h.flwWorks = true ∧ h.ringBusy c = false ∧ h.coverLosses.ringNext c = some x ∧
      h.coverLosses.duplicate x.r = true)
    (fun h => (h.coverLosses.deliver x).1)) ∧
  (∀ x, Does .routeWaitExpiry (fun h => h.prof ≠ .l ∧ h.flwWorks = true ∧ h.flw.held = [x] ∧ h.arrived x = false ∧ h.route (h.dstOf x) = none ∧ x.route = [] ∧
      x.waitFrom + h.g R.FLW_ROUTE_WAIT_MS * 1000000 ≤ h.frc)
    (fun h => (Hw.add { h with flw := { h.flw with held := [{ x with dst := some (h.g R.FAB_ID_NODE) }] } } R.FLW_NOROUTE_COUNT 1).raise 0x30 22)) ∧
  (∀ q d, Does (.copyHostrec q) (fun h => h.firmware = true ∧ h.Starts q 7 0x40 [(0, 16, 1), (1, 0, 64), (2, 0, 12)] d ∧ 0 < dw d 2 0 12 ∧ dw d 2 0 12 ≤ 4080)
    (fun h => h.descRead q (nth d 1) (dw d 2 0 12))) ∧
  (∀ q d, Does (.copyHostrec q) (fun h => h.firmware = true ∧ h.Starts q 7 0x40 [(0, 16, 1), (1, 0, 64), (2, 0, 12)] d ∧ dw d 2 0 12 = 0)
    (fun h => (h.hostRec (dw d 0 16 1 == 1) []).descDone q)) ∧
  (∀ q d, Does (.copyBytes q) (fun h => h.Starts q 7 0x41 [(1, 0, 64), (2, 0, 40), (3, 0, 64)] d ∧ dw d 2 0 40 ≠ 0)
    (fun h => h.descRead q (nth d 1) (dw d 2 0 40)))

/-- O43: what the shaper's commands do (R381–R387). -/
def Obligations.ShaperCommandsDo : Prop :=
  (∀ p c f rs len, Does (.egressFrameSelect p) (fun h =>
      let k := (h.coverLosses.gateRefresh 0).gateRefresh 1
      h.shpOpen = true ∧ (h.link p).up = true ∧ h.flwWorks = true ∧ (k.selectQueue p).1 = some c ∧ (k.selectQueue p).2.ptpHead p c = none ∧
      (k.selectQueue p).2.eligible p c = some (f, rs, len) ∧ k.completes p c len = true ∧ k.paid p c len f.replay = true)
    (fun h => ((((h.coverLosses.gateRefresh 0).gateRefresh 1).selectQueue p).2).sendHead p c f rs len)) ∧
  (∀ p c f rs len, Does (.egressFrameSelect p) (fun h =>
      let k := (h.coverLosses.gateRefresh 0).gateRefresh 1
      h.shpOpen = true ∧ (h.link p).up = true ∧ h.flwWorks = true ∧ (k.selectQueue p).1 = some c ∧ (k.selectQueue p).2.ptpHead p c = none ∧
      (k.selectQueue p).2.eligible p c = some (f, rs, len) ∧ k.paid p c len f.replay = false)
    (fun h => (h.coverLosses.gateRefresh 0).gateRefresh 1)) ∧
  (∀ p w, Does (.egressFrameSelect p) (fun h =>
      let k := (h.coverLosses.gateRefresh 0).gateRefresh 1
      h.shpOpen = true ∧ (h.link p).up = true ∧ h.flwWorks = true ∧ (k.selectQueue p).1 = some 2 ∧ (k.selectQueue p).2.ptpHead p 2 = some w ∧
      k.completes p 2 (k.ptpLen p w) = true ∧ k.paid p 2 (k.ptpLen p w) false = true)
    (fun h => ((((h.coverLosses.gateRefresh 0).gateRefresh 1).selectQueue p).2).sendWaiting p w)) ∧
  (∀ p, Does (.egressFrameSelect p) (fun h => h.shpOpen = false) (fun h => h)) ∧
  (∀ g, g < 2 → Does (.gateEntryChange g) (fun h => h.running 0x34 = true ∧ ∃ c, (h.gateList g).pending = some c ∧ c.mode = 1 ∧ (h.gateList g).at_ ≤ h.ns)
    (fun h => h.gateSwap g)) ∧
  (∀ g, g < 2 → Does (.gateEntryChange g) (fun h => (h.gateList g).pending = none) (fun h => h.showGates g)) ∧
  (∀ a g, g < 2 → Does (.shpGswap a g) (fun h => h.Reach a 0x34 0xC0 ∧ h.off 0x34 = true ∧ (h.shadowGates g).mode = 0)
    (fun h =>
      let c := h.shadowGates g
      let at_ := if h.ns ≤ c.base then c.base else c.base + ceilDiv (h.ns - c.base) (max 1 c.cycle) * c.cycle
      (((h.reply 0).putGates g { h.gateList g with pending := some c, at_ := at_ }).gateRefresh g).accepted 0x34)) ∧
  (∀ a g, g < 2 → Does (.shpGswap a g) (fun h => h.Reach a 0x34 0xC0 ∧ 3 ≤ (h.shadowGates g).mode) (fun h => (h.reply 0).err 0x34 E.badValue))

/-- O44: rehoming and stepping change only the block's own traffic, and neither is an action on the fleet (R377): of the whole machine they change the
home in use, the steps of the encoding and when the last was taken, the interrupt bit of each with the note of the tick that set it (R11), and the
record of the choice (R25, R281). No ACTION record is made, no entry is written, no frame or record in hand is touched. -/
def Obligations.HealingIsNoAction : Prop :=
  ∀ c ∈ [Instr.leafRehome, .leafRehomeReturn, .leafEncStepDown, .leafEncStepUp], ∀ s t : State, exec c s = .next t →
    t.mem = s.mem ∧
    t.hw = { s.hw with out := [], regs := t.hw.regs, sets := t.hw.sets, cnt := { s.hw.cnt with stepDown := t.hw.cnt.stepDown, stepFrc := t.hw.cnt.stepFrc } } ∧
    ∀ f : Field, (∀ g ∈ [R.CUL_LEAF_ACTIVE, R.FLW_STAT_REHOMED, R.FRM_STAT_STEPPED_DOWN, R.PAGE_IRQ_STAT_FUNC_IRQ 0x30, R.PAGE_IRQ_STAT_FUNC_IRQ 0x13,
        R.ND_TOTAL_LO_COUNT, R.ND_TOTAL_HI_COUNT, R.ND_LAST_CAUSE, R.ND_LAST_FRC_LO_FRC, R.ND_LAST_FRC_HI_FRC, R.ND_CNT_COUNT.at 11, R.ND_CNT_COUNT.at 12],
      f.key ≠ g.key) → t.hw.g f = s.hw.g f

/-! ### Trace and debug -/

/-- O45: what the trace unit's packets, watchpoints, trigger lines and accesses do (R59, R66, R396, R397, R405, R406, R408, R409, R411, R418). -/
def Obligations.TraceCommandsDo : Prop :=
  (∀ ch engine kind tag, ch < 2 → engine < 256 → Does (.cmtEvent ch engine kind tag) (fun h => h.prof = .l ∧ h.pwr.core = true ∧ 64 ≤ h.trc.cmt.length)
    (fun h => (h.tracedrop (engine / 16) 1 false).count 1 engine 3 1)) ∧
  (∀ ch engine tag, ch < 2 → engine < 256 → Does (.cmtEvent ch engine 0 tag) (fun h => h.prof = .l ∧ h.pwr.core = true ∧ h.trc.cmt.length < 64)
    (fun h =>
      let k := (h.count 1 engine 0 1).countBusy
      let b := (k.cnt.busy.find? fun x => x.1 == engine).getD (engine, 0, k.frc)
      { k with cnt := { k.cnt with busy := (engine, b.2.1 + 1, k.frc) :: k.cnt.busy.filter fun x => x.1 != engine },
               trc := { k.trc with cmt := k.trc.cmt ++ [⟨ch, engine, 0, tag % 2 ^ 32, k.frc⟩] } })) ∧
  Does .traceSyncTimer (fun h => h.running 0x38 = true ∧ h.trc.lastSyncFrc + h.cclkNs 4096 ≤ h.frc ∧ ∀ e ∈ h.trc.blk, e.id ≠ 0x7F)
    (fun h => (Hw.each { h with trc := { h.trc with lost := [] } } h.trc.lost fun h x => h.trace 0x31 9 x.1 x.2).traceLater ⟨0x7F, 0, 0, 0, 0⟩) ∧
  Does .traceSyncTimer (fun h => h.frc < h.trc.lastSyncFrc + h.cclkNs 4096) (fun h => h) ∧
  (∀ id o, Does (.traceRecordCloseTimer id) (fun h => h.faulted 0x38 = false ∧ (h.trc.open_.find? fun o => o.id == id) = some o ∧ o.firstFrc + 10000 ≤ h.frc)
    (fun h =>
      let k := { h with trc := { h.trc with open_ := h.trc.open_.filter fun x => x.id != id } }
      k.handOver [k.mkRec 0x38 (if k.on (R.TRC_ID_PRIO.at id) then 5 else 6) (0x0100 + id) k.ownGrade o.stamp
        (o.packets.flatMap fun p => p.2.take 4 ++ le 4 (p.1 - o.stamp.nt / 65536) ++ p.2.drop 8)])) ∧
  (∀ a, Does (.trcRearm a) (fun h => h.Reach a 0x38 0x4C ∧ h.on R.TRC_STAT_FILLING = false ∧ h.running 0x38 = true)
    (fun h => (h.reply 0).bufEmpty.syncPacket.accepted 0x38)) ∧
  (∀ a, Does (.trcRearm a) (fun h => h.Reach a 0x38 0x4C ∧ h.on R.TRC_STAT_FILLING = true) (fun h => (h.reply 0).err 0x38 E.badState)) ∧
  Does .traceBufferFrozen (fun h => h.faulted 0x38 = false ∧ h.on R.TRC_STAT_FILLING = true ∧ h.trc.postLeft < 16)
    (fun h => (((h.s R.TRC_STAT_FROZEN 1).s R.TRC_STAT_FILLING 0).raise 0x38 16).archiveAuto) ∧
  (∀ w, w < 16 → Does (.watchpointCrossing w) (fun h => h.prof ≠ .g ∧ h.on (R.WP_CTL_EN.at w) = true ∧ h.running 0x38 = true ∧
      h.gauge (h.g (R.WP_CTL_SLOT.at w)) = false ∧ h.g (R.WP_CTL_CMP.at w) = 0 ∧
      (∃ v, (h.trc.wpAt.find? fun x => x.1 == w && x.2.1 == h.g (R.WP_CTL_SLOT.at w)) = some (w, h.g (R.WP_CTL_SLOT.at w), v) ∧
        v < h.g64 (R.WP_THR_LO_THR.at w) (R.WP_THR_HI_THR.at w)) ∧
      h.g64 (R.WP_THR_LO_THR.at w) (R.WP_THR_HI_THR.at w) ≤ h.slotNow (h.g (R.WP_CTL_SLOT.at w)))
    (fun h =>
      let k := { h with trc := { h.trc with wpAt := (w, h.g (R.WP_CTL_SLOT.at w), h.slotNow (h.g (R.WP_CTL_SLOT.at w))) :: h.trc.wpAt.filter (fun x => x.1 != w),
                                            wpFrc := (w, h.frc) :: h.trc.wpFrc.filter fun x => x.1 != w } }
      let k := (k.inc (R.WP_HITS_COUNT.at w)).trace (0x20 + w) 3 (h.g (R.WP_CTL_SLOT.at w)) (h.slotNow (h.g (R.WP_CTL_SLOT.at w)))
      if k.on (R.WP_CTL_TRIG.at w) && k.on (R.TL_CTL_WP.at (k.g (R.WP_CTL_LINE.at w))) then k.fireLine (k.g (R.WP_CTL_LINE.at w)) none else k)) ∧
  (∀ n, n < 4 → Does (.trigInEdge n) (fun h => h.pwr.core = true ∧ (h.count 5 n 0 1).on (R.TL_CTL_IN.at n) = true)
    (fun h => (h.count 5 n 0 1).fireLine n none)) ∧
  (∀ n, n < 4 → Does (.trigInEdge n) (fun h => h.pwr.core = true ∧ (h.count 5 n 0 1).on (R.TL_CTL_IN.at n) = false) (fun h => h.count 5 n 0 1)) ∧
  (∀ n, Does (.trigOutPulseEnd n) (fun _ => True)
    (fun h => { h with trc := { h.trc with trigOut := h.trc.trigOut.filter fun x => !(x.1 == n && decide (x.2 ≤ h.frc)) } })) ∧
  (∀ a line, Does (.trcTrigger a line) (fun h => h.Reach a 0x38 0x4C ∧ h.on (R.TL_CTL_SOFT.at (line % 4)) = true)
    (fun h => ((h.reply 0).fireLine (line % 4) none).accepted 0x38)) ∧
  (∀ a line, Does (.trcTrigger a line) (fun h => h.Reach a 0x38 0x4C ∧ h.on (R.TL_CTL_SOFT.at (line % 4)) = false)
    (fun h => (h.reply 0).accepted 0x38)) ∧
  (∀ p bs f, Does (.triggerFrameRx p 1 bs) (fun h => h.Hears p bs 6 f ∧ f.payload.length = 32 ∧ nth f.payload 0 = 3 ∧
      f.hseq = nth ((h.heard p).link p).rxNext f.cls ∧ isCulvert p = true ∧ h.prof = .l ∧
      ((h.heard p).acceptRel p f 0 0).1.fab.trigSeen.contains (fld f.payload 4 4, fld f.payload 16 4) = false)
    (fun h =>
      let k := ((h.heard p).acceptRel p f 0 0).1
      let k := { k with fab := { k.fab with trigSeen := (fld f.payload 4 4, fld f.payload 16 4) :: k.fab.trigSeen } }
      if nth f.payload 1 < 4 && k.on (R.TL_CTL_REMOTE.at (nth f.payload 1)) then k.fireLine (nth f.payload 1) (some (fld f.payload 4 4, fld f.payload 16 4))
      else k)) ∧
  (∀ p bs f, nth f.payload 1 < 4 → Does (.triggerFrameRx p 1 bs) (fun h => h.Hears p bs 6 f ∧ f.payload.length = 32 ∧ nth f.payload 0 = 3 ∧
      f.hseq = nth ((h.heard p).link p).rxNext f.cls ∧ isCulvert p = true ∧ h.prof ≠ .l ∧
      let k := ((h.heard p).acceptRel p f 0 0).1
      k.fab.trigSeen.contains (fld f.payload 4 4, fld f.payload 16 4) = false ∧ k.running 0x38 = true ∧
      k.on (R.TL_CTL_FABRIC.at (nth f.payload 1)) = true)
    (fun h =>
      let k := ((h.heard p).acceptRel p f 0 0).1
      let k := { k with fab := { k.fab with trigSeen := (fld f.payload 4 4, fld f.payload 16 4) :: k.fab.trigSeen } }
      let me := k.g R.FAB_ID_NODE
      let msg := f.payload.take 2 ++ le 2 me ++ f.payload.drop 4
      let k := (k.each (k.launchChildren me) fun k c => k.sendTo c 6 msg).sendLeaves 6 msg
      if k.on (R.TL_CTL_REMOTE.at (nth f.payload 1)) then k.fireLine (nth f.payload 1) (some (fld f.payload 4 4, fld f.payload 16 4)) else k)) ∧
  (∀ p bs f, nth f.payload 1 < 4 → Does (.triggerFrameRx p 1 bs) (fun h => h.Hears p bs 6 f ∧ f.payload.length = 32 ∧ nth f.payload 0 = 3 ∧
      f.hseq = nth ((h.heard p).link p).rxNext f.cls ∧ isCulvert p = true ∧ h.prof ≠ .l ∧
      let k := ((h.heard p).acceptRel p f 0 0).1
      k.fab.trigSeen.contains (fld f.payload 4 4, fld f.payload 16 4) = false ∧ k.on (R.TL_CTL_FABRIC.at (nth f.payload 1)) = false)
    (fun h =>
      let k := ((h.heard p).acceptRel p f 0 0).1
      let k := Hw.sendLeaves { k with fab := { k.fab with trigSeen := (fld f.payload 4 4, fld f.payload 16 4) :: k.fab.trigSeen } } 6 f.payload
      if k.on (R.TL_CTL_REMOTE.at (nth f.payload 1)) then k.fireLine (nth f.payload 1) (some (fld f.payload 4 4, fld f.payload 16 4)) else k)) ∧
  (∀ a m v, m < 16 → Does (.trcSwmarkWrite a m v) (fun h => h.Reach a 0x38 0x700)
    (fun h => ((h.reply 0).trace (0x10 + m) 2 0 (v % 2 ^ 64)).accepted 0x38)) ∧
  (∀ a, Does (.trcRdDataRead a) (fun h => h.Reach a 0x38 0x64)
    (fun h => (h.reply (h.traceWord (h.g R.TRC_RD_OFF_OFF))).s R.TRC_RD_OFF_OFF ((h.g R.TRC_RD_OFF_OFF + 4) % max 4 h.traceSize)))

/-- O46: what the edges of the host's low-power request do (R412, R413). -/
def Obligations.LowPowerCommandsDo : Prop :=
  (∀ stops, Does (.hostLpReqRise stops) (fun h => h.prof = .l ∧ h.pwr.aon = true ∧ h.trc.lpReq = false ∧ h.pwr.core = true ∧ h.running 0x38 = true)
    (fun h =>
      let t := { h.trc with lpReq := true, lpAck := false, lpRise := h.frc, lpRiseNt := h.nt, lpStore := none, lpSent := false, lpMissing := false,
                            lpFall := none, lpStopped := !stops.isEmpty, coreLost := false, bufLost := false }
      let k := Hw.countBusy (Hw.powerDown { h with trc := t })
      { k with cnt := { k.cnt with stopped := k.cnt.stopped || !stops.isEmpty, halted := stops } })) ∧
  Does .hostLpReqFall (fun h => h.trc.lpReq = true ∧ h.countBusy.running 0x38 = true)
    (fun h =>
      let k := h.countBusy
      Hw.powerUp { k with cnt := { k.cnt with halted := [] }, trc := { k.trc with lpReq := false, lpAck := false, lpFall := some (k.frc, k.nt) } })

/-- O47: what a global stop, its scan-out, its dump and a hang dump do (R68, R69, R414, R415, R417). -/
def Obligations.DebugCommandsDo : Prop :=
  (∀ a, Does (.dbgStop a) (fun h => h.Reach a 0x3A 0x44 ∧ h.prof = .l ∧ h.running 0x3A = true ∧ h.g R.DBG_STAT_STATE = 0 ∧ h.trc.stopReq = false ∧
      h.on R.DBG_CFG_FREEZE = false)
    (fun h =>
      let k := h.reply 0
      let k := { k with trc := { k.trc with stopCause := 0, stopNt := h.nt, stopFrc := h.frc, hostScan := [],
                                            stopSecs := k.dumpSections k.pageList (List.range k.queueCount) } }
      let k := (k.s R.DBG_STAT_STATE 1).raise 0x3A 16
      Hw.accepted { k with trc := { k.trc with stopReq := !k.saf.testMode } } 0x3A)) ∧
  (∀ a, Does (.dbgStop a) (fun h => h.Reach a 0x3A 0x44 ∧ h.running 0x3A = true ∧ h.g R.DBG_STAT_STATE = 0 ∧ h.trc.stopReq = false ∧
      h.on R.DBG_CFG_FREEZE = true ∧ h.running 0x38 = true)
    (fun h =>
      let k := h.reply 0
      ((k.fresh.2.fresh.2.traceLater ⟨0x31, 8, k.fresh.1 % 2 ^ 16, k.fresh.2.fresh.1 % 2 ^ 64, 2⟩).globalStop 0).accepted 0x3A)) ∧
  (∀ a, Does (.dbgStop a) (fun h => h.Reach a 0x3A 0x44 ∧ h.running 0x3A = true ∧ h.g R.DBG_STAT_STATE = 0 ∧ h.trc.stopReq = true)
    (fun h => (h.reply 0).accepted 0x3A)) ∧
  (∀ a, Does (.dbgStop a) (fun h => h.Reach a 0x3A 0x44 ∧ h.running 0x3A = true ∧ h.g R.DBG_STAT_STATE ≠ 0)
    (fun h => ((h.reply 0).inc R.DBG_STOP_EXTRA_COUNT).accepted 0x3A)) ∧
  Does .stopAckRise (fun h => h.faulted 0x3A = false ∧ h.prof = .l ∧ h.trc.stopReq = true ∧ h.g R.DBG_STAT_STATE = 1)
    (fun h => Hw.startScan { h with trc := { h.trc with stopReq := false } }) ∧
  Does .stopAckTimeout (fun h => h.faulted 0x3A = false ∧ h.g R.DBG_STAT_STATE = 1 ∧ h.trc.stopFrc + 1000000 ≤ h.frc ∧ h.on R.DBG_CFG_SCAN_HOST = true)
    (fun h => Hw.s { h with trc := { h.trc with scnReq := true, scnFrc := h.frc } } R.DBG_STAT_STATE 2) ∧
  (∀ data, Does (.scnAckRise data) (fun h => h.faulted 0x3A = false ∧ h.g R.DBG_STAT_STATE = 2 ∧ h.trc.scnReq = true)
    (fun h => Hw.writeDump { h with trc := { h.trc with hostScan := data.map (· % 256) } } false)) ∧
  Does .scanAckTimeout (fun h => h.faulted 0x3A = false ∧ h.g R.DBG_STAT_STATE = 2 ∧ h.trc.scnReq = true ∧ h.trc.scnFrc + 1000000 ≤ h.frc) (fun h => h.writeDump true) ∧
  Does .dumpComplete (fun h => h.faulted 0x3A = false ∧ h.g R.DBG_STAT_STATE = 3 ∧ h.trc.stopReq = false ∧ (h.dma.any fun d => d.purpose == .dump) = false)
    (fun h => (h.s R.DBG_STAT_STATE 0).raise 0x3A 17) ∧
  (∀ q r, Does (.hangWatchdogExpiry q) (fun h => h.g R.DBG_WDOG_MS_MS ≠ 0 ∧ h.running 0x3A = true ∧ h.on (R.DBG_HANG_STAT_DONE.at (h.qCtx q)) = false ∧
      h.g64 (R.DBG_HANG_LO_ADDR.at (h.qCtx q)) (R.DBG_HANG_HI_ADDR.at (h.qCtx q)) ≠ 0 ∧
      ((h.queue q).runs.find? fun r => r.bornFrc + h.g R.DBG_WDOG_MS_MS * 1000000 ≤ h.frc) = some r)
    (fun h =>
      let c := h.qCtx q
      let d := dumpBytes (2 ^ 30) 4 h.nt 5 c h.frc (h.dumpSections (h.pageList.filter fun p => h.g (R.PAGE_OWNER_OWNER p) == c)
        ((List.range h.queueCount).filter fun q => h.qCtx q == c))
      let k := h.dmaWrite c (h.g64 (R.DBG_HANG_LO_ADDR.at c) (R.DBG_HANG_HI_ADDR.at c)) d.1 (.hang c)
      ((k.setBits (R.DBG_HANG_STAT_DONE.at c) 1).s (R.DBG_HANG_STAT_QUEUE.at c) q).raise 0x3A 18)) ∧
  (∀ a c v, c < 64 → bit v 0 = true → Does (.dbgHangDoneClear a c v) (fun h => h.Reach a 0x3A (0x108 + 0x10 * c))
    (fun h => ((h.reply 0).clrBits (R.DBG_HANG_STAT_DONE.at c) 1).accepted 0x3A)) ∧
  (∀ a c v, c < 64 → bit v 0 = false → Does (.dbgHangDoneClear a c v) (fun h => h.Reach a 0x3A (0x108 + 0x10 * c)) (fun h => (h.reply 0).accepted 0x3A))

/-! ### Wear and optics -/

/-- O48: what sensor results, sentinels and the records of both do (R60, R419–R425, R432). -/
def Obligations.WearCommandsDo : Prop :=
  (∀ ch v, Does (.sensorResult ch v) (fun h => h.pwr.aon = true ∧ ch < h.sensorCount ∧ (h.hazardResult ch (signed 16 v)).pwr.core = true ∧
      ch ≠ ((h.hazardResult ch (signed 16 v)).countSensor ch (signed 16 v)).g R.TIM_CFG_TEMP_CH)
    (fun h =>
      let k := (h.hazardResult ch (signed 16 v)).countSensor ch (signed 16 v)
      let k := { k with hlt := { k.hlt with latest := (ch, signed 16 v) :: k.hlt.latest.filter fun e => e.1 != ch } }
      (k.sensorEntry ch (signed 16 v)).opticalResult ch (signed 16 v))) ∧
  (∀ ch v, Does (.sensorResult ch v) (fun h => h.pwr.aon = true ∧ h.pwr.core = true ∧ h.sensorCount ≤ ch) (fun h => h.inc R.HLT_SENS_RANGE_COUNT)) ∧
  Does .sensorRecordCloseTimer (fun h => h.running 0x40 = true ∧ h.hlt.open_ ≠ [] ∧ h.hlt.openFrc + 100000 ≤ h.frc)
    (fun h =>
      let st := h.hlt.openStamp
      let body := h.hlt.open_.flatMap fun e =>
        le 2 e.1 ++ le 2 (unsigned 16 e.2.1) ++ le 4 (unsigned 32 ((e.2.2 : Int) - ((st.nt / 65536 : Nat) : Int)))
      let k := { h with hlt := { h.hlt with open_ := [] } }
      k.handOver [k.mkRec 0x49 3 0x0900 k.ownGrade st (le 2 h.hlt.open_.length ++ [0, 0, 0, 0, 0, 0] ++ body)]) ∧
  Does .sentinelSampleStart (fun h => h.prof = .l ∧ h.running 0x40 = true ∧ h.hlt.gate = none ∧ h.on R.TIM_STATUS_TRANSIENT = false ∧
      h.hlt.lastFrc + h.g R.HLT_WS_CFG_INTERVAL_S * 1000000000 ≤ h.frc)
    (fun h => Hw.emit { h with hlt := { h.hlt with gate := some h.frc, lastFrc := h.frc,
                                                   sentinels := h.hlt.sentinels.map fun x => { x with edges := 0 } } } .sentinelGate) ∧
  (∀ n t, n < 64 → Does (.wsOutEdge n) (fun h => h.prof = .l ∧ h.pwr.core = true ∧ (h.count 4 n 0 1).hlt.gate = some t)
    (fun h =>
      let k := h.count 4 n 0 1
      k.putSentinel { k.sentinel n with edges := (k.sentinel n).edges + 1 })) ∧
  (∀ n, n < 64 → Does (.wsOutEdge n) (fun h => h.prof = .l ∧ h.pwr.core = true ∧ (h.count 4 n 0 1).hlt.gate = none) (fun h => h.count 4 n 0 1)) ∧
  (∀ t e, Does .sentinelGateComplete (fun h => h.running 0x40 = true ∧ h.hlt.gate = some t ∧ t + 10000000 ≤ h.frc ∧
      (h.hlt.latest.find? fun e => e.1 == h.g R.HLT_WS_CFG_TEMP_CH) = some e)
    (fun h => Hw.dieWear (Hw.each { h with hlt := { h.hlt with gate := none } } h.sentinelsOn fun h n => h.sampleSentinel e.2 n))) ∧
  (∀ t, Does .sentinelGateComplete (fun h => h.hlt.gate = some t ∧ h.frc < t + 10000000) (fun h => h))

/-- O49: what the optical evaluation, the fade line and the prearmed switch do (R427–R432). -/
def Obligations.OpticsCommandsDo : Prop :=
  Does .opticalEvaluation (fun h => h.running 0x42 = true ∧ h.opt.evalFrc + h.g R.OPT_CFG_EVAL_MS * 1000000 ≤ h.frc)
    (fun h =>
      let all := (h.lanesOf 1).map h.evalLane
      let k := (h.each all fun h e => h.laneOutcome all e).each (h.lanesOf 2) fun h n => h.receiveLane n
      { k with opt := { k.opt with evalFrc := k.frc, sums := [], remote := [] } }) ∧
  Does .fadeInterval (fun h => h.running 0x42 = true ∧ h.opt.fadeFrc + h.g R.OPT_FADE_FADE_INT_S * 1000000000 ≤ h.frc)
    (fun h =>
      let k := h.each (h.lanesOf 1) fun h n => h.fadeMean n
      { k with opt := { k.opt with fadeFrc := k.frc } }) ∧
  (∀ n e, Does (.switchExecution n) (fun h => h.running 0x42 = true ∧ h.vEntry n = some e ∧ e.kind = 2 ∧ e.state = 3 ∧ e.due = false ∧
      (e.prior = 2 ∨ e.authFrc + 60000000000 ≤ h.frc) ∧ h.switchGate = true ∧
      (e.shut = true ∨ h.g R.OPT_CFG_SW_LIST = 0))
    (fun h => h.atInstant e)) ∧
  (∀ n e, Does (.switchExecution n) (fun h => h.vEntry n = some e ∧ e.kind = 2 ∧ (h.switchGate = false ∨ (e.shut = false ∧ h.g R.OPT_CFG_SW_LIST ≠ 0)))
    (fun h => h)) ∧
  Does .heaterResultsLatch (fun h => h.running 0x42 = true ∧ h.opt.latched = false ∧ h.opt.loopFrc + 40000 ≤ h.frc)
    (fun h =>
      let k := h.each (List.range h.groupCount) Hw.loopGroup
      { k with opt := { k.opt with latched := true } }) ∧
  (∀ a, Does (.hgSwap a) (fun h => h.Reach a 0x42 0x124)
    (fun h =>
      let k := h.reply 0
      (k.putGroup { k.heatGroup (k.g R.OPT_HSEL_GRP) with swap := true }).accepted 0x42)) ∧
  (∀ a, Does (.hgCal a) (fun h => h.Reach a 0x42 0x124 ∧ h.running 0x42 = true ∧ h.on (R.HG_CFG_EN.at (h.g R.OPT_HSEL_GRP)) = true ∧
      (h.opt.groups.any fun x => x.cal.isSome || x.result.isSome) = false)
    (fun h =>
      let k := h.reply 0
      ((k.putGroup { k.heatGroup (k.g R.OPT_HSEL_GRP) with cal := some ⟨0, 0, 0, [], [], []⟩ }).s (R.HG_STAT_CAL_RUN.at (h.g R.OPT_HSEL_GRP)) 1).accepted 0x42)) ∧
  (∀ a, Does (.hgCal a) (fun h => h.Reach a 0x42 0x124 ∧ h.running 0x42 = false ∨ h.Reach a 0x42 0x124 ∧ h.on (R.HG_CFG_EN.at (h.g R.OPT_HSEL_GRP)) = false ∨
      h.Reach a 0x42 0x124 ∧ (h.opt.groups.any fun x => x.cal.isSome || x.result.isSome) = true)
    (fun h => (h.reply 0).err 0x42 E.badState)) ∧
  (∀ g cols m, Does (.heaterCalComplete g) (fun h => h.running 0x42 = true ∧ h.firmware = true ∧ (h.heatGroup g).result = some cols ∧
      invertColumns cols (2 * h.dither g) = some m)
    (fun h => Hw.calOutcome (h.putGroup { h.heatGroup g with shadow := m, swap := true, done := (h.heatGroup g).done + 1 }) g 1)) ∧
  (∀ g cols, Does (.heaterCalComplete g) (fun h => h.running 0x42 = true ∧ h.firmware = true ∧ (h.heatGroup g).result = some cols ∧
      invertColumns cols (2 * h.dither g) = none)
    (fun h => h.calOutcome g 2))

/-! ### Verdicts -/

/-- O50: what the commands and instants of the verdict entries do (R441, R446–R448, R452, R457–R462). -/
def Obligations.VerdictCommandsDo : Prop :=
  Does .verdictHoldExpiry (fun h => h.running 0x44 = true)
    (fun h => h.each (h.vrd.force.filter fun f => f.cls != 0 && decide (f.reported + h.g R.VRD_TIMES_HOLD_S * 1000000000 ≤ h.ns))
      fun h f => h.clearVerdict f) ∧
  (∀ x n, Does .expelVerdictRx (fun h => h.running 0x44 = true ∧
      (h.flw.held.find? fun x => h.arrived x && x.r.typ == 0x30 && nth x.r.payload 3 == 1 && x.r.source / 2 ^ 20 != h.nodeId) = some x ∧
      (h.deliver x).2 = true ∧ x.r.known = true ∧ (h.deliver x).1.on R.VRD_ARBITER_HERE = true ∧ (h.deliver x).1.liveEntry (fld x.r.payload 4 4) 0 = none ∧
      (h.deliver x).1.freeEntry = some n)
    (fun h =>
      let p := x.r.payload
      let audit := fit 32 (slice p 64 16) ++ fit 32 (slice p 80 16) ++ fit 32 (slice p 96 16)
      (h.deliver x).1.openEntry ((h.deliver x).1.newEntry n 0 p audit [] [] 0 x.r.seq (x.r.source / 2 ^ 20) 0))) ∧
  (∀ x e, Does .expelVerdictRx (fun h => h.running 0x44 = true ∧
      (h.flw.held.find? fun x => h.arrived x && x.r.typ == 0x30 && nth x.r.payload 3 == 1 && x.r.source / 2 ^ 20 != h.nodeId) = some x ∧
      (h.deliver x).2 = true ∧ x.r.known = true ∧ (h.deliver x).1.on R.VRD_ARBITER_HERE = true ∧ (h.deliver x).1.liveEntry (fld x.r.payload 4 4) 0 = some e)
    (fun h =>
      let p := x.r.payload
      let audit := fit 32 (slice p 64 16) ++ fit 32 (slice p 80 16) ++ fit 32 (slice p 96 16)
      (h.deliver x).1.putEntry (e.renew p audit 0 x.r.seq (x.r.source / 2 ^ 20)))) ∧
  (∀ x, Does .expelVerdictRx (fun h => h.running 0x44 = true ∧
      (h.flw.held.find? fun x => h.arrived x && x.r.typ == 0x30 && nth x.r.payload 3 == 1 && x.r.source / 2 ^ 20 != h.nodeId) = some x ∧
      ((h.deliver x).2 = false ∨ x.r.known = false))
    (fun h => (h.deliver x).1)) ∧
  (∀ a n e, Does (.vrdAuthorise a n) (fun h => h.Reach a 0x44 0x90 ∧ h.vEntry n = some e ∧ e.kind ≠ 0 ∧ finalState e.state = false ∧ h.running 0x44 = true)
    (fun h => ((h.reply 0).authorise e 1 0xFFFF).accepted 0x44)) ∧
  (∀ a n e, Does (.vrdAuthorise a n) (fun h => h.Reach a 0x44 0x90 ∧ h.vEntry n = some e ∧ e.kind = 0)
    (fun h => (h.reply 0).refuse 0x44 E.accessDenied)) ∧
  (∀ a n e, Does (.vrdHold a n) (fun h => h.Reach a 0x44 0x90 ∧ h.vEntry n = some e ∧ finalState e.state = false)
    (fun h => ((h.reply 0).putEntry { e with held := true }).accepted 0x44)) ∧
  (∀ a n e, Does (.vrdUnhold a n) (fun h => h.Reach a 0x44 0x90 ∧ h.vEntry n = some e ∧ finalState e.state = false ∧ (e.state = 3 ∧ e.due = true ∧ h.running 0x44 = true))
    (fun h => ((h.reply 0).releaseEntry { e with held := false }).accepted 0x44)) ∧
  (∀ a n e, Does (.vrdUnhold a n) (fun h => h.Reach a 0x44 0x90 ∧ h.vEntry n = some e ∧ finalState e.state = false ∧
      (e.state ≠ 3 ∨ e.due = true ∧ h.running 0x44 = false ∨ e.due = false ∧ (e.kind ≠ 2 ∨ e.prior = 2)))
    (fun h => ((h.reply 0).putEntry { e with held := false }).accepted 0x44)) ∧
  (∀ a n e, Does (.vrdUnhold a n) (fun h => h.Reach a 0x44 0x90 ∧ h.vEntry n = some e ∧ e.state = 3 ∧ e.due = false ∧ e.kind = 2 ∧ e.prior ≠ 2)
    (fun h => (((h.reply 0).putEntry { e with held := false }).armSpare (e.subject % 512)).accepted 0x44)) ∧
  (∀ a n e, Does (.vrdLift a n) (fun h => h.Reach a 0x44 0x90 ∧ h.vEntry n = some e ∧ e.state = 1 ∧ e.reason = 2 ∧ 1 ≤ h.headroom ∧ h.running 0x44 = true)
    (fun h => ((h.reply 0).startBallot e 1).accepted 0x44)) ∧
  (∀ a n e, Does (.vrdLift a n) (fun h => h.Reach a 0x44 0x90 ∧ h.vEntry n = some e ∧ (e.state ≠ 1 ∨ e.reason ≠ 2 ∨ h.headroom < 1))
    (fun h => (h.reply 0).err 0x44 E.badState)) ∧
  (∀ a, Does (.vrdLogRestart a) (fun h => h.Reach a 0x44 0x90) (fun h => ((h.reply 0).s R.VRD_STAT_LOG_FAULT 0).accepted 0x44)) ∧
  (∀ n e, Does (.entryTtlExpiry n) (fun h => h.vEntry n = some e ∧ h.works 0x44 = true ∧ (e.state < 3 ∨ (e.state = 3 ∧ e.held = true)) ∧
      e.openFrc + h.g R.VRD_TTL_S * 1000000000 ≤ h.frc)
    (fun h => ((h.moveEntry { e with state := 5 }).unoffer e).raise 0x44 19)) ∧
  Does .budgetHourExpiry (fun h => ∃ t ∈ h.vrd.hour, t + 3600000000000 ≤ h.ns)
    (fun h =>
      let k := Hw.showHour { h with vrd := { h.vrd with hour := h.hourNow } }
      if k.running 0x44 then k.recheck else k) ∧
  (∀ a v, Does (.vrdSpareWrite a v) (fun h => h.Reach a 0x44 0x54)
    (fun h =>
      let k := (((h.reply 0).s R.VRD_SPARE_POOL (bits v 0 16)).s R.VRD_SPARE_FLOOR (bits v 16 16)).s R.VRD_SPARE_STAT_TAKEN 0
      (if k.running 0x44 then k.recheck else k).accepted 0x44)) ∧
  (∀ a slot, slot < 32 → Does (.vrdOrdLoad a slot) (fun h => h.Reach a 0x44 0xD0 ∧ 164 ≤ h.g R.VRD_ORD_LEN_BYTES ∧ h.g R.VRD_ORD_LEN_BYTES ≤ 964 ∧
      h.running 0x44 = true)
    (fun h => ((h.reply 0).dmaRead (h.g R.VRD_ORD_CTX_CTX) (h.g64 R.VRD_ORD_LO_ADDR R.VRD_ORD_HI_ADDR) (h.g R.VRD_ORD_LEN_BYTES)
      (.order slot (h.g R.VRD_ORD_LEN_BYTES))).accepted 0x44)) ∧
  (∀ a slot, Does (.vrdOrdLoad a slot) (fun h => h.Reach a 0x44 0xD0 ∧ (h.g R.VRD_ORD_LEN_BYTES < 164 ∨ 964 < h.g R.VRD_ORD_LEN_BYTES))
    (fun h => (h.reply 0).err 0x44 E.badValue)) ∧
  (∀ a slot, slot < 32 → Does (.vrdOrdRevoke a slot) (fun h => h.Reach a 0x44 0xD0)
    (fun h => (Hw.showOrders { h.reply 0 with vrd := { h.vrd with orders := h.vrd.orders.filter fun o => o.slot != slot,
                                                                  loads := h.vrd.loads.filter fun l => l.slot != slot } }).accepted 0x44))

/-- O51: what the ballots of the fleet do (R453–R455, R462). -/
def Obligations.BallotCommandsDo : Prop :=
  (∀ x, Does .ballotRequestRx (fun h =>
      (h.flw.held.find? fun x => h.arrived x && x.r.typ == 0x31 && nth x.r.payload 0 == 0) = some x ∧ (h.deliver x).2 = true ∧ x.r.known = true ∧
      h.isWarden = true ∧ nth x.r.payload 1 = 0)
    (fun h => (h.deliver x).1.answerExpel x.r.payload)) ∧
  (∀ x, Does .ballotRequestRx (fun h =>
      (h.flw.held.find? fun x => h.arrived x && x.r.typ == 0x31 && nth x.r.payload 0 == 0) = some x ∧ (h.deliver x).2 = true ∧ x.r.known = true ∧
      h.isWarden = true ∧ nth x.r.payload 1 ≠ 0)
    (fun h => (h.deliver x).1.askLift x.r.payload)) ∧
  (∀ x, Does .ballotRequestRx (fun h =>
      (h.flw.held.find? fun x => h.arrived x && x.r.typ == 0x31 && nth x.r.payload 0 == 0) = some x ∧
      ((h.deliver x).2 = false ∨ x.r.known = false ∨ h.isWarden = false))
    (fun h => (h.deliver x).1)) ∧
  (∀ a n l, Does (.vrdVoteYes a n) (fun h => h.Reach a 0x44 0x90 ∧ (h.vrd.lifts.find? fun l => l.entry == n) = some l ∧ h.ns < l.deadline)
    (fun h => (Hw.castVote { h.reply 0 with vrd := { h.vrd with lifts := h.vrd.lifts.filter fun x => x != l } } l.head 1 0 []).accepted 0x44)) ∧
  (∀ a n l, Does (.vrdVoteNo a n) (fun h => h.Reach a 0x44 0x90 ∧ (h.vrd.lifts.find? fun l => l.entry == n) = some l ∧ h.ns < l.deadline)
    (fun h => (Hw.castVote { h.reply 0 with vrd := { h.vrd with lifts := h.vrd.lifts.filter fun x => x != l } } l.head 0 0 []).accepted 0x44)) ∧
  (∀ a n, Does (.vrdVoteYes a n) (fun h => h.Reach a 0x44 0x90 ∧ (h.vrd.lifts.find? fun l => l.entry == n) = none)
    (fun h => (h.reply 0).err 0x44 E.badState)) ∧
  (∀ x e k, Does .ballotVoteRx (fun h =>
      (h.flw.held.find? fun x => h.arrived x && x.r.typ == 0x31 && nth x.r.payload 0 == 1) = some x ∧ (h.deliver x).2 = true ∧ x.r.known = true ∧
      (h.deliver x).1.ballotOf x.r.payload = some e ∧ (h.deliver x).1.voteOpen e x.r.payload = some k ∧ (h.deliver x).1.works 0x44 = true)
    (fun h => (h.deliver x).1.rotAsk 3 (cshake256 [] (ascii "BOLDAL-BALLOT") (x.r.payload.take 64) 48 ++ k ++ slice x.r.payload 64 96) (.voteVerify x.r))) ∧
  (∀ x e, Does .ballotVoteRx (fun h =>
      (h.flw.held.find? fun x => h.arrived x && x.r.typ == 0x31 && nth x.r.payload 0 == 1) = some x ∧ (h.deliver x).2 = true ∧ x.r.known = true ∧
      (h.deliver x).1.ballotOf x.r.payload = some e ∧ (h.deliver x).1.voteOpen e x.r.payload = none ∧ (h.deliver x).1.works 0x44 = true)
    (fun h => (h.deliver x).1.voteFailed)) ∧
  (∀ x, Does .ballotVoteRx (fun h =>
      (h.flw.held.find? fun x => h.arrived x && x.r.typ == 0x31 && nth x.r.payload 0 == 1) = some x ∧
      ((h.deliver x).2 = false ∨ x.r.known = false ∨ (h.deliver x).1.works 0x44 = false))
    (fun h => (h.deliver x).1)) ∧
  (∀ n e, Does (.ballotTimeout n) (fun h => h.vEntry n = some e ∧ h.works 0x44 = true ∧ e.state = 2 ∧ e.ballotFrc + h.g R.VRD_CFG_BALLOT_MS * 1000000 ≤ h.frc)
    (fun h =>
      let k := h.refuseEntry e
      k.each (k.vrd.lifts.filter fun l => l.entry == n && decide (l.deadline ≤ k.ns)) fun h l => h.answerLift l 2)) ∧
  (∀ n, Does (.ballotTimeout n) (fun h => h.vEntry n = none)
    (fun h => h.each (h.vrd.lifts.filter fun l => l.entry == n && decide (l.deadline ≤ h.ns)) fun h l => h.answerLift l 2))

/-! ### Compression, the recorder and the mailboxes -/

/-- O52: what the descriptors of the compressor and the packer, and the privileged channels, do (R471–R478, R481, R482). -/
def Obligations.CompressionCommandsDo : Prop :=
  (∀ q d, Does (.cmpOpen q) (fun h => h.Starts q 4 0x50 [(0, 16, 13)] d ∧ 1 ≤ dw d 0 20 9 ∧ dw d 0 20 9 ≤ 256 ∧ h.slot (dw d 0 16 4) = none)
    (fun h => (h.putSlot ⟨dw d 0 16 4, h.qCtx q, 0, dw d 0 20 9, [], 0, 0⟩).descDone q)) ∧
  (∀ q d, Does (.cmpOpen q) (fun h => h.Starts q 4 0x50 [(0, 16, 13)] d ∧ 1 ≤ dw d 0 20 9 ∧ dw d 0 20 9 ≤ 256 ∧ (h.slot (dw d 0 16 4)).isSome = true)
    (fun h => h.descFail q E.stateFull)) ∧
  (∀ q d, Does (.cmpOpen q) (fun h => h.Starts q 4 0x50 [(0, 16, 13)] d ∧ (dw d 0 20 9 = 0 ∨ 256 < dw d 0 20 9)) (fun h => h.descFail q E.badDescriptor)) ∧
  (∀ q d r s, nth d 4 % 16 = 0 → Does (.cmpDeflate q) (fun h => h.Starts q 4 0x51 [(0, 16, 5), (1, 0, 64), (2, 0, 17), (3, 0, 64), (4, 0, 64)] d ∧
      dw d 2 0 17 ≠ 0 ∧ dw d 2 0 17 ≤ 65536 ∧ h.slot (dw d 0 16 4) = some s ∧ s.chan = 0 ∧ s.ctx = h.qCtx q ∧ h.started q = some r ∧ h.slotBusy q (dw d 0 16 4) = false)
    (fun h => h.dmaRead (h.qCtx q) (nth d 1) (dw d 2 0 17) (.payload q r.index))) ∧
  (∀ q d s, Does (.cmpClose q) (fun h => h.Starts q 4 0x52 [(0, 16, 4)] d ∧ h.slot (dw d 0 16 4) = some s ∧ s.chan = 0 ∧ s.ctx = h.qCtx q ∧ h.slotBusy q s.num = false)
    (fun h => (h.freeSlot s.num).descDone q)) ∧
  (∀ q d s, Does (.cmpClose q) (fun h => h.Starts q 4 0x52 [(0, 16, 4)] d ∧ h.slot (dw d 0 16 4) = some s ∧ s.ctx ≠ h.qCtx q)
    (fun h => h.descFail q E.accessDenied)) ∧
  (∀ q d s r img, nth d 1 % 64 = 0 → Does (.cmpSave q) (fun h => h.Starts q 4 0x53 [(0, 16, 4), (1, 0, 64)] d ∧ h.slot (dw d 0 16 4) = some s ∧
      s.chan = 0 ∧ s.ctx = h.qCtx q ∧ h.started q = some r ∧ h.slotBusy q s.num = false ∧ (h.slotImage s).map (fun x => x.1) = some img)
    (fun h => match h.slotImage s with
      | some x => (x.2.freeSlot s.num).dmaWrite (x.2.qCtx q) (nth d 1) img (.payload q r.index)
      | none => h)) ∧
  (∀ q d r, nth d 1 % 64 = 0 → Does (.cmpRestore q) (fun h => h.Starts q 4 0x54 [(0, 16, 4), (1, 0, 64)] d ∧ h.slot (dw d 0 16 4) = none ∧ h.started q = some r)
    (fun h => h.dmaRead (h.qCtx q) (nth d 1) 49152 (.payload q r.index))) ∧
  (∀ q d r, nth d 5 % 16 = 0 → dw d 2 0 32 ≠ 0 → Does (.cmpInflate q) (fun h =>
      h.Starts q 4 0x55 [(1, 0, 64), (2, 0, 32), (3, 0, 64), (4, 0, 64), (5, 0, 64)] d ∧ h.started q = some r)
    (fun h => h.dmaRead (h.qCtx q) (nth d 1) (dw d 2 0 32) (.payload q r.index))) ∧
  (∀ q d r, dw d 0 16 2 ≠ 3 → dw d 2 0 40 ≠ 0 → dw d 2 0 40 % packW (dw d 0 16 2) = 0 → nth d 3 % 64 = 0 → nth d 4 % 16 = 0 →
    Does (.pckPack q) (fun h => h.Starts q 5 0x60 [(0, 16, 2), (1, 0, 64), (2, 0, 40), (3, 0, 64), (4, 0, 64)] d ∧ h.started q = some r)
    (fun h => h.dmaRead (h.qCtx q) (nth d 1) (dw d 2 0 40) (.payload q r.index))) ∧
  (∀ a, Does (.cmpArchive a) (fun h => h.Reach a 0x48 0x64 ∧ h.chanOn 1 = true ∧ h.cmp.archive = none ∧ h.archiveInput ≠ [])
    (fun h =>
      let k := (h.reply 0).putChan { h.chan 1 with n := 0 }
      Hw.accepted { k with cmp := { k.cmp with archive := some h.archiveInput } } 0x48)) ∧
  (∀ a, Does (.cmpArchive a) (fun h => h.Reach a 0x48 0x64 ∧ h.cmp.archive.isSome = true) (fun h => (h.reply 0).err 0x48 E.badState)) ∧
  Does .verdictArchiveCutTimer (fun h => ∃ e t, (h.chan 3).buf = e :: t ∧ h.chanOn 3 = true ∧ (h.chan 3).closed = 0 ∧ e.1 + 1000000000 ≤ h.frc)
    (fun h => h.putChan { h.chan 3 with closed := (h.chan 3).buf.length, closedNs := h.ns }) ∧
  Does (.chunkRingWrite 1) (fun h => h.works 0x48 = true ∧ h.on (R.CH_CFG_EN.at 1) = true ∧ h.chunkOut 1 = false) (fun h => h.archiveChunk) ∧
  Does (.chunkRingWrite 3) (fun h => h.works 0x48 = true ∧ h.on (R.CH_CFG_EN.at 3) = true ∧ h.chunkOut 3 = false) (fun h => h.verdictChunk)

/-- O53: what the event recorder, its mirror and its NV store port do (R71, R489–R498, R506). -/
def Obligations.RecorderCommandsDo : Prop :=
  (∀ e, Does .repeatWindowExpiry (fun h => h.evr.ring.getLast? = some e ∧ h.pwr.aon = true ∧ e.closed = false ∧
      e.latest + h.g R.EVR_CFG_REPEAT_MS * 1000000 ≤ h.frc)
    (fun h => Hw.showRing { h with evr := { h.evr with ring := closeLast h.frc h.evr.ring } })) ∧
  Does .optimeSecond (fun h => h.pwr.aon = true) (fun h => h.inc R.EVR_OPTIME_S) ∧
  (∀ a, Does (.evrRdDataRead a) (fun h => h.Reach a 0x4C 0x7C ∧ (h.ringCover (h.g R.EVR_RD_OFF_OFF)).isSome = true)
    (fun h => ((h.reply 0).s R.EVR_RD_OFF_OFF ((h.g R.EVR_RD_OFF_OFF + 4) % h.evrSize)).reply ((h.reply 0).ringWord (h.g R.EVR_RD_OFF_OFF)))) ∧
  (∀ a, Does (.evrWrite a) (fun h => h.Reach a 0x4C 0x8C ∧ h.evr.hostWait = false ∧ 0x8000 ≤ h.g R.EVR_HOST_LEN_CODE ∧ h.g R.EVR_HOST_LEN_BYTES ≤ 992 ∧
      h.g R.EVR_HOST_LEN_BYTES % 8 = 0 ∧ h.g R.EVR_HOST_LEN_BYTES ≠ 0)
    (fun h =>
      let k := { h.reply 0 with evr := { h.evr with hostWait := true, hostCode := h.g R.EVR_HOST_LEN_CODE } }
      (k.dmaRead k.operCtx (h.g64 R.EVR_HOST_ADDR_LO_ADDR R.EVR_HOST_ADDR_HI_ADDR) (h.g R.EVR_HOST_LEN_BYTES) .evrHost).accepted 0x4C)) ∧
  (∀ a, Does (.evrWrite a) (fun h => h.Reach a 0x4C 0x8C ∧ h.evr.hostWait = false ∧ (h.g R.EVR_HOST_LEN_CODE < 0x8000 ∨ 992 < h.g R.EVR_HOST_LEN_BYTES ∨
      h.g R.EVR_HOST_LEN_BYTES % 8 ≠ 0))
    (fun h => (h.reply 0).err 0x4C E.badValue)) ∧
  (∀ a, Does (.evrMirrorRestart a) (fun h => h.Reach a 0x4C 0x8C ∧ h.on R.EVR_STAT_NV_STOPPED = true ∧ h.running 0x4C = true)
    (fun h => (((h.reply 0).s R.EVR_STAT_NV_STOPPED 0).s R.EVR_STAT_MIRROR_RUN 1).accepted 0x4C)) ∧
  (∀ a, Does (.evrFormat a) (fun h => h.Reach a 0x4C 0x8C ∧ h.running 0x4C = false)
    (fun h =>
      let k := { h.reply 0 with evr := { h.evr with head := 2, tail := 2, items := [], gen := 0, cut := [],
                                                          gapBefore := h.evr.gapBefore || h.evr.gapOut, gapOut := false,
                                                          nv := h.evr.nv.take 1 } }
      (k.nvPut [⟨k.nvBase, k.superblock, 1, false⟩]).accepted 0x4C)) ∧
  (∀ a, Does (.evrFormat a) (fun h => h.Reach a 0x4C 0x8C ∧ h.running 0x4C = true) (fun h => (h.reply 0).err 0x4C E.badState)) ∧
  (∀ r, Does .mirrorItemWrite (fun h => h.mirroring = true ∧ h.evr.nv = [] ∧ h.evr.reads = [] ∧ h.nextItem ≠ [] ∧ h.on R.EVR_CFG_PACK = false ∧
      Hw.makeRoom ((padMul 64 (itemBytes h.evr.gapBefore h.nextItem)).length / 64) (h.evr.items.length + 1) h = some r)
    (fun h => Hw.putItem { h with evr := { r.evr with cut := h.nextItem.map EvrEntry.seq, gapOut := h.evr.gapBefore, gapBefore := false, flush := none } }
      (padMul 64 (itemBytes h.evr.gapBefore h.nextItem)))) ∧
  (∀ e t, Does .evrFlushTimer (fun h => h.unmirrored = e :: t ∧ h.mirroring = true ∧ h.on R.EVR_CFG_PACK = true ∧ h.evr.cut = [] ∧ h.evr.flush = none ∧
      e.closedFrc + h.g R.EVR_FLUSH_MS_MS * 1000000 ≤ h.frc)
    (fun h => { h with evr := { h.evr with flush := ((e :: t).getLast?.map fun x => x.seq), flushNs := h.ns } })) ∧
  Does .superblockTimer (fun h => h.running 0x4C = true ∧ h.mirroring = true ∧ h.evr.nv = [] ∧ h.evr.reads = [] ∧ h.evr.sbFrc + 60000000000 ≤ h.frc)
    (fun h =>
      let k := { h with evr := { h.evr with gen := succ32 h.evr.gen } }
      k.nvPut [⟨k.nvBase + (1 - k.g R.EVR_STAT_SB), k.superblock, 1, false⟩]) ∧
  (∀ w t, w.kind = 1 → Does (.nvWriteResponse true) (fun h => h.evr.nv = w :: t)
    (fun h => Hw.nvIssue (Hw.s { h with evr := { h.evr with nv := t, sbFrc := h.frc } } R.EVR_STAT_SB (w.unit - h.nvBase)))) ∧
  (∀ w t, w.retried = false → Does (.nvWriteResponse false) (fun h => h.evr.nv = w :: t)
    (fun h => Hw.nvIssue { h with evr := { h.evr with nv := { w with retried := true } :: t } })) ∧
  (∀ w t, w.retried = true → Does (.nvWriteResponse false) (fun h => h.evr.nv = w :: t)
    (fun h =>
      let k := { h with evr := { h.evr with nv := [], cut := [], gapBefore := h.evr.gapBefore || h.evr.gapOut, gapOut := false } }
      ((((k.s R.EVR_STAT_NV_STOPPED 1).s R.EVR_STAT_MIRROR_RUN 0).err 0x4C E.nvFault).event 0x0080 2 (le 4 w.unit)).raise 0x4C 17)) ∧
  (∀ w t, w.retried = false → Does .nvWriteTimeout (fun h => h.evr.nv = w :: t ∧ h.evr.nvFrc + 100000000 ≤ h.frc)
    (fun h => Hw.nvIssue { h with evr := { h.evr with nv := { w with retried := true } :: t } })) ∧
  (∀ bytes u t b, Does (.nvReadResponse true bytes) (fun h => h.evr.reads = (u, 0) :: t ∧ h.evr.sbRead = [b])
    (fun h => Hw.restoreLog { h with evr := { h.evr with reads := t } } b (fit 64 bytes))) ∧
  (∀ bytes u t, Does (.nvReadResponse true bytes) (fun h => h.evr.reads = (u, 0) :: t ∧ h.evr.sbRead = [])
    (fun h => { h with evr := { h.evr with reads := t, sbRead := [fit 64 bytes] } })) ∧
  (∀ ok bytes u t, Does (.nvReadResponse ok bytes) (fun h => h.evr.reads = (u, 1) :: t)
    (fun h => Hw.headRead { h with evr := { h.evr with reads := t } } ok (fit 64 bytes)))

/-- O54: what the accesses of mailboxes and doorbells do, and what firmware does with them (R499–R504). -/
def Obligations.MailboxCommandsDo : Prop :=
  (∀ a m i data, m < 8 → i < 8 → Does (.mbxDataWrite a m i 0xFF data) (fun h => h.Reach a 0x4D (0x100 + 0x80 * m + 8 * i) ∧ h.on (R.MBX_STAT_FULL.at m) = false)
    (fun h => ((h.reply 0).s (R.MBX_DATA_DATA.at (8 * m + i)) data).accepted 0x4D)) ∧
  (∀ a m i strb data, m < 8 → i < 8 → [0x0F, 0xF0, 0xFF].contains strb = true →
    Does (.mbxDataWrite a m i strb data) (fun h => h.Reach a 0x4D (0x100 + 0x80 * m + 8 * i) ∧ h.on (R.MBX_STAT_FULL.at m) = true)
    (fun h => ((h.reply 0).err 0x4D E.mbxFull).busError)) ∧
  (∀ a m len, m < 8 → 1 ≤ len → len ≤ 64 → Does (.mbxPush a m len) (fun h => h.Reach a 0x4D (0x100 + 0x80 * m + 0x40) ∧ h.mbxFull m = false ∧ h.mbxTakes = true)
    (fun h => ((((h.reply 0).s (R.MBX_STAT_FULL.at m) 1).s (R.MBX_STAT_TAKEN.at m) 0).s (R.MBX_STAT_LEN.at m) len).accepted 0x4D)) ∧
  (∀ a m len, m < 8 → len = 0 ∨ (64 < len ∧ len < 128) → Does (.mbxPush a m len) (fun h => h.Reach a 0x4D (0x100 + 0x80 * m + 0x40) ∧ h.mbxFull m = false)
    (fun h => (h.reply 0).err 0x4D E.badValue)) ∧
  (∀ a m, m < 8 → Does (.mbxAbort a m) (fun h => h.Reach a 0x4D (0x100 + 0x80 * m + 0x40) ∧ h.mbxFull m = true)
    (fun h => (((h.reply 0).s (R.MBX_STAT_FULL.at m) 0).s (R.MBX_STAT_LEN.at m) 0).accepted 0x4D)) ∧
  (∀ a m, 8 ≤ m → m < 16 → Does (.mbxPopRead a m) (fun h => h.Reach a 0x4D (0x100 + 0x80 * m + 0x48) ∧ h.mbxFull m = true)
    (fun h => ((((h.reply 0).s (R.MBX_STAT_FULL.at m) 0).s (R.MBX_STAT_LEN.at m) 0).s (R.MBX_STAT_TAKEN.at m) 1).reply (h.g (R.MBX_STAT_LEN.at m)))) ∧
  (∀ m, m < 8 → Does (.firmwareMbxPop m) (fun h => h.firmware = true ∧ h.mbxFull m = true)
    (fun h => (((h.s (R.MBX_STAT_FULL.at m) 0).s (R.MBX_STAT_LEN.at m) 0).s (R.MBX_STAT_TAKEN.at m) 1).raise 0x4D 17)) ∧
  (∀ m bytes, 8 ≤ m → m < 16 → 0 < bytes.length → bytes.length ≤ 64 → Does (.firmwareMbxSend m bytes) (fun h => h.firmware = true ∧ h.mbxFull m = false ∧
      h.mbxTakes = true)
    (fun h =>
      let k := h.each (List.range 8) fun h i => h.s (R.MBX_DATA_DATA.at (8 * m + i)) (fld (fit 64 bytes) (8 * i) 8)
      (((k.s (R.MBX_STAT_FULL.at m) 1).s (R.MBX_STAT_TAKEN.at m) 0).s (R.MBX_STAT_LEN.at m) bytes.length).raise 0x4D 16)) ∧
  (∀ a v, v < 2 ^ 32 → Does (.dbInSet a 0 v) (fun h => h.Reach a 0x4D 0x80) (fun h => ((h.reply 0).setBits R.DB_IN_LO_BITS v).accepted 0x4D)) ∧
  (∀ a v, v < 2 ^ 32 → Does (.dbInSet a 1 v) (fun h => h.Reach a 0x4D 0x84) (fun h => ((h.reply 0).setBits R.DB_IN_HI_BITS v).accepted 0x4D)) ∧
  (∀ a v, v < 2 ^ 32 → Does (.dbOutClear a 0 v) (fun h => h.Reach a 0x4D 0x88) (fun h => ((h.reply 0).clrBits R.DB_OUT_LO_BITS v).accepted 0x4D)) ∧
  (∀ a v, v < 2 ^ 32 → Does (.dbOutClear a 1 v) (fun h => h.Reach a 0x4D 0x8C) (fun h => ((h.reply 0).clrBits R.DB_OUT_HI_BITS v).accepted 0x4D)) ∧
  (∀ n, n < 64 → Does (.firmwareDoorbell true n) (fun h => h.firmware = true)
    (fun h => (h.setBits (if n < 32 then R.DB_OUT_LO_BITS else R.DB_OUT_HI_BITS) (2 ^ (n % 32))).raise 0x4D 18)) ∧
  (∀ n, n < 64 → Does (.firmwareDoorbell false n) (fun h => h.firmware = true)
    (fun h => h.clrBits (if n < 32 then R.DB_IN_LO_BITS else R.DB_IN_HI_BITS) (2 ^ (n % 32))))

/-! ### Contexts, functional safety and updates -/

/-- O55: what the commands of contexts and of the root of trust do (R72, R514, R515, R531, R574). -/
def Obligations.ContextCommandsDo : Prop :=
  (∀ a c, Does (.contextEnable a c) (fun h => h.Reach a 0x01 (0x100 + 0x20 * c) ∧ c < h.contexts ∧ c ≠ h.operCtx ∧ 1 ≤ h.g (R.CTX_CFG_WEIGHT.at c) ∧
      h.g (R.CTX_CFG_WEIGHT.at c) ≤ 255 ∧ h.on (R.CTX_CFG_EN.at c) = false ∧
      ((h.reply 0).s (R.CTX_CFG_WEIGHT.at c) (h.g (R.CTX_CFG_WEIGHT.at c))).on (R.CTX_STAT_CLEARING.at c) = false)
    (fun h => ((((h.reply 0).s (R.CTX_CFG_WEIGHT.at c) (h.g (R.CTX_CFG_WEIGHT.at c))).s (R.CTX_CFG_EN.at c) 1).drawKey c).accepted 0x01)) ∧
  (∀ a c, Does (.contextDisable a c) (fun h => h.Reach a 0x01 (0x100 + 0x20 * c) ∧ c < h.contexts ∧ c ≠ h.operCtx ∧ 1 ≤ h.g (R.CTX_CFG_WEIGHT.at c) ∧
      h.g (R.CTX_CFG_WEIGHT.at c) ≤ 255 ∧ h.on (R.CTX_CFG_EN.at c) = true ∧
      ((h.reply 0).s (R.CTX_CFG_WEIGHT.at c) (h.g (R.CTX_CFG_WEIGHT.at c))).ctxIdle c = true)
    (fun h =>
      let k := ((((h.reply 0).s (R.CTX_CFG_WEIGHT.at c) (h.g (R.CTX_CFG_WEIGHT.at c))).s (R.CTX_CFG_EN.at c) 0).s (R.CTX_STAT_CLEARING.at c) 1).clearContext c
      Hw.accepted { k with sec := { k.sec with clearing := (c, k.frc) :: k.sec.clearing.filter fun x => x.1 != c } } 0x01)) ∧
  (∀ a c, Does (.contextDisable a c) (fun h => h.Reach a 0x01 (0x100 + 0x20 * c) ∧ c < h.contexts ∧ c = h.operCtx ∧ h.g R.SEC_STAT_BLOB = 1 ∧
      1 ≤ h.g (R.CTX_CFG_WEIGHT.at c) ∧ h.g (R.CTX_CFG_WEIGHT.at c) ≤ 255)
    (fun h => (h.reply 0).err 0x01 E.badValue)) ∧
  (∀ c, Does (.contextClearDone c) (fun h => h.on (R.CTX_STAT_CLEARING.at c) = true)
    (fun h => Hw.raise (Hw.s { h with sec := { h.sec with clearing := h.sec.clearing.filter fun x => x.1 != c } } (R.CTX_STAT_CLEARING.at c) 0) 0x01 17)) ∧
  (∀ a c, c < 64 → Does (.ctxKill a c) (fun h => h.Reach a 0x01 0x44 ∧ c < h.contexts)
    (fun h => (((h.reply 0).killContext c).raise 0x01 16).accepted 0x01)) ∧
  Does .blobRequestRetry (fun h => h.running 0x50 = true ∧ h.g R.SEC_STAT_BLOB ≠ 1 ∧ h.sec.blobFrc + 1000000000 ≤ h.frc)
    (fun h => Hw.rotAsk { h with sec := { h.sec with blobFrc := h.frc, rot := h.sec.rot.filter fun r => r.what != RotFor.blob } } 0 [] .blob) ∧
  (∀ a, Does (.secReload a) (fun h => h.Reach a 0x50 0x4C)
    (fun h => (Hw.rotAsk { h.reply 0 with sec := { h.sec with blobFrc := h.frc, rot := h.sec.rot.filter fun r => r.what != RotFor.blob } } 0 [] .blob).accepted 0x50)) ∧
  (∀ id ok bytes r, Does (.rotResponse id ok bytes) (fun h => (h.sec.rot.find? fun r => r.id == id) = some r)
    (fun h => Hw.rotAnswer { h with sec := { h.sec with rot := h.sec.rot.filter fun r => r.id != id } } r.what ok bytes)) ∧
  (∀ id r, Does (.rotTimeoutExpiry id) (fun h => (h.sec.rot.find? fun r => r.id == id) = some r ∧ r.since + 50000000 ≤ h.frc)
    (fun h => Hw.rotLost { h with sec := { h.sec with rot := h.sec.rot.filter fun r => r.id != id } } r.what))

/-- O56: what the diagnostics of the safety monitor do, and its commands (R536–R543, R550, R552, R554). -/
def Obligations.DiagnosticCommandsDo : Prop :=
  (∀ imageOk, Does (.lockstepMismatch imageOk) (fun h => h.pwr.core = true ∧ h.on R.SAF_STAT_CTRL_HELD = false)
    (fun h => h.fresh.2.lockstep false imageOk (h.fresh.1 % 2 ^ 32))) ∧
  Does .controllerRestartComplete (fun h => h.saf.ctrlPaused = true ∧ h.on R.SAF_STAT_CTRL_HELD = false)
    (fun h => (Hw.injDone { h with saf := { h.saf with ctrlPaused := false } } 1).pauseEnds) ∧
  (∀ l mismatches, mismatches ≠ 0 → Does (.agateKatRun l mismatches) (fun h => h.running 0x20 = true ∧ h.on R.SAF_CFG_AGT_KAT_DIS = false ∧ l < h.laneCount ∧
      h.agt.retired.contains l = false)
    (fun h => (h.diagRun 5).laneFails false l mismatches)) ∧
  (∀ l, Does (.agateKatRun l 0) (fun h => h.running 0x20 = true ∧ h.on R.SAF_CFG_AGT_KAT_DIS = false ∧ l < h.laneCount ∧ h.agt.retired.contains l = false)
    (fun h =>
      let k := h.diagRun 5
      Hw.notePass { k with agt := { k.agt with byLane := k.agt.byLane.filter fun b => b.1 != l } } 5 l)) ∧
  Does .clockXchkWindow (fun h => h.pwr.aon = true) (fun h => h.xWindow (h.frc - h.saf.xWinFrc)) ∧
  Does .clockXchkWatchdog (fun h => h.pwr.aon = true ∧ h.saf.xWinFrc + 150000 ≤ h.frc)
    (fun h => Hw.clockFails { h with saf := { h.saf with xWinFrc := h.frc, xFails := 0 } } false 6 ((h.frc - h.saf.xWinFrc) % 2 ^ 32)) ∧
  (∀ diff, Does (.ntDupMismatch diff) (fun h => h.pwr.aon = true) (fun h => h.clockFails false 7 (diff % 2 ^ 32))) ∧
  (∀ credit, Does (.ledgerCheckTimer credit) (fun h => h.pwr.core = true)
    (fun h =>
      let k := (if h.running 0x30 then h.checkLedger else h).diagRun 9
      k.each (credit.filter fun c => (k.link c.1).up) fun h c => h.creditFails false c.1 c.2)) ∧
  (∀ m fixed, Does (.scrubPass m fixed none) (fun h => h.pwr.core = true ∧ h.on R.SAF_CFG_SCRUB_DIS = false)
    (fun h => ((h.diagRun 3).add (R.SAF_DCORR_COUNT.at 3) fixed).notePass 3 m)) ∧
  (∀ a, Does (.safClear a) (fun h => h.Reach a 0x54 0x48) (fun h => ((h.reply 0).s R.SAF_STAT_DF_LATCHED 0).safState.accepted 0x54)) ∧
  (∀ a d i, 1 ≤ d → d ≤ 17 → i < 65536 → Does (.safInject a d i) (fun h => h.Reach a 0x54 0x48 ∧ h.injItem d i = true ∧ h.saf.inj = none)
    (fun h => (Hw.injectFailure (Hw.s { h.reply 0 with saf := { h.saf with inj := some (d, i) } } R.SAF_STAT_INJ_BUSY 1) d i).accepted 0x54)) ∧
  (∀ a d i, d < 32 → i < 65536 → Does (.safInject a d i) (fun h => h.Reach a 0x54 0x48 ∧ (d = 0 ∨ 17 < d)) (fun h => (h.reply 0).err 0x54 E.badValue)) ∧
  (∀ a d i, 1 ≤ d → d ≤ 17 → i < 65536 → Does (.safInject a d i) (fun h => h.Reach a 0x54 0x48 ∧ h.injItem d i = true ∧ h.saf.inj.isSome = true)
    (fun h => (h.reply 0).err 0x54 E.badState))

/-- O57: what the hazard comparators, their diagnostics and the two outputs do (R67, R548–R552). -/
def Obligations.HazardCommandsDo : Prop :=
  (∀ c, Does (.hzInjectTest c true) (fun h => h.pwr.aon = true) (fun h => h.hazardDiagPass 12 c)) ∧
  (∀ c, Does (.hzInjectTest c false) (fun h => h.pwr.aon = true) (fun h => (h.diagRun 12).hazardDiag false 12 c 1)) ∧
  (∀ crc, Does (.cfgCrcCheck crc) (fun h => h.pwr.aon = true ∧ crc % 2 ^ 32 = h.g R.SAF_CFG_CRC_CRC) (fun h => h.hazardDiagPass 14 0)) ∧
  (∀ crc, Does (.cfgCrcCheck crc) (fun h => h.pwr.aon = true ∧ crc % 2 ^ 32 ≠ h.g R.SAF_CFG_CRC_CRC)
    (fun h => (h.diagRun 14).hazardDiag false 14 0 (crc % 2 ^ 32))) ∧
  (∀ detail, Does (.hzDualMismatch detail) (fun h => h.pwr.aon = true) (fun h => h.hazardDiag false 11 0 (detail % 2 ^ 32))) ∧
  Does .hzReadbackMismatch (fun h => h.pwr.aon = true)
    (fun h => Hw.dangerous { h with saf := { h.saf with hbStopped := true, hbResume := 0 } } false 13 1 0 (1 - h.g R.SAF_STAT_HAZARD)) ∧
  (∀ n, n < 8 → Does (.hzInChange n true) (fun h => h.pwr.aon = true ∧ bit h.saf.hzEn n = true ∧ bit h.saf.hzIn n = false)
    (fun h => Hw.hazardOnset { h with saf := { h.saf with hzIn := h.saf.hzIn ||| 2 ^ n } } 1 n 0 2)) ∧
  (∀ n, n < 8 → Does (.hzInChange n false) (fun h => h.pwr.aon = true ∧ bit h.saf.hzIn n = true)
    (fun h => Hw.hazardEnd { h with saf := { h.saf with hzIn := withBits h.saf.hzIn n 1 0 } } 1 n 0 2)) ∧
  (∀ ch, Does (.hazardChannelSilent ch) (fun h => h.pwr.aon = true)
    (fun h => h.each (h.saf.hz.filter fun c => c.ch == ch && !c.silent && decide (c.lastFrc + c.maxGap * 1000 ≤ h.frc)) fun h c =>
      Hw.hazardOnset { h with saf := { h.saf with hz := h.saf.hz.map fun x => if x.ch = ch then { x with silent := true } else x } } 3 ch c.last 2)) ∧
  Does .hazardHoldExpiry (fun h => h.pwr.aon = true ∧ h.hazardHolds = false ∧ h.saf.testMode = false ∧ h.saf.hzLastClear + 10000000 ≤ h.frc ∧
      h.saf.dfUntil ≤ h.frc)
    (fun h => h.s R.SAF_STAT_HAZARD 0) ∧
  Does .hazardHoldExpiry (fun h => h.hazardHolds = true ∨ h.saf.testMode = true ∨ h.frc < h.saf.hzLastClear + 10000000) (fun h => h) ∧
  Does .hbOutToggle (fun h => h.pwr.aon = true ∧ h.saf.hbStopped = false ∧ h.saf.hbFrc + 500000 ≤ h.frc)
    (fun h => { h with saf := { h.saf with hbLevel := !h.saf.hbLevel, hbFrc := h.frc } }) ∧
  (∀ i, Does .hbOutInjectionResume (fun h => h.saf.inj = some (13, i) ∧ h.saf.hbResume ≤ h.frc)
    (fun h => Hw.s { h with saf := { h.saf with hbStopped := h.saf.hbResume == 0, inj := none } } R.SAF_STAT_INJ_BUSY 0))

/-- O58: what the steps of start-up and of a live firmware update do (R561, R562, R564, R572, R573, R577). -/
def Obligations.StartAndUpdateCommandsDo : Prop :=
  Does (.bootComplete true) (fun h => h.bootDue = true) (fun h => h.boot) ∧
  Does (.bootComplete false) (fun h => h.bootDue = true) (fun h => h.s R.SAF_STAT_CTRL_HELD 1) ∧
  (∀ t, Does (.selftestComplete t) (fun h => h.selfTestDue = true ∧ t.lockstepOk = true)
    (fun h =>
      let k := h.selfTestFails t
      Hw.safState (Hw.s { k with saf := { k.saf with selftest := true } } R.PWR_START_SELFTEST 1))) ∧
  (∀ t, Does (.selftestComplete t) (fun h => h.selfTestDue = true ∧ t.lockstepOk = false) (fun h => (h.selfTestFails t).selfTestHalts)) ∧
  Does .startUpDone (fun h => h.startCheck.on R.PWR_START_DONE = true ∧ h.startCheck.g R.FLW_RESV_NEED ≤ h.startCheck.g R.FLW_RESV_AVAIL)
    (fun h => h.startCheck.restore 2 0x03) ∧
  (∀ a, Does (.updLoad a) (fun h => h.Reach a 0x5C 0x54 ∧ h.running 0x5C = true ∧ h.updState ≠ 3 ∧ h.updState ≠ 4 ∧ 64 ≤ h.g R.UPD_SEG_LEN_BYTES ∧
      h.g R.UPD_SEG_LEN_BYTES ≤ 65536 ∧ h.g R.UPD_SEG_OFF_OFF + h.g R.UPD_SEG_LEN_BYTES ≤ h.stageSize)
    (fun h => (h.reply 0).loadSegment.accepted 0x5C)) ∧
  (∀ a, Does (.updVerify a) (fun h => h.Reach a 0x5C 0x54 ∧ h.running 0x5C = true ∧ h.updState ≠ 3 ∧ h.updState ≠ 4)
    (fun h => (h.reply 0).verifyStage.accepted 0x5C)) ∧
  (∀ a, Does (.updHandover a) (fun h => h.Reach a 0x5C 0x54 ∧ h.running 0x5C = true ∧ h.updState = 2) (fun h => (h.reply 0).handoverCmd.accepted 0x5C)) ∧
  (∀ a, Does (.updHandover a) (fun h => h.Reach a 0x5C 0x54 ∧ h.updState ≠ 2) (fun h => (h.reply 0).err 0x5C E.badState)) ∧
  (∀ a, Does (.updCommit a) (fun h => h.Reach a 0x5C 0x54 ∧ h.updState = 4) (fun h => (h.reply 0).commitCmd.accepted 0x5C)) ∧
  (∀ a, Does (.updCommit a) (fun h => h.Reach a 0x5C 0x54 ∧ h.updState ≠ 4) (fun h => (h.reply 0).err 0x5C E.badState)) ∧
  (∀ a, Does (.updDiscard a) (fun h => h.Reach a 0x5C 0x54 ∧ h.updState ≠ 3 ∧ h.updState ≠ 4) (fun h => (h.reply 0).emptyStage.accepted 0x5C)) ∧
  Does .firmwareHandover (fun h => h.pwr.core = true ∧ h.handoverDue = true)
    (fun h =>
      let k := { h with upd := { h.upd with prevVer := h.g R.UPD_RUN_VER_VERSION, prevRom := h.g R.UPD_STAT_FROM_ROM, awaiting := true,
                                            handFrc := h.frc, pausing := true },
                        saf := { h.saf with ctrlPaused := true } }
      (k.s R.UPD_RUN_VER_VERSION (h.g R.UPD_STAGE_VER_VERSION)).s R.UPD_STAT_FROM_ROM 0) ∧
  Does .firmwareAliveReport (fun h => h.pwr.core = true ∧ h.upd.awaiting = true ∧ h.saf.ctrlPaused = false)
    (fun h =>
      let k := Hw.raise (Hw.s { h with upd := { h.upd with awaiting := false } } R.UPD_STAT_STATE 4) 0x5C 17
      k.liveUpdate 1 0 ((Hw.s { h with upd := { h.upd with awaiting := false } } R.UPD_STAT_STATE 4).g R.UPD_RUN_VER_VERSION) h.upd.prevVer) ∧
  Does .firmwareAliveTimeout (fun h => h.pwr.core = true ∧ h.upd.awaiting = true ∧ h.upd.handFrc + 100000000 ≤ h.frc)
    (fun h =>
      let k := { h with upd := { h.upd with awaiting := false, pausing := false }, saf := { h.saf with ctrlPaused := true } }
      let k := (((k.s R.UPD_RUN_VER_VERSION h.upd.prevVer).s R.UPD_STAT_FROM_ROM h.upd.prevRom).inc R.UPD_ROLLBACKS_COUNT).raise 0x5C 18
      let k := k.liveUpdate 2 0 (h.g R.UPD_RUN_VER_VERSION) h.upd.prevVer
      if k.fresh.1 % 2 = 0 then k.fresh.2.emptyStage else k.fresh.2.setUpd 2)
end

