-- ==== Sys2Proof/Laws/Regs.lean ====
section
/-!
SUPPORT. Laws/Regs.lean: reading the register file after a write, an addition or a reset of part of it.
-/
namespace Sys2Proof.Machine

theorem RegFile.find_put_self (r : RegFile) (x v : Nat) : (r.put x v).find x = some v := by
  induction r with
  | nil => simp [RegFile.put, RegFile.find]
  | cons e t ih =>
    obtain ⟨k, w⟩ := e
    unfold RegFile.put
    split
    · simp [RegFile.find]
    · split
      · simp [RegFile.find]
      · unfold RegFile.find
        simp_all

theorem RegFile.find_put_ne (r : RegFile) {x y : Nat} (v : Nat) (h : x ≠ y) : (r.put x v).find y = r.find y := by
  induction r with
  | nil => simp [RegFile.put, RegFile.find, h]
  | cons e t ih =>
    obtain ⟨k, w⟩ := e
    unfold RegFile.put
    split
    · rename_i hk
      subst hk
      simp [RegFile.find, h]
    · split
      · rename_i hk hlt
        simp only [RegFile.find, h, if_false]
      · simp only [RegFile.find, ih]

theorem RegFile.find_write_self (r : RegFile) (f : Field) (v : Nat) : (r.write f v).find f.key = some (v % 2 ^ f.width) :=
  r.find_put_self _ _

theorem RegFile.find_write_ne (r : RegFile) (f : Field) (v : Nat) {k : Nat} (h : f.key ≠ k) : (r.write f v).find k = r.find k :=
  r.find_put_ne _ h

/-- A field reads as what was written to it, cut to its width. -/
@[simp] theorem RegFile.read_write_self (r : RegFile) (f : Field) (v : Nat) : (r.write f v).read f = v % 2 ^ f.width := by
  simp [RegFile.read, RegFile.write, RegFile.find_put_self]

/-- A write leaves every field of another key as it was. -/
theorem RegFile.read_write_ne (r : RegFile) {f g : Field} (v : Nat) (h : f.key ≠ g.key) : (r.write f v).read g = r.read g := by
  simp [RegFile.read, RegFile.write, RegFile.find_put_ne _ _ h]

@[simp] theorem Hw.g_s_self (h : Hw) (f : Field) (v : Nat) : (h.s f v).g f = v % 2 ^ f.width := RegFile.read_write_self _ _ _

theorem Hw.g_s_ne (h : Hw) {f g : Field} (v : Nat) (hk : f.key ≠ g.key) : (h.s f v).g g = h.g g := RegFile.read_write_ne _ _ hk

/-- The page and offset of a field fit a page of the window, its bits a register, its element the register file. -/
def Field.ok (f : Field) : Prop := f.off < 4096 ∧ f.lo < 64 ∧ f.idx < 1048576

/-- A function register (R80): beyond the header. -/
def Field.fn (f : Field) : Prop := 0x40 ≤ f.off ∧ f.ok

/-- A field of a page's header. -/
def Field.hdr (f : Field) (p : Nat) : Prop := f.page = p ∧ f.off < 0x40 ∧ f.lo < 64 ∧ f.idx = 0

theorem Field.key_ne_hdr {f g : Field} {p : Nat} (hf : f.hdr p) (hg : g.fn) : f.key ≠ g.key := by
  obtain ⟨a, b, c, d⟩ := hf
  obtain ⟨e, x, y, z⟩ := hg
  unfold Field.key
  omega

theorem Field.key_ne_page {f g : Field} (hf : f.ok) (hg : g.ok) (h : f.page ≠ g.page) : f.key ≠ g.key := by
  obtain ⟨a, b, c⟩ := hf
  obtain ⟨x, y, z⟩ := hg
  unfold Field.key
  omega

theorem Field.key_ne_off {f g : Field} (hf : f.ok) (hg : g.ok) (h : f.page ≠ g.page ∨ f.off ≠ g.off) : f.key ≠ g.key := by
  obtain ⟨a, b, c⟩ := hf
  obtain ⟨x, y, z⟩ := hg
  unfold Field.key
  omega

theorem Field.key_ne_lo {f g : Field} (hf : f.idx < 1048576) (hg : g.idx < 1048576) (hl : f.lo < 64) (hm : g.lo < 64)
    (h : f.lo ≠ g.lo) : f.key ≠ g.key := by
  unfold Field.key
  omega

/-! ### Parts of the register file that a reset puts back -/

theorem RegFile.find_filter (r : RegFile) (keep : Nat → Bool) {k : Nat} (h : keep k = true) :
    RegFile.find (r.filter fun e => keep e.1) k = r.find k := by
  induction r with
  | nil => rfl
  | cons e t ih =>
    obtain ⟨j, w⟩ := e
    by_cases hj : keep j = true
    · simp [List.filter, hj, RegFile.find, ih]
    · have hne : j ≠ k := fun hjk => hj (hjk ▸ h)
      simp [List.filter, hj, RegFile.find, ih, hne]

theorem RegFile.find_filter_out (r : RegFile) (keep : Nat → Bool) {k : Nat} (h : keep k = false) :
    RegFile.find (r.filter fun e => keep e.1) k = none := by
  induction r with
  | nil => rfl
  | cons e t ih =>
    obtain ⟨j, w⟩ := e
    by_cases hj : keep j = true
    · have hne : j ≠ k := fun hjk => by simp [hjk, h] at hj
      simp [List.filter, hj, RegFile.find, ih, hne]
    · simp [List.filter, hj, ih]

/-- Putting profile values back where `gone` holds leaves every other field. -/
theorem profileRegs_keep (p : Profile) (gone : Nat → Bool) (r : RegFile) {f : Field} (h : gone f.key = false) :
    (profileRegs p gone (r.filter fun e => !gone e.1)).read f = r.read f := by
  unfold profileRegs
  have base : RegFile.find (r.filter fun e => !gone e.1) f.key = r.find f.key :=
    RegFile.find_filter r (fun k => !gone k) (by simp [h])
  have step : ∀ (l : List (Field × Nat)) (q : RegFile),
      RegFile.find (l.foldr (fun e acc => if gone e.1.key then acc.write e.1 e.2 else acc) q) f.key = q.find f.key := by
    intro l q
    induction l with
    | nil => rfl
    | cons e t ih =>
      simp only [List.foldr_cons]
      split
      · rename_i hg
        have hne : e.1.key ≠ f.key := fun he => by simp [he, h] at hg
        rw [RegFile.find_write_ne _ _ _ hne, ih]
      · exact ih
  simp only [RegFile.read, step, base]

/-- A field whose key is gone takes its value after reset. -/
theorem profileRegs_gone (p : Profile) (gone : Nat → Bool) (r : RegFile) {f : Field} (h : gone f.key = true) :
    (profileRegs p gone (r.filter fun e => !gone e.1)).read f = (Hw.resetFor p).g f := by
  unfold profileRegs
  have base : RegFile.find (r.filter fun e => !gone e.1) f.key = none :=
    RegFile.find_filter_out r (fun k => !gone k) (by simp [h])
  have step : ∀ (l : List (Field × Nat)) (q : RegFile), q.find f.key = none →
      RegFile.find (l.foldr (fun e acc => if gone e.1.key then acc.write e.1 e.2 else acc) q) f.key =
        RegFile.find (l.foldr (fun e acc => if (fun _ => true) e.1.key then acc.write e.1 e.2 else acc) []) f.key := by
    intro l q hq
    induction l with
    | nil => exact hq
    | cons e t ih =>
      simp only [List.foldr_cons]
      by_cases he : e.1.key = f.key
      · have hg : gone e.1.key = true := by rw [he, h]
        rw [← he, if_pos hg, if_pos trivial, RegFile.find_write_self, RegFile.find_write_self]
      · rw [if_pos trivial, RegFile.find_write_ne _ _ _ he]
        split
        · rw [RegFile.find_write_ne _ _ _ he]; simpa using ih
        · simpa using ih
  simp only [RegFile.read, step _ _ base]
  rfl

end Sys2Proof.Machine
end

