-- ==== Sys2Proof/Laws/State.lean ====
section
/-!
SUPPORT. Laws/State.lean: what each update of the state leaves as it was.
-/
namespace Sys2Proof.Machine

/-! ### A register write changes the register file alone -/

@[simp] theorem Hw.s_prof (h : Hw) (f : Field) (v : Nat) : (h.s f v).prof = h.prof := rfl
@[simp] theorem Hw.s_frc (h : Hw) (f : Field) (v : Nat) : (h.s f v).frc = h.frc := rfl
@[simp] theorem Hw.s_freeCtr (h : Hw) (f : Field) (v : Nat) : (h.s f v).freeCtr = h.freeCtr := rfl
@[simp] theorem Hw.s_rsp (h : Hw) (f : Field) (v : Nat) : (h.s f v).rsp = h.rsp := rfl
@[simp] theorem Hw.s_latches (h : Hw) (f : Field) (v : Nat) : (h.s f v).latches = h.latches := rfl
@[simp] theorem Hw.s_sets (h : Hw) (f : Field) (v : Nat) : (h.s f v).sets = h.sets := rfl
@[simp] theorem Hw.s_out (h : Hw) (f : Field) (v : Nat) : (h.s f v).out = h.out := rfl
@[simp] theorem Hw.s_claims (h : Hw) (f : Field) (v : Nat) : (h.s f v).claims = h.claims := rfl
@[simp] theorem Hw.s_dma (h : Hw) (f : Field) (v : Nat) : (h.s f v).dma = h.dma := rfl
@[simp] theorem Hw.s_dmaNext (h : Hw) (f : Field) (v : Nat) : (h.s f v).dmaNext = h.dmaNext := rfl
@[simp] theorem Hw.s_queues (h : Hw) (f : Field) (v : Nat) : (h.s f v).queues = h.queues := rfl
@[simp] theorem Hw.s_passes (h : Hw) (f : Field) (v : Nat) : (h.s f v).passes = h.passes := rfl
@[simp] theorem Hw.s_keys (h : Hw) (f : Field) (v : Nat) : (h.s f v).keys = h.keys := rfl
@[simp] theorem Hw.s_aborts (h : Hw) (f : Field) (v : Nat) : (h.s f v).aborts = h.aborts := rfl
@[simp] theorem Hw.s_overruns (h : Hw) (f : Field) (v : Nat) : (h.s f v).overruns = h.overruns := rfl
@[simp] theorem Hw.s_pwr (h : Hw) (f : Field) (v : Nat) : (h.s f v).pwr = h.pwr := rfl
@[simp] theorem Hw.s_evr (h : Hw) (f : Field) (v : Nat) : (h.s f v).evr = h.evr := rfl
@[simp] theorem Hw.s_saf (h : Hw) (f : Field) (v : Nat) : (h.s f v).saf = h.saf := rfl
@[simp] theorem Hw.s_tim (h : Hw) (f : Field) (v : Nat) : (h.s f v).tim = h.tim := rfl
@[simp] theorem Hw.s_ptp (h : Hw) (f : Field) (v : Nat) : (h.s f v).ptp = h.ptp := rfl
@[simp] theorem Hw.s_stp (h : Hw) (f : Field) (v : Nat) : (h.s f v).stp = h.stp := rfl
@[simp] theorem Hw.s_cnt (h : Hw) (f : Field) (v : Nat) : (h.s f v).cnt = h.cnt := rfl
@[simp] theorem Hw.s_prx (h : Hw) (f : Field) (v : Nat) : (h.s f v).prx = h.prx := rfl
@[simp] theorem Hw.s_flw (h : Hw) (f : Field) (v : Nat) : (h.s f v).flw = h.flw := rfl
@[simp] theorem Hw.s_fab (h : Hw) (f : Field) (v : Nat) : (h.s f v).fab = h.fab := rfl
@[simp] theorem Hw.s_red (h : Hw) (f : Field) (v : Nat) : (h.s f v).red = h.red := rfl
@[simp] theorem Hw.s_gar (h : Hw) (f : Field) (v : Nat) : (h.s f v).gar = h.gar := rfl
@[simp] theorem Hw.s_chk (h : Hw) (f : Field) (v : Nat) : (h.s f v).chk = h.chk := rfl
@[simp] theorem Hw.s_lastCtx (h : Hw) (f : Field) (v : Nat) : (h.s f v).lastCtx = h.lastCtx := rfl
@[simp] theorem Hw.s_trc (h : Hw) (f : Field) (v : Nat) : (h.s f v).trc = h.trc := rfl
@[simp] theorem Hw.s_sec (h : Hw) (f : Field) (v : Nat) : (h.s f v).sec = h.sec := rfl
@[simp] theorem Hw.s_cmp (h : Hw) (f : Field) (v : Nat) : (h.s f v).cmp = h.cmp := rfl
@[simp] theorem Hw.s_vrd (h : Hw) (f : Field) (v : Nat) : (h.s f v).vrd = h.vrd := rfl
@[simp] theorem Hw.s_opt (h : Hw) (f : Field) (v : Nat) : (h.s f v).opt = h.opt := rfl
@[simp] theorem Hw.s_hlt (h : Hw) (f : Field) (v : Nat) : (h.s f v).hlt = h.hlt := rfl
@[simp] theorem Hw.s_agt (h : Hw) (f : Field) (v : Nat) : (h.s f v).agt = h.agt := rfl
@[simp] theorem Hw.s_pol (h : Hw) (f : Field) (v : Nat) : (h.s f v).pol = h.pol := rfl
@[simp] theorem Hw.s_shp (h : Hw) (f : Field) (v : Nat) : (h.s f v).shp = h.shp := rfl
@[simp] theorem Hw.s_upd (h : Hw) (f : Field) (v : Nat) : (h.s f v).upd = h.upd := rfl
@[simp] theorem Hw.s_regs (h : Hw) (f : Field) (v : Nat) : (h.s f v).regs = h.regs.write f v := rfl

/-! ### A command's effect on the state -/

@[simp] theorem State.on_mem (s : State) (f : Hw → Hw) : (s.on f).mem = s.mem := rfl
@[simp] theorem State.on_pending (s : State) (f : Hw → Hw) : (s.on f).pending = s.pending := rfl
@[simp] theorem State.on_prof (s : State) (f : Hw → Hw) : (s.on f).hw.prof = s.hw.prof := rfl
theorem State.on_regs (s : State) (f : Hw → Hw) : (s.on f).hw.regs = (f { s.hw with out := [] }).regs := rfl
@[simp] theorem State.on_frc (s : State) (f : Hw → Hw) : (s.on f).hw.frc = s.hw.frc := rfl
@[simp] theorem State.clocked_mem (s : State) (f : Hw → Hw) : (s.clocked f).mem = s.mem := rfl
@[simp] theorem State.clocked_pending (s : State) (f : Hw → Hw) : (s.clocked f).pending = s.pending := rfl
@[simp] theorem State.clocked_prof (s : State) (f : Hw → Hw) : (s.clocked f).hw.prof = s.hw.prof := rfl
theorem State.clocked_hw (s : State) (f : Hw → Hw) : (s.clocked f).hw = { f { s.hw with out := [] } with prof := s.hw.prof } := rfl
theorem State.on_freeCtr (s : State) (f : Hw → Hw) : (s.on f).hw.freeCtr = (f { s.hw with out := [] }).freeCtr := rfl
theorem State.on_rsp (s : State) (f : Hw → Hw) : (s.on f).hw.rsp = (f { s.hw with out := [] }).rsp := rfl
theorem State.on_latches (s : State) (f : Hw → Hw) : (s.on f).hw.latches = (f { s.hw with out := [] }).latches := rfl
theorem State.on_sets (s : State) (f : Hw → Hw) : (s.on f).hw.sets = (f { s.hw with out := [] }).sets := rfl
theorem State.on_out (s : State) (f : Hw → Hw) : (s.on f).hw.out = (f { s.hw with out := [] }).out := rfl
theorem State.on_claims (s : State) (f : Hw → Hw) : (s.on f).hw.claims = (f { s.hw with out := [] }).claims := rfl
theorem State.on_dma (s : State) (f : Hw → Hw) : (s.on f).hw.dma = (f { s.hw with out := [] }).dma := rfl
theorem State.on_dmaNext (s : State) (f : Hw → Hw) : (s.on f).hw.dmaNext = (f { s.hw with out := [] }).dmaNext := rfl
theorem State.on_queues (s : State) (f : Hw → Hw) : (s.on f).hw.queues = (f { s.hw with out := [] }).queues := rfl
theorem State.on_passes (s : State) (f : Hw → Hw) : (s.on f).hw.passes = (f { s.hw with out := [] }).passes := rfl
theorem State.on_keys (s : State) (f : Hw → Hw) : (s.on f).hw.keys = (f { s.hw with out := [] }).keys := rfl
theorem State.on_aborts (s : State) (f : Hw → Hw) : (s.on f).hw.aborts = (f { s.hw with out := [] }).aborts := rfl
theorem State.on_overruns (s : State) (f : Hw → Hw) : (s.on f).hw.overruns = (f { s.hw with out := [] }).overruns := rfl
theorem State.on_pwr (s : State) (f : Hw → Hw) : (s.on f).hw.pwr = (f { s.hw with out := [] }).pwr := rfl
theorem State.on_evr (s : State) (f : Hw → Hw) : (s.on f).hw.evr = (f { s.hw with out := [] }).evr := rfl
theorem State.on_saf (s : State) (f : Hw → Hw) : (s.on f).hw.saf = (f { s.hw with out := [] }).saf := rfl
theorem State.on_tim (s : State) (f : Hw → Hw) : (s.on f).hw.tim = (f { s.hw with out := [] }).tim := rfl
theorem State.on_ptp (s : State) (f : Hw → Hw) : (s.on f).hw.ptp = (f { s.hw with out := [] }).ptp := rfl
theorem State.on_stp (s : State) (f : Hw → Hw) : (s.on f).hw.stp = (f { s.hw with out := [] }).stp := rfl
theorem State.on_cnt (s : State) (f : Hw → Hw) : (s.on f).hw.cnt = (f { s.hw with out := [] }).cnt := rfl
theorem State.on_prx (s : State) (f : Hw → Hw) : (s.on f).hw.prx = (f { s.hw with out := [] }).prx := rfl
theorem State.on_flw (s : State) (f : Hw → Hw) : (s.on f).hw.flw = (f { s.hw with out := [] }).flw := rfl
theorem State.on_fab (s : State) (f : Hw → Hw) : (s.on f).hw.fab = (f { s.hw with out := [] }).fab := rfl
theorem State.on_red (s : State) (f : Hw → Hw) : (s.on f).hw.red = (f { s.hw with out := [] }).red := rfl
theorem State.on_gar (s : State) (f : Hw → Hw) : (s.on f).hw.gar = (f { s.hw with out := [] }).gar := rfl
theorem State.on_chk (s : State) (f : Hw → Hw) : (s.on f).hw.chk = (f { s.hw with out := [] }).chk := rfl
theorem State.on_lastCtx (s : State) (f : Hw → Hw) : (s.on f).hw.lastCtx = (f { s.hw with out := [] }).lastCtx := rfl
theorem State.on_trc (s : State) (f : Hw → Hw) : (s.on f).hw.trc = (f { s.hw with out := [] }).trc := rfl
theorem State.on_sec (s : State) (f : Hw → Hw) : (s.on f).hw.sec = (f { s.hw with out := [] }).sec := rfl
theorem State.on_cmp (s : State) (f : Hw → Hw) : (s.on f).hw.cmp = (f { s.hw with out := [] }).cmp := rfl
theorem State.on_vrd (s : State) (f : Hw → Hw) : (s.on f).hw.vrd = (f { s.hw with out := [] }).vrd := rfl
theorem State.on_opt (s : State) (f : Hw → Hw) : (s.on f).hw.opt = (f { s.hw with out := [] }).opt := rfl
theorem State.on_hlt (s : State) (f : Hw → Hw) : (s.on f).hw.hlt = (f { s.hw with out := [] }).hlt := rfl
theorem State.on_agt (s : State) (f : Hw → Hw) : (s.on f).hw.agt = (f { s.hw with out := [] }).agt := rfl
theorem State.on_pol (s : State) (f : Hw → Hw) : (s.on f).hw.pol = (f { s.hw with out := [] }).pol := rfl
theorem State.on_shp (s : State) (f : Hw → Hw) : (s.on f).hw.shp = (f { s.hw with out := [] }).shp := rfl
theorem State.on_upd (s : State) (f : Hw → Hw) : (s.on f).hw.upd = (f { s.hw with out := [] }).upd := rfl
theorem State.on_g (s : State) (f : Hw → Hw) (x : Field) : (s.on f).hw.g x = (f { s.hw with out := [] }).g x := rfl

/-! ### The command queue -/

@[simp] theorem step_cons (s : State) (c : Instr) (rest : List Instr) : step { s with pending := c :: rest } = exec c { s with pending := rest } :=
  rfl

@[simp] theorem step_nil (s : State) : step { s with pending := [] } = State.idle { s with pending := [] } := rfl

/-- The step of a block that no command reaches is a tick (log entry 4). -/
theorem State.idle_eq (s : State) : s.idle = .next (s.clocked Hw.tick) := rfl

/-- Whatever a tick does, the FRC counts by `Hw.nextFrc` and by that alone (R113). -/
@[simp] theorem Hw.tick_frc (h : Hw) : (Hw.tick h).frc = h.nextFrc := rfl

end Sys2Proof.Machine
end

