-- ==== Sys2Proof/Laws/Header.lean ====
section
/-!
SUPPORT. Laws/Header.lean: what the operations on page headers (R80, R86, R112), the event log (R488) and the host response can do.
-/
namespace Sys2Proof.Machine

/-! ### The frame of the registers -/

theorem Hw.SameBut.refl (h : Hw) (l : List Field) : h.SameBut h l := fun _ _ => rfl

theorem Hw.SameBut.trans {a b c : Hw} {l : List Field} (h : a.SameBut b l) (k : b.SameBut c l) : a.SameBut c l :=
  fun f hf => (k f hf).trans (h f hf)

theorem Hw.SameBut.mono {a b : Hw} {l m : List Field} (h : a.SameBut b l) (hs : ∀ e ∈ l, e ∈ m) : a.SameBut b m :=
  fun f hf => h f fun e he => hf e (hs e he)

theorem Hw.SameBut.write {a b : Hw} {l : List Field} {f : Field} (v : Nat) (h : a.SameBut b l) (hf : f ∈ l) : a.SameBut (b.s f v) l :=
  fun g hg => (b.g_s_ne v (hg f hf)).trans (h g hg)

theorem Hw.SameBut.of_regs {a b c : Hw} {l : List Field} (h : a.SameBut b l) (hr : c.regs = b.regs) : a.SameBut c l := by
  intro f hf
  have := h f hf
  simpa [Hw.g, hr] using this

theorem Hw.SameBut.ite {a b c : Hw} {l : List Field} {p : Prop} [Decidable p] (h : a.SameBut b l) (k : a.SameBut c l) :
    a.SameBut (if p then b else c) l := by
  split
  · exact h
  · exact k

/-! ### Operations that change registers alone -/

/-- The two differ in registers alone, and in what this cycle has set (R11). -/
def Hw.OnlyRegs (h t : Hw) : Prop := t = { h with regs := t.regs, sets := t.sets }

theorem Hw.OnlyRegs.refl (h : Hw) : h.OnlyRegs h := rfl

theorem Hw.OnlyRegs.trans {a b c : Hw} (h : a.OnlyRegs b) (k : b.OnlyRegs c) : a.OnlyRegs c := by
  unfold Hw.OnlyRegs at *
  rw [k, h]

theorem Hw.OnlyRegs.write (h : Hw) (f : Field) (v : Nat) : h.OnlyRegs (h.s f v) := rfl

theorem Hw.OnlyRegs.ite {a b c : Hw} {p : Prop} [Decidable p] (h : a.OnlyRegs b) (k : a.OnlyRegs c) : a.OnlyRegs (if p then b else c) := by
  split
  · exact h
  · exact k

theorem Hw.inc_only (h : Hw) (f : Field) : h.OnlyRegs (h.inc f) := rfl

theorem Hw.add_only (h : Hw) (f : Field) (n : Nat) : h.OnlyRegs (h.add f n) := rfl

theorem Hw.incSat_only (h : Hw) (f : Field) : h.OnlyRegs (h.incSat f) := Hw.OnlyRegs.ite rfl rfl

theorem Hw.setBits_only (h : Hw) (f : Field) (m : Nat) : h.OnlyRegs (h.setBits f m) := rfl

theorem Hw.clrBits_only (h : Hw) (f : Field) (m : Nat) : h.OnlyRegs (h.clrBits f m) := rfl

theorem Hw.raise_only (h : Hw) (p b : Nat) : h.OnlyRegs (h.raise p b) := rfl

theorem Hw.accepted_only (h : Hw) (p : Nat) : h.OnlyRegs (h.accepted p) := rfl

theorem Hw.err_only (h : Hw) (p c : Nat) : h.OnlyRegs (h.err p c) := by
  unfold Hw.err
  exact ((Hw.OnlyRegs.ite (Hw.OnlyRegs.write h _ _) (Hw.OnlyRegs.refl h)).trans (Hw.incSat_only _ _)).trans (Hw.setBits_only _ _ _)

theorem Hw.claimFail_only (h : Hw) (p r : Nat) : h.OnlyRegs (h.claimFail p r) := by
  unfold Hw.claimFail
  refine Hw.OnlyRegs.trans ?_ (Hw.err_only _ _ _)
  rfl

theorem Hw.refuse_only (h : Hw) (p c : Nat) : h.OnlyRegs (h.refuse p c) :=
  Hw.OnlyRegs.ite (Hw.err_only h p c) (Hw.claimFail_only h p _)

theorem Hw.setBits_same (h : Hw) (f : Field) (m : Nat) {l : List Field} (hf : f ∈ l) : h.SameBut (h.setBits f m) l :=
  (Hw.SameBut.write (h.g f ||| m) (Hw.SameBut.refl h l) hf).of_regs rfl

/-- A field whose bits are set reads as they and what it held (R11). -/
theorem Hw.g_setBits_self (h : Hw) (f : Field) (m : Nat) : (h.setBits f m).g f = (h.g f ||| m) % 2 ^ f.width := Hw.g_s_self h f _

theorem Hw.g_setBits_ne (h : Hw) {f g : Field} (m : Nat) (e : g.key ≠ f.key) : (h.setBits g m).g f = h.g f := Hw.g_s_ne h _ e

/-- The fields of a page's header that recording an error changes (R112). -/
def errFields (p : Nat) : List Field := [R.PAGE_ERR_FIRST p, R.PAGE_ERR_COUNT p, R.PAGE_IRQ_STAT_ERROR p]

theorem Hw.err_same (h : Hw) (p c : Nat) : h.SameBut (h.err p c) (errFields p) := by
  unfold Hw.err Hw.incSat errFields
  simp only
  refine Hw.SameBut.trans ?_ (Hw.setBits_same _ _ _ (by simp))
  · apply Hw.SameBut.ite
    · apply Hw.SameBut.write _ _ (by simp)
      exact Hw.SameBut.ite (Hw.SameBut.write _ (Hw.SameBut.refl _ _) (by simp)) (Hw.SameBut.refl _ _)
    · exact Hw.SameBut.ite (Hw.SameBut.write _ (Hw.SameBut.refl _ _) (by simp)) (Hw.SameBut.refl _ _)

theorem Hw.raise_same (h : Hw) (p b : Nat) : h.SameBut (h.raise p b) [R.PAGE_IRQ_STAT_FUNC_IRQ p] := Hw.setBits_same _ _ _ (by simp)

theorem Hw.accepted_same (h : Hw) (p : Nat) : h.SameBut (h.accepted p) [R.PAGE_SEQ_SEQ p] :=
  Hw.SameBut.write _ (Hw.SameBut.refl _ _) (by simp)

/-! ### A function register is untouched by what changes a header -/

theorem Field.err_key_ne {p : Nat} {g : Field} (hg : g.fn) : ∀ e ∈ errFields p, e.key ≠ g.key := by
  intro e he
  simp only [errFields, List.mem_cons, List.mem_nil_iff, or_false] at he
  rcases he with rfl | rfl | rfl <;> exact Field.key_ne_hdr (p := p) (by simp [Field.hdr, R.PAGE_ERR_FIRST, R.PAGE_ERR_COUNT, R.PAGE_IRQ_STAT_ERROR]) hg

theorem Hw.g_err (h : Hw) (p c : Nat) {g : Field} (hg : g.fn) : (h.err p c).g g = h.g g := h.err_same p c g (Field.err_key_ne hg)

theorem Hw.g_raise (h : Hw) (p b : Nat) {g : Field} (hg : g.fn) : (h.raise p b).g g = h.g g := by
  apply h.raise_same p b g
  intro e he
  simp only [List.mem_singleton] at he
  subst he
  exact Field.key_ne_hdr (p := p) (by simp [Field.hdr, R.PAGE_IRQ_STAT_FUNC_IRQ]) hg

theorem Hw.g_accepted (h : Hw) (p : Nat) {g : Field} (hg : g.fn) : (h.accepted p).g g = h.g g := by
  apply h.accepted_same p g
  intro e he
  simp only [List.mem_singleton] at he
  subst he
  exact Field.key_ne_hdr (p := p) (by simp [Field.hdr, R.PAGE_SEQ_SEQ]) hg

/-! ### A page's state (R85, R86) -/

/-- A change of state changes the page's header and the waiting block events alone. -/
theorem Hw.setState_only (h : Hw) (p st : Nat) :
    ∃ b, h.setState p st = { h with regs := (h.setState p st).regs, sets := (h.setState p st).sets, trc := { h.trc with blk := b } } := by
  unfold Hw.setState
  split
  · exact ⟨h.trc.blk, rfl⟩
  · exact ⟨h.trc.blk ++ [⟨0x31, 6, p, st + 16 * (if st = 5 then h.g (R.PAGE_ERR_FIRST p) else 0), 0⟩], by
      by_cases hp : p = 0x10 <;> by_cases h2 : st = 2 <;> simp [hp, h2] <;> rfl⟩


/-! ### What else they leave -/

@[simp] theorem Hw.err_prof (h : Hw) (p c : Nat) : (h.err p c).prof = h.prof := by have e := h.err_only p c; unfold Hw.OnlyRegs at e; rw [e]
@[simp] theorem Hw.err_frc (h : Hw) (p c : Nat) : (h.err p c).frc = h.frc := by have e := h.err_only p c; unfold Hw.OnlyRegs at e; rw [e]
@[simp] theorem Hw.err_freeCtr (h : Hw) (p c : Nat) : (h.err p c).freeCtr = h.freeCtr := by have e := h.err_only p c; unfold Hw.OnlyRegs at e; rw [e]
@[simp] theorem Hw.err_rsp (h : Hw) (p c : Nat) : (h.err p c).rsp = h.rsp := by have e := h.err_only p c; unfold Hw.OnlyRegs at e; rw [e]
@[simp] theorem Hw.err_latches (h : Hw) (p c : Nat) : (h.err p c).latches = h.latches := by have e := h.err_only p c; unfold Hw.OnlyRegs at e; rw [e]
@[simp] theorem Hw.err_out (h : Hw) (p c : Nat) : (h.err p c).out = h.out := by have e := h.err_only p c; unfold Hw.OnlyRegs at e; rw [e]
@[simp] theorem Hw.err_claims (h : Hw) (p c : Nat) : (h.err p c).claims = h.claims := by have e := h.err_only p c; unfold Hw.OnlyRegs at e; rw [e]
@[simp] theorem Hw.err_dma (h : Hw) (p c : Nat) : (h.err p c).dma = h.dma := by have e := h.err_only p c; unfold Hw.OnlyRegs at e; rw [e]
@[simp] theorem Hw.err_dmaNext (h : Hw) (p c : Nat) : (h.err p c).dmaNext = h.dmaNext := by have e := h.err_only p c; unfold Hw.OnlyRegs at e; rw [e]
@[simp] theorem Hw.err_queues (h : Hw) (p c : Nat) : (h.err p c).queues = h.queues := by have e := h.err_only p c; unfold Hw.OnlyRegs at e; rw [e]
@[simp] theorem Hw.err_passes (h : Hw) (p c : Nat) : (h.err p c).passes = h.passes := by have e := h.err_only p c; unfold Hw.OnlyRegs at e; rw [e]
@[simp] theorem Hw.err_keys (h : Hw) (p c : Nat) : (h.err p c).keys = h.keys := by have e := h.err_only p c; unfold Hw.OnlyRegs at e; rw [e]
@[simp] theorem Hw.err_aborts (h : Hw) (p c : Nat) : (h.err p c).aborts = h.aborts := by have e := h.err_only p c; unfold Hw.OnlyRegs at e; rw [e]
@[simp] theorem Hw.err_overruns (h : Hw) (p c : Nat) : (h.err p c).overruns = h.overruns := by have e := h.err_only p c; unfold Hw.OnlyRegs at e; rw [e]
@[simp] theorem Hw.err_pwr (h : Hw) (p c : Nat) : (h.err p c).pwr = h.pwr := by have e := h.err_only p c; unfold Hw.OnlyRegs at e; rw [e]
@[simp] theorem Hw.err_evr (h : Hw) (p c : Nat) : (h.err p c).evr = h.evr := by have e := h.err_only p c; unfold Hw.OnlyRegs at e; rw [e]
@[simp] theorem Hw.err_saf (h : Hw) (p c : Nat) : (h.err p c).saf = h.saf := by have e := h.err_only p c; unfold Hw.OnlyRegs at e; rw [e]
@[simp] theorem Hw.err_tim (h : Hw) (p c : Nat) : (h.err p c).tim = h.tim := by have e := h.err_only p c; unfold Hw.OnlyRegs at e; rw [e]
@[simp] theorem Hw.err_ptp (h : Hw) (p c : Nat) : (h.err p c).ptp = h.ptp := by have e := h.err_only p c; unfold Hw.OnlyRegs at e; rw [e]
@[simp] theorem Hw.err_stp (h : Hw) (p c : Nat) : (h.err p c).stp = h.stp := by have e := h.err_only p c; unfold Hw.OnlyRegs at e; rw [e]
@[simp] theorem Hw.err_cnt (h : Hw) (p c : Nat) : (h.err p c).cnt = h.cnt := by have e := h.err_only p c; unfold Hw.OnlyRegs at e; rw [e]
@[simp] theorem Hw.err_prx (h : Hw) (p c : Nat) : (h.err p c).prx = h.prx := by have e := h.err_only p c; unfold Hw.OnlyRegs at e; rw [e]
@[simp] theorem Hw.err_flw (h : Hw) (p c : Nat) : (h.err p c).flw = h.flw := by have e := h.err_only p c; unfold Hw.OnlyRegs at e; rw [e]
@[simp] theorem Hw.err_fab (h : Hw) (p c : Nat) : (h.err p c).fab = h.fab := by have e := h.err_only p c; unfold Hw.OnlyRegs at e; rw [e]
@[simp] theorem Hw.err_red (h : Hw) (p c : Nat) : (h.err p c).red = h.red := by have e := h.err_only p c; unfold Hw.OnlyRegs at e; rw [e]
@[simp] theorem Hw.err_gar (h : Hw) (p c : Nat) : (h.err p c).gar = h.gar := by have e := h.err_only p c; unfold Hw.OnlyRegs at e; rw [e]
@[simp] theorem Hw.err_chk (h : Hw) (p c : Nat) : (h.err p c).chk = h.chk := by have e := h.err_only p c; unfold Hw.OnlyRegs at e; rw [e]
@[simp] theorem Hw.err_lastCtx (h : Hw) (p c : Nat) : (h.err p c).lastCtx = h.lastCtx := by have e := h.err_only p c; unfold Hw.OnlyRegs at e; rw [e]
@[simp] theorem Hw.err_trc (h : Hw) (p c : Nat) : (h.err p c).trc = h.trc := by have e := h.err_only p c; unfold Hw.OnlyRegs at e; rw [e]
@[simp] theorem Hw.err_sec (h : Hw) (p c : Nat) : (h.err p c).sec = h.sec := by have e := h.err_only p c; unfold Hw.OnlyRegs at e; rw [e]
@[simp] theorem Hw.err_cmp (h : Hw) (p c : Nat) : (h.err p c).cmp = h.cmp := by have e := h.err_only p c; unfold Hw.OnlyRegs at e; rw [e]
@[simp] theorem Hw.err_vrd (h : Hw) (p c : Nat) : (h.err p c).vrd = h.vrd := by have e := h.err_only p c; unfold Hw.OnlyRegs at e; rw [e]
@[simp] theorem Hw.err_opt (h : Hw) (p c : Nat) : (h.err p c).opt = h.opt := by have e := h.err_only p c; unfold Hw.OnlyRegs at e; rw [e]
@[simp] theorem Hw.err_hlt (h : Hw) (p c : Nat) : (h.err p c).hlt = h.hlt := by have e := h.err_only p c; unfold Hw.OnlyRegs at e; rw [e]
@[simp] theorem Hw.err_agt (h : Hw) (p c : Nat) : (h.err p c).agt = h.agt := by have e := h.err_only p c; unfold Hw.OnlyRegs at e; rw [e]
@[simp] theorem Hw.err_pol (h : Hw) (p c : Nat) : (h.err p c).pol = h.pol := by have e := h.err_only p c; unfold Hw.OnlyRegs at e; rw [e]
@[simp] theorem Hw.err_shp (h : Hw) (p c : Nat) : (h.err p c).shp = h.shp := by have e := h.err_only p c; unfold Hw.OnlyRegs at e; rw [e]
@[simp] theorem Hw.err_upd (h : Hw) (p c : Nat) : (h.err p c).upd = h.upd := by have e := h.err_only p c; unfold Hw.OnlyRegs at e; rw [e]
@[simp] theorem Hw.raise_prof (h : Hw) (p b : Nat) : (h.raise p b).prof = h.prof := rfl
@[simp] theorem Hw.raise_frc (h : Hw) (p b : Nat) : (h.raise p b).frc = h.frc := rfl
@[simp] theorem Hw.raise_freeCtr (h : Hw) (p b : Nat) : (h.raise p b).freeCtr = h.freeCtr := rfl
@[simp] theorem Hw.raise_rsp (h : Hw) (p b : Nat) : (h.raise p b).rsp = h.rsp := rfl
@[simp] theorem Hw.raise_latches (h : Hw) (p b : Nat) : (h.raise p b).latches = h.latches := rfl
@[simp] theorem Hw.raise_out (h : Hw) (p b : Nat) : (h.raise p b).out = h.out := rfl
@[simp] theorem Hw.raise_claims (h : Hw) (p b : Nat) : (h.raise p b).claims = h.claims := rfl
@[simp] theorem Hw.raise_dma (h : Hw) (p b : Nat) : (h.raise p b).dma = h.dma := rfl
@[simp] theorem Hw.raise_dmaNext (h : Hw) (p b : Nat) : (h.raise p b).dmaNext = h.dmaNext := rfl
@[simp] theorem Hw.raise_queues (h : Hw) (p b : Nat) : (h.raise p b).queues = h.queues := rfl
@[simp] theorem Hw.raise_passes (h : Hw) (p b : Nat) : (h.raise p b).passes = h.passes := rfl
@[simp] theorem Hw.raise_keys (h : Hw) (p b : Nat) : (h.raise p b).keys = h.keys := rfl
@[simp] theorem Hw.raise_aborts (h : Hw) (p b : Nat) : (h.raise p b).aborts = h.aborts := rfl
@[simp] theorem Hw.raise_overruns (h : Hw) (p b : Nat) : (h.raise p b).overruns = h.overruns := rfl
@[simp] theorem Hw.raise_pwr (h : Hw) (p b : Nat) : (h.raise p b).pwr = h.pwr := rfl
@[simp] theorem Hw.raise_evr (h : Hw) (p b : Nat) : (h.raise p b).evr = h.evr := rfl
@[simp] theorem Hw.raise_saf (h : Hw) (p b : Nat) : (h.raise p b).saf = h.saf := rfl
@[simp] theorem Hw.raise_tim (h : Hw) (p b : Nat) : (h.raise p b).tim = h.tim := rfl
@[simp] theorem Hw.raise_ptp (h : Hw) (p b : Nat) : (h.raise p b).ptp = h.ptp := rfl
@[simp] theorem Hw.raise_stp (h : Hw) (p b : Nat) : (h.raise p b).stp = h.stp := rfl
@[simp] theorem Hw.raise_cnt (h : Hw) (p b : Nat) : (h.raise p b).cnt = h.cnt := rfl
@[simp] theorem Hw.raise_prx (h : Hw) (p b : Nat) : (h.raise p b).prx = h.prx := rfl
@[simp] theorem Hw.raise_flw (h : Hw) (p b : Nat) : (h.raise p b).flw = h.flw := rfl
@[simp] theorem Hw.raise_fab (h : Hw) (p b : Nat) : (h.raise p b).fab = h.fab := rfl
@[simp] theorem Hw.raise_red (h : Hw) (p b : Nat) : (h.raise p b).red = h.red := rfl
@[simp] theorem Hw.raise_gar (h : Hw) (p b : Nat) : (h.raise p b).gar = h.gar := rfl
@[simp] theorem Hw.raise_chk (h : Hw) (p b : Nat) : (h.raise p b).chk = h.chk := rfl
@[simp] theorem Hw.raise_lastCtx (h : Hw) (p b : Nat) : (h.raise p b).lastCtx = h.lastCtx := rfl
@[simp] theorem Hw.raise_trc (h : Hw) (p b : Nat) : (h.raise p b).trc = h.trc := rfl
@[simp] theorem Hw.raise_sec (h : Hw) (p b : Nat) : (h.raise p b).sec = h.sec := rfl
@[simp] theorem Hw.raise_cmp (h : Hw) (p b : Nat) : (h.raise p b).cmp = h.cmp := rfl
@[simp] theorem Hw.raise_vrd (h : Hw) (p b : Nat) : (h.raise p b).vrd = h.vrd := rfl
@[simp] theorem Hw.raise_opt (h : Hw) (p b : Nat) : (h.raise p b).opt = h.opt := rfl
@[simp] theorem Hw.raise_hlt (h : Hw) (p b : Nat) : (h.raise p b).hlt = h.hlt := rfl
@[simp] theorem Hw.raise_agt (h : Hw) (p b : Nat) : (h.raise p b).agt = h.agt := rfl
@[simp] theorem Hw.raise_pol (h : Hw) (p b : Nat) : (h.raise p b).pol = h.pol := rfl
@[simp] theorem Hw.raise_shp (h : Hw) (p b : Nat) : (h.raise p b).shp = h.shp := rfl
@[simp] theorem Hw.raise_upd (h : Hw) (p b : Nat) : (h.raise p b).upd = h.upd := rfl
@[simp] theorem Hw.accepted_prof (h : Hw) (p : Nat) : (h.accepted p).prof = h.prof := rfl
@[simp] theorem Hw.accepted_frc (h : Hw) (p : Nat) : (h.accepted p).frc = h.frc := rfl
@[simp] theorem Hw.accepted_freeCtr (h : Hw) (p : Nat) : (h.accepted p).freeCtr = h.freeCtr := rfl
@[simp] theorem Hw.accepted_rsp (h : Hw) (p : Nat) : (h.accepted p).rsp = h.rsp := rfl
@[simp] theorem Hw.accepted_latches (h : Hw) (p : Nat) : (h.accepted p).latches = h.latches := rfl
@[simp] theorem Hw.accepted_out (h : Hw) (p : Nat) : (h.accepted p).out = h.out := rfl
@[simp] theorem Hw.accepted_claims (h : Hw) (p : Nat) : (h.accepted p).claims = h.claims := rfl
@[simp] theorem Hw.accepted_dma (h : Hw) (p : Nat) : (h.accepted p).dma = h.dma := rfl
@[simp] theorem Hw.accepted_dmaNext (h : Hw) (p : Nat) : (h.accepted p).dmaNext = h.dmaNext := rfl
@[simp] theorem Hw.accepted_queues (h : Hw) (p : Nat) : (h.accepted p).queues = h.queues := rfl
@[simp] theorem Hw.accepted_passes (h : Hw) (p : Nat) : (h.accepted p).passes = h.passes := rfl
@[simp] theorem Hw.accepted_keys (h : Hw) (p : Nat) : (h.accepted p).keys = h.keys := rfl
@[simp] theorem Hw.accepted_aborts (h : Hw) (p : Nat) : (h.accepted p).aborts = h.aborts := rfl
@[simp] theorem Hw.accepted_overruns (h : Hw) (p : Nat) : (h.accepted p).overruns = h.overruns := rfl
@[simp] theorem Hw.accepted_pwr (h : Hw) (p : Nat) : (h.accepted p).pwr = h.pwr := rfl
@[simp] theorem Hw.accepted_evr (h : Hw) (p : Nat) : (h.accepted p).evr = h.evr := rfl
@[simp] theorem Hw.accepted_saf (h : Hw) (p : Nat) : (h.accepted p).saf = h.saf := rfl
@[simp] theorem Hw.accepted_tim (h : Hw) (p : Nat) : (h.accepted p).tim = h.tim := rfl
@[simp] theorem Hw.accepted_ptp (h : Hw) (p : Nat) : (h.accepted p).ptp = h.ptp := rfl
@[simp] theorem Hw.accepted_stp (h : Hw) (p : Nat) : (h.accepted p).stp = h.stp := rfl
@[simp] theorem Hw.accepted_cnt (h : Hw) (p : Nat) : (h.accepted p).cnt = h.cnt := rfl
@[simp] theorem Hw.accepted_prx (h : Hw) (p : Nat) : (h.accepted p).prx = h.prx := rfl
@[simp] theorem Hw.accepted_flw (h : Hw) (p : Nat) : (h.accepted p).flw = h.flw := rfl
@[simp] theorem Hw.accepted_fab (h : Hw) (p : Nat) : (h.accepted p).fab = h.fab := rfl
@[simp] theorem Hw.accepted_red (h : Hw) (p : Nat) : (h.accepted p).red = h.red := rfl
@[simp] theorem Hw.accepted_gar (h : Hw) (p : Nat) : (h.accepted p).gar = h.gar := rfl
@[simp] theorem Hw.accepted_chk (h : Hw) (p : Nat) : (h.accepted p).chk = h.chk := rfl
@[simp] theorem Hw.accepted_lastCtx (h : Hw) (p : Nat) : (h.accepted p).lastCtx = h.lastCtx := rfl
@[simp] theorem Hw.accepted_trc (h : Hw) (p : Nat) : (h.accepted p).trc = h.trc := rfl
@[simp] theorem Hw.accepted_sec (h : Hw) (p : Nat) : (h.accepted p).sec = h.sec := rfl
@[simp] theorem Hw.accepted_cmp (h : Hw) (p : Nat) : (h.accepted p).cmp = h.cmp := rfl
@[simp] theorem Hw.accepted_vrd (h : Hw) (p : Nat) : (h.accepted p).vrd = h.vrd := rfl
@[simp] theorem Hw.accepted_opt (h : Hw) (p : Nat) : (h.accepted p).opt = h.opt := rfl
@[simp] theorem Hw.accepted_hlt (h : Hw) (p : Nat) : (h.accepted p).hlt = h.hlt := rfl
@[simp] theorem Hw.accepted_agt (h : Hw) (p : Nat) : (h.accepted p).agt = h.agt := rfl
@[simp] theorem Hw.accepted_pol (h : Hw) (p : Nat) : (h.accepted p).pol = h.pol := rfl
@[simp] theorem Hw.accepted_shp (h : Hw) (p : Nat) : (h.accepted p).shp = h.shp := rfl
@[simp] theorem Hw.accepted_upd (h : Hw) (p : Nat) : (h.accepted p).upd = h.upd := rfl
@[simp] theorem Hw.setState_prof (h : Hw) (p st : Nat) : (h.setState p st).prof = h.prof := by obtain ⟨b, e⟩ := h.setState_only p st; rw [e]
@[simp] theorem Hw.setState_frc (h : Hw) (p st : Nat) : (h.setState p st).frc = h.frc := by obtain ⟨b, e⟩ := h.setState_only p st; rw [e]
@[simp] theorem Hw.setState_freeCtr (h : Hw) (p st : Nat) : (h.setState p st).freeCtr = h.freeCtr := by obtain ⟨b, e⟩ := h.setState_only p st; rw [e]
@[simp] theorem Hw.setState_rsp (h : Hw) (p st : Nat) : (h.setState p st).rsp = h.rsp := by obtain ⟨b, e⟩ := h.setState_only p st; rw [e]
@[simp] theorem Hw.setState_latches (h : Hw) (p st : Nat) : (h.setState p st).latches = h.latches := by obtain ⟨b, e⟩ := h.setState_only p st; rw [e]
@[simp] theorem Hw.setState_out (h : Hw) (p st : Nat) : (h.setState p st).out = h.out := by obtain ⟨b, e⟩ := h.setState_only p st; rw [e]
@[simp] theorem Hw.setState_claims (h : Hw) (p st : Nat) : (h.setState p st).claims = h.claims := by obtain ⟨b, e⟩ := h.setState_only p st; rw [e]
@[simp] theorem Hw.setState_dma (h : Hw) (p st : Nat) : (h.setState p st).dma = h.dma := by obtain ⟨b, e⟩ := h.setState_only p st; rw [e]
@[simp] theorem Hw.setState_dmaNext (h : Hw) (p st : Nat) : (h.setState p st).dmaNext = h.dmaNext := by obtain ⟨b, e⟩ := h.setState_only p st; rw [e]
@[simp] theorem Hw.setState_queues (h : Hw) (p st : Nat) : (h.setState p st).queues = h.queues := by obtain ⟨b, e⟩ := h.setState_only p st; rw [e]
@[simp] theorem Hw.setState_passes (h : Hw) (p st : Nat) : (h.setState p st).passes = h.passes := by obtain ⟨b, e⟩ := h.setState_only p st; rw [e]
@[simp] theorem Hw.setState_keys (h : Hw) (p st : Nat) : (h.setState p st).keys = h.keys := by obtain ⟨b, e⟩ := h.setState_only p st; rw [e]
@[simp] theorem Hw.setState_aborts (h : Hw) (p st : Nat) : (h.setState p st).aborts = h.aborts := by obtain ⟨b, e⟩ := h.setState_only p st; rw [e]
@[simp] theorem Hw.setState_overruns (h : Hw) (p st : Nat) : (h.setState p st).overruns = h.overruns := by obtain ⟨b, e⟩ := h.setState_only p st; rw [e]
@[simp] theorem Hw.setState_pwr (h : Hw) (p st : Nat) : (h.setState p st).pwr = h.pwr := by obtain ⟨b, e⟩ := h.setState_only p st; rw [e]
@[simp] theorem Hw.setState_evr (h : Hw) (p st : Nat) : (h.setState p st).evr = h.evr := by obtain ⟨b, e⟩ := h.setState_only p st; rw [e]
@[simp] theorem Hw.setState_saf (h : Hw) (p st : Nat) : (h.setState p st).saf = h.saf := by obtain ⟨b, e⟩ := h.setState_only p st; rw [e]
@[simp] theorem Hw.setState_tim (h : Hw) (p st : Nat) : (h.setState p st).tim = h.tim := by obtain ⟨b, e⟩ := h.setState_only p st; rw [e]
@[simp] theorem Hw.setState_ptp (h : Hw) (p st : Nat) : (h.setState p st).ptp = h.ptp := by obtain ⟨b, e⟩ := h.setState_only p st; rw [e]
@[simp] theorem Hw.setState_stp (h : Hw) (p st : Nat) : (h.setState p st).stp = h.stp := by obtain ⟨b, e⟩ := h.setState_only p st; rw [e]
@[simp] theorem Hw.setState_cnt (h : Hw) (p st : Nat) : (h.setState p st).cnt = h.cnt := by obtain ⟨b, e⟩ := h.setState_only p st; rw [e]
@[simp] theorem Hw.setState_prx (h : Hw) (p st : Nat) : (h.setState p st).prx = h.prx := by obtain ⟨b, e⟩ := h.setState_only p st; rw [e]
@[simp] theorem Hw.setState_flw (h : Hw) (p st : Nat) : (h.setState p st).flw = h.flw := by obtain ⟨b, e⟩ := h.setState_only p st; rw [e]
@[simp] theorem Hw.setState_fab (h : Hw) (p st : Nat) : (h.setState p st).fab = h.fab := by obtain ⟨b, e⟩ := h.setState_only p st; rw [e]
@[simp] theorem Hw.setState_red (h : Hw) (p st : Nat) : (h.setState p st).red = h.red := by obtain ⟨b, e⟩ := h.setState_only p st; rw [e]
@[simp] theorem Hw.setState_gar (h : Hw) (p st : Nat) : (h.setState p st).gar = h.gar := by obtain ⟨b, e⟩ := h.setState_only p st; rw [e]
@[simp] theorem Hw.setState_chk (h : Hw) (p st : Nat) : (h.setState p st).chk = h.chk := by obtain ⟨b, e⟩ := h.setState_only p st; rw [e]
@[simp] theorem Hw.setState_lastCtx (h : Hw) (p st : Nat) : (h.setState p st).lastCtx = h.lastCtx := by obtain ⟨b, e⟩ := h.setState_only p st; rw [e]
@[simp] theorem Hw.setState_sec (h : Hw) (p st : Nat) : (h.setState p st).sec = h.sec := by obtain ⟨b, e⟩ := h.setState_only p st; rw [e]
@[simp] theorem Hw.setState_cmp (h : Hw) (p st : Nat) : (h.setState p st).cmp = h.cmp := by obtain ⟨b, e⟩ := h.setState_only p st; rw [e]
@[simp] theorem Hw.setState_vrd (h : Hw) (p st : Nat) : (h.setState p st).vrd = h.vrd := by obtain ⟨b, e⟩ := h.setState_only p st; rw [e]
@[simp] theorem Hw.setState_opt (h : Hw) (p st : Nat) : (h.setState p st).opt = h.opt := by obtain ⟨b, e⟩ := h.setState_only p st; rw [e]
@[simp] theorem Hw.setState_hlt (h : Hw) (p st : Nat) : (h.setState p st).hlt = h.hlt := by obtain ⟨b, e⟩ := h.setState_only p st; rw [e]
@[simp] theorem Hw.setState_agt (h : Hw) (p st : Nat) : (h.setState p st).agt = h.agt := by obtain ⟨b, e⟩ := h.setState_only p st; rw [e]
@[simp] theorem Hw.setState_pol (h : Hw) (p st : Nat) : (h.setState p st).pol = h.pol := by obtain ⟨b, e⟩ := h.setState_only p st; rw [e]
@[simp] theorem Hw.setState_shp (h : Hw) (p st : Nat) : (h.setState p st).shp = h.shp := by obtain ⟨b, e⟩ := h.setState_only p st; rw [e]
@[simp] theorem Hw.setState_upd (h : Hw) (p st : Nat) : (h.setState p st).upd = h.upd := by obtain ⟨b, e⟩ := h.setState_only p st; rw [e]

/-! ### The event log (R487–R491) -/

/-- The two differ in registers and in the event recorder alone. -/
def Hw.OnlyLog (h t : Hw) : Prop := t = { h with regs := t.regs, sets := t.sets, evr := t.evr }

theorem Hw.OnlyLog.trans {a b c : Hw} (h : a.OnlyLog b) (k : b.OnlyLog c) : a.OnlyLog c := by
  unfold Hw.OnlyLog at *
  rw [k, h]

theorem Hw.OnlyRegs.log {a b : Hw} (h : a.OnlyRegs b) : a.OnlyLog b := by
  unfold Hw.OnlyRegs at h
  unfold Hw.OnlyLog
  rw [h]

theorem Hw.showRing_only (h : Hw) : h.OnlyRegs h.showRing := by
  unfold Hw.showRing
  simp only
  cases h.evr.ring.head? <;> cases h.evr.ring.getLast? <;> rfl

/-- Recording an event changes registers and the event recorder alone. -/
theorem Hw.event_only (h : Hw) (code sev : Nat) (payload : List Nat) : h.OnlyLog (h.event code sev payload) := by
  unfold Hw.event Hw.eventAs
  have hrec : ∀ host, h.OnlyLog (Hw.eventAs.record h host code sev payload) := by
    intro host
    unfold Hw.eventAs.record
    simp only
    refine Hw.OnlyLog.trans ?_ (Hw.showRing_only _).log
    refine Hw.OnlyLog.trans ?_ (Hw.raise_only _ _ _).log
    refine Hw.OnlyLog.trans ?_ (Hw.OnlyRegs.ite (Hw.OnlyRegs.refl _) (Hw.raise_only _ _ _)).log
    refine Hw.OnlyLog.trans ?_ (Hw.add_only _ _ _).log
    refine Hw.OnlyLog.trans ?_ (Hw.add_only _ _ _).log
    rfl
  split
  · rfl
  · split
    · split
      · refine Hw.OnlyLog.trans ?_ (Hw.showRing_only _).log
        rfl
      · exact hrec _
    · exact hrec _


@[simp] theorem Hw.event_prof (h : Hw) (code sev : Nat) (payload : List Nat) : (h.event code sev payload).prof = h.prof := by have e := h.event_only code sev payload; unfold Hw.OnlyLog at e; rw [e]
@[simp] theorem Hw.event_frc (h : Hw) (code sev : Nat) (payload : List Nat) : (h.event code sev payload).frc = h.frc := by have e := h.event_only code sev payload; unfold Hw.OnlyLog at e; rw [e]
@[simp] theorem Hw.event_freeCtr (h : Hw) (code sev : Nat) (payload : List Nat) : (h.event code sev payload).freeCtr = h.freeCtr := by have e := h.event_only code sev payload; unfold Hw.OnlyLog at e; rw [e]
@[simp] theorem Hw.event_rsp (h : Hw) (code sev : Nat) (payload : List Nat) : (h.event code sev payload).rsp = h.rsp := by have e := h.event_only code sev payload; unfold Hw.OnlyLog at e; rw [e]
@[simp] theorem Hw.event_latches (h : Hw) (code sev : Nat) (payload : List Nat) : (h.event code sev payload).latches = h.latches := by have e := h.event_only code sev payload; unfold Hw.OnlyLog at e; rw [e]
@[simp] theorem Hw.event_out (h : Hw) (code sev : Nat) (payload : List Nat) : (h.event code sev payload).out = h.out := by have e := h.event_only code sev payload; unfold Hw.OnlyLog at e; rw [e]
@[simp] theorem Hw.event_claims (h : Hw) (code sev : Nat) (payload : List Nat) : (h.event code sev payload).claims = h.claims := by have e := h.event_only code sev payload; unfold Hw.OnlyLog at e; rw [e]
@[simp] theorem Hw.event_dma (h : Hw) (code sev : Nat) (payload : List Nat) : (h.event code sev payload).dma = h.dma := by have e := h.event_only code sev payload; unfold Hw.OnlyLog at e; rw [e]
@[simp] theorem Hw.event_dmaNext (h : Hw) (code sev : Nat) (payload : List Nat) : (h.event code sev payload).dmaNext = h.dmaNext := by have e := h.event_only code sev payload; unfold Hw.OnlyLog at e; rw [e]
@[simp] theorem Hw.event_queues (h : Hw) (code sev : Nat) (payload : List Nat) : (h.event code sev payload).queues = h.queues := by have e := h.event_only code sev payload; unfold Hw.OnlyLog at e; rw [e]
@[simp] theorem Hw.event_passes (h : Hw) (code sev : Nat) (payload : List Nat) : (h.event code sev payload).passes = h.passes := by have e := h.event_only code sev payload; unfold Hw.OnlyLog at e; rw [e]
@[simp] theorem Hw.event_keys (h : Hw) (code sev : Nat) (payload : List Nat) : (h.event code sev payload).keys = h.keys := by have e := h.event_only code sev payload; unfold Hw.OnlyLog at e; rw [e]
@[simp] theorem Hw.event_aborts (h : Hw) (code sev : Nat) (payload : List Nat) : (h.event code sev payload).aborts = h.aborts := by have e := h.event_only code sev payload; unfold Hw.OnlyLog at e; rw [e]
@[simp] theorem Hw.event_overruns (h : Hw) (code sev : Nat) (payload : List Nat) : (h.event code sev payload).overruns = h.overruns := by have e := h.event_only code sev payload; unfold Hw.OnlyLog at e; rw [e]
@[simp] theorem Hw.event_pwr (h : Hw) (code sev : Nat) (payload : List Nat) : (h.event code sev payload).pwr = h.pwr := by have e := h.event_only code sev payload; unfold Hw.OnlyLog at e; rw [e]
@[simp] theorem Hw.event_saf (h : Hw) (code sev : Nat) (payload : List Nat) : (h.event code sev payload).saf = h.saf := by have e := h.event_only code sev payload; unfold Hw.OnlyLog at e; rw [e]
@[simp] theorem Hw.event_tim (h : Hw) (code sev : Nat) (payload : List Nat) : (h.event code sev payload).tim = h.tim := by have e := h.event_only code sev payload; unfold Hw.OnlyLog at e; rw [e]
@[simp] theorem Hw.event_ptp (h : Hw) (code sev : Nat) (payload : List Nat) : (h.event code sev payload).ptp = h.ptp := by have e := h.event_only code sev payload; unfold Hw.OnlyLog at e; rw [e]
@[simp] theorem Hw.event_stp (h : Hw) (code sev : Nat) (payload : List Nat) : (h.event code sev payload).stp = h.stp := by have e := h.event_only code sev payload; unfold Hw.OnlyLog at e; rw [e]
@[simp] theorem Hw.event_cnt (h : Hw) (code sev : Nat) (payload : List Nat) : (h.event code sev payload).cnt = h.cnt := by have e := h.event_only code sev payload; unfold Hw.OnlyLog at e; rw [e]
@[simp] theorem Hw.event_prx (h : Hw) (code sev : Nat) (payload : List Nat) : (h.event code sev payload).prx = h.prx := by have e := h.event_only code sev payload; unfold Hw.OnlyLog at e; rw [e]
@[simp] theorem Hw.event_flw (h : Hw) (code sev : Nat) (payload : List Nat) : (h.event code sev payload).flw = h.flw := by have e := h.event_only code sev payload; unfold Hw.OnlyLog at e; rw [e]
@[simp] theorem Hw.event_fab (h : Hw) (code sev : Nat) (payload : List Nat) : (h.event code sev payload).fab = h.fab := by have e := h.event_only code sev payload; unfold Hw.OnlyLog at e; rw [e]
@[simp] theorem Hw.event_red (h : Hw) (code sev : Nat) (payload : List Nat) : (h.event code sev payload).red = h.red := by have e := h.event_only code sev payload; unfold Hw.OnlyLog at e; rw [e]
@[simp] theorem Hw.event_gar (h : Hw) (code sev : Nat) (payload : List Nat) : (h.event code sev payload).gar = h.gar := by have e := h.event_only code sev payload; unfold Hw.OnlyLog at e; rw [e]
@[simp] theorem Hw.event_chk (h : Hw) (code sev : Nat) (payload : List Nat) : (h.event code sev payload).chk = h.chk := by have e := h.event_only code sev payload; unfold Hw.OnlyLog at e; rw [e]
@[simp] theorem Hw.event_lastCtx (h : Hw) (code sev : Nat) (payload : List Nat) : (h.event code sev payload).lastCtx = h.lastCtx := by have e := h.event_only code sev payload; unfold Hw.OnlyLog at e; rw [e]
@[simp] theorem Hw.event_trc (h : Hw) (code sev : Nat) (payload : List Nat) : (h.event code sev payload).trc = h.trc := by have e := h.event_only code sev payload; unfold Hw.OnlyLog at e; rw [e]
@[simp] theorem Hw.event_sec (h : Hw) (code sev : Nat) (payload : List Nat) : (h.event code sev payload).sec = h.sec := by have e := h.event_only code sev payload; unfold Hw.OnlyLog at e; rw [e]
@[simp] theorem Hw.event_cmp (h : Hw) (code sev : Nat) (payload : List Nat) : (h.event code sev payload).cmp = h.cmp := by have e := h.event_only code sev payload; unfold Hw.OnlyLog at e; rw [e]
@[simp] theorem Hw.event_vrd (h : Hw) (code sev : Nat) (payload : List Nat) : (h.event code sev payload).vrd = h.vrd := by have e := h.event_only code sev payload; unfold Hw.OnlyLog at e; rw [e]
@[simp] theorem Hw.event_opt (h : Hw) (code sev : Nat) (payload : List Nat) : (h.event code sev payload).opt = h.opt := by have e := h.event_only code sev payload; unfold Hw.OnlyLog at e; rw [e]
@[simp] theorem Hw.event_hlt (h : Hw) (code sev : Nat) (payload : List Nat) : (h.event code sev payload).hlt = h.hlt := by have e := h.event_only code sev payload; unfold Hw.OnlyLog at e; rw [e]
@[simp] theorem Hw.event_agt (h : Hw) (code sev : Nat) (payload : List Nat) : (h.event code sev payload).agt = h.agt := by have e := h.event_only code sev payload; unfold Hw.OnlyLog at e; rw [e]
@[simp] theorem Hw.event_pol (h : Hw) (code sev : Nat) (payload : List Nat) : (h.event code sev payload).pol = h.pol := by have e := h.event_only code sev payload; unfold Hw.OnlyLog at e; rw [e]
@[simp] theorem Hw.event_shp (h : Hw) (code sev : Nat) (payload : List Nat) : (h.event code sev payload).shp = h.shp := by have e := h.event_only code sev payload; unfold Hw.OnlyLog at e; rw [e]
@[simp] theorem Hw.event_upd (h : Hw) (code sev : Nat) (payload : List Nat) : (h.event code sev payload).upd = h.upd := by have e := h.event_only code sev payload; unfold Hw.OnlyLog at e; rw [e]

/-- The registers that recording an event may change: those that show the log, and FUNC_IRQ of the EVR page. -/
def logFields : List Field :=
  [R.EVR_ENTRIES_COUNT, R.EVR_UNMIRRORED_COUNT, R.EVR_OLDEST_OFF, R.EVR_NEWEST_OFF, R.EVR_NEWEST_SEQ_SEQ, R.EVR_OVERWRITTEN_COUNT,
   R.EVR_MIRROR_LOST_COUNT, R.PAGE_IRQ_STAT_FUNC_IRQ 0x4C]

theorem Hw.showRing_same (h : Hw) : h.SameBut h.showRing logFields := by
  unfold Hw.showRing
  simp only
  have h2 : h.SameBut ((h.s R.EVR_ENTRIES_COUNT h.evr.ring.length).s R.EVR_UNMIRRORED_COUNT
      (h.evr.ring.filter fun e => e.closed && !e.mirrored).length) logFields :=
    Hw.SameBut.write _ (Hw.SameBut.write _ (Hw.SameBut.refl _ _) (by simp [logFields])) (by simp [logFields])
  cases h.evr.ring.head? <;> cases h.evr.ring.getLast? <;> simp only
  · exact h2
  · exact Hw.SameBut.write _ (Hw.SameBut.write _ h2 (by simp [logFields])) (by simp [logFields])
  · exact Hw.SameBut.write _ h2 (by simp [logFields])
  · exact Hw.SameBut.write _ (Hw.SameBut.write _ (Hw.SameBut.write _ h2 (by simp [logFields])) (by simp [logFields])) (by simp [logFields])

theorem Hw.event_same (h : Hw) (code sev : Nat) (payload : List Nat) : h.SameBut (h.event code sev payload) logFields := by
  unfold Hw.event Hw.eventAs
  have hrec : ∀ host, h.SameBut (Hw.eventAs.record h host code sev payload) logFields := by
    intro host
    unfold Hw.eventAs.record
    simp only
    refine Hw.SameBut.trans ?_ (Hw.showRing_same _)
    refine Hw.SameBut.trans ?_ ((Hw.raise_same _ _ _).mono (by simp [logFields]))
    refine Hw.SameBut.trans ?_ (Hw.SameBut.ite (Hw.SameBut.refl _ _) ((Hw.raise_same _ _ _).mono (by simp [logFields])))
    refine Hw.SameBut.write _ ?_ (by simp [logFields])
    refine Hw.SameBut.write _ ?_ (by simp [logFields])
    exact (Hw.SameBut.refl h _).of_regs rfl
  split
  · exact Hw.SameBut.refl _ _
  · split
    · split
      · exact Hw.SameBut.trans ((Hw.SameBut.refl h _).of_regs rfl) (Hw.showRing_same _)
      · exact hrec _
    · exact hrec _

/-! ### Host accesses -/

/-- An operator's write that reaches its register does what its rule says, and is refused or accepted as a whole (R82, R83). -/
theorem Hw.operWrite_reach {h : Hw} {a : Acc} {p off : Nat} {f : Hw → Tried} (hr : h.Reach a p off) :
    h.operWrite a p off f = (h.reply 0).finish p (f (h.reply 0)) := by
  obtain ⟨ho, hp, hq⟩ := hr
  simp [Hw.operWrite, Hw.operAccess, Hw.admits, ho, hp, hq]

theorem Hw.operAccess_reach {h : Hw} {a : Acc} {p off : Nat} {f : Hw → Hw} (hr : h.Reach a p off) :
    h.operAccess a p off f = f (h.reply 0) := by
  obtain ⟨ho, hp, hq⟩ := hr
  simp [Hw.operAccess, Hw.admits, ho, hp, hq]

theorem Hw.access_reach {h : Hw} {a : Acc} {p off : Nat} {also : Bool} {f : Hw → Hw} (hr : h.Reach a p off) :
    h.access a p off also f = f (h.reply 0) := by
  obtain ⟨ho, hp, hq⟩ := hr
  simp [Hw.access, Hw.admits, ho, hp, hq]

/-- An access to a mailbox that reaches it is answered by what its rule says (R501). -/
theorem Hw.access_mbx {h : Hw} {a : Acc} {m off : Nat} {f : Hw → Hw} (hr : Hw.MbxReach h a m off) :
    h.access a 0x4D (mbxOff m off) (h.ownsMbx a m) f = f (h.reply 0) := by
  obtain ⟨h1, h2, h3, h4⟩ := hr
  simp only [Hw.access, h1, h2, h3, h4, Bool.not_true, Bool.false_eq_true, if_false, if_true]

theorem Hw.hostWrite_reach {h : Hw} {a : Acc} {p off : Nat} {also : Bool} {f : Hw → Tried} (hr : h.Reach a p off) :
    h.hostWrite a p off also f = (h.reply 0).finish p (f (h.reply 0)) := by
  simp only [Hw.hostWrite, Hw.access_reach hr]

theorem Hw.reach_quiet {h : Hw} {a : Acc} {p off : Nat} (hr : h.Reach a p off) : Hw.Reach { h with out := [] } a p off := hr

end Sys2Proof.Machine
end

