-- ==== Sys2Proof/Laws/Memory.lean ====
section
/-!
SUPPORT. Laws/Memory.lean: reading the memory after a write, and that every memory operation keeps the canonical form.
-/
namespace Sys2Proof.Machine

theorem Memory.above_trans {a k : Nat} {m : List Host.Cell} (hak : a < k) (h : Memory.above k m = true) : Memory.above a m = true := by
  cases m with
  | nil => rfl
  | cons e t => obtain ⟨j, b⟩ := e; simp only [Memory.above, decide_eq_true_eq] at *; omega

theorem Memory.above_write {k a : Nat} {b : BitVec 8} {m : List Host.Cell} (hka : k < a) (h : Memory.above k m = true) (hw : Memory.wf m = true) :
    Memory.above k (Memory.write m a b) = true := by
  cases m with
  | nil => unfold Memory.write; split <;> simp [Memory.above, hka]
  | cons e t =>
    obtain ⟨j, c⟩ := e
    simp only [Memory.above, decide_eq_true_eq] at h
    simp only [Memory.wf, Bool.and_eq_true] at hw
    unfold Memory.write
    split
    · split
      · exact Memory.above_trans h hw.1.2
      · simp [Memory.above, hka]
    · split
      · split
        · simp [Memory.above, h]
        · simp [Memory.above, hka]
      · simp [Memory.above, h]

/-- A write of one byte keeps the canonical form. -/
theorem Memory.wf_write {m : List Host.Cell} (a : Nat) (b : BitVec 8) (h : Memory.wf m = true) : Memory.wf (Memory.write m a b) = true := by
  induction m with
  | nil => unfold Memory.write; split <;> simp_all [Memory.wf, Memory.above]
  | cons e t ih =>
    obtain ⟨j, c⟩ := e
    simp only [Memory.wf, Bool.and_eq_true] at h
    unfold Memory.write
    split
    · split
      · exact h.2
      · rename_i hja hb
        subst hja
        simp [Memory.wf, hb, h.1.2, h.2]
    · split
      · split
        · simp [Memory.wf, h.1.1, h.1.2, h.2]
        · rename_i haj hb
          have hab : Memory.above a ((j, c) :: t) = true := by simp [Memory.above, haj]
          have htail : Memory.wf ((j, c) :: t) = true := by simp only [Memory.wf, Bool.and_eq_true]; exact h
          have hb' : (b != Memory.blank) = true := by simp [hb]
          show ((b != Memory.blank) && Memory.above a ((j, c) :: t) && Memory.wf ((j, c) :: t)) = true
          rw [hb', hab, htail]; rfl
      · rename_i hja haj
        have hlt : j < a := by omega
        simp only [Memory.wf, Bool.and_eq_true]
        exact ⟨⟨h.1.1, Memory.above_write hlt h.1.2 h.2⟩, ih h.2⟩

/-- A write of any number of bytes keeps the canonical form. -/
theorem Memory.wf_writeBytes (bs : List Nat) : ∀ {m : List Host.Cell} (a : Nat), Memory.wf m = true →
    Memory.wf (Memory.writeBytes m a bs) = true := by
  induction bs with
  | nil => intro m a h; exact h
  | cons b t ih => intro m a h; exact ih (a + 1) (Memory.wf_write _ _ h)

theorem Memory.read_above {a k : Nat} {m : List Host.Cell} (hak : a ≤ k) (h : Memory.above k m = true) : Memory.read m a = Memory.blank := by
  cases m with
  | nil => rfl
  | cons e t =>
    obtain ⟨j, c⟩ := e
    simp only [Memory.above, decide_eq_true_eq] at h
    have h1 : j ≠ a := by omega
    have h2 : a < j := by omega
    simp [Memory.read, h1, h2]

/-- A byte reads as what was written to it. -/
theorem Memory.read_write_self {m : List Host.Cell} (a : Nat) (b : BitVec 8) (h : Memory.wf m = true) : Memory.read (Memory.write m a b) a = b := by
  induction m with
  | nil => unfold Memory.write; split <;> simp_all [Memory.read]
  | cons e t ih =>
    obtain ⟨j, c⟩ := e
    simp only [Memory.wf, Bool.and_eq_true] at h
    unfold Memory.write
    split
    · rename_i hja
      subst hja
      split
      · rename_i hb; rw [hb]; exact Memory.read_above (Nat.le_refl _) h.1.2
      · simp [Memory.read]
    · split
      · rename_i hja haj
        split
        · rename_i hb; simp [Memory.read, hja, haj, hb]
        · simp [Memory.read]
      · rename_i hja haj
        simp [Memory.read, hja, haj, ih h.2]

/-- A write leaves every other byte as it was. -/
theorem Memory.read_write_ne {m : List Host.Cell} {a x : Nat} (b : BitVec 8) (hx : a ≠ x) (h : Memory.wf m = true) :
    Memory.read (Memory.write m a b) x = Memory.read m x := by
  induction m with
  | nil => unfold Memory.write; split <;> simp_all [Memory.read]
  | cons e t ih =>
    obtain ⟨j, c⟩ := e
    simp only [Memory.wf, Bool.and_eq_true] at h
    unfold Memory.write
    split
    · rename_i hja
      subst hja
      split
      · by_cases hlt : x < j
        · rw [Memory.read_above (Nat.le_of_lt hlt) h.1.2]; simp [Memory.read, hx, hlt]
        · simp [Memory.read, hx, hlt]
      · simp [Memory.read, hx]
    · split
      · rename_i hja haj
        split
        · rfl
        · by_cases hlt : x < a
          · have h1 : j ≠ x := by omega
            have h2 : x < j := by omega
            simp [Memory.read, hx, hlt, h1, h2]
          · simp [Memory.read, hx, hlt]
      · simp only [Memory.read, ih h.2]

/-- Reset memory is in canonical form. -/
theorem reset_memory_wf : Memory.wf State.reset.mem = true := rfl

end Sys2Proof.Machine
end

