-- ==== Sys2Proof/Laws/Claims.lean ====
section
/-!
SUPPORT. Laws/Claims.lean: how a command is shown to complete, and the lemmas of the shared operations that several claims cite.
-/
namespace Sys2Proof.Machine

/-- A command that runs `f` completes with what `f` leaves, its profile and FRC put back. -/
theorem Completes.of_go {c : Instr} {s : State} {P : Hw → Prop} (f : Hw → Hw) (h : exec c s = s.go f) (hp : P ({ f { s.hw with out := [] } with prof := s.hw.prof, frc := s.hw.frc })) :
    Completes c s P := ⟨s.on f, h, hp, rfl, rfl⟩

/-- A command of the reset pin completes with what `f` leaves. -/
theorem Completes.of_clocked {c : Instr} {s : State} {P : Hw → Prop} (f : Hw → Hw) (h : exec c s = .next (s.clocked f)) (hp : P ({ f { s.hw with out := [] } with prof := s.hw.prof })) :
    Completes c s P := ⟨s.clocked f, h, hp, rfl, rfl⟩

/-- As `Completes.of_go`, where what is claimed does not look at the profile and the FRC. -/
theorem Completes.of_go_keep {c : Instr} {s : State} {P : Hw → Prop} (f : Hw → Hw) (h : exec c s = s.go f)
    (hk : ∀ k : Hw, P k → P { k with prof := s.hw.prof, frc := s.hw.frc }) (hp : P (f { s.hw with out := [] })) : Completes c s P :=
  Completes.of_go f h (hk _ hp)

/-- A command that runs `f` does `F` where both agree. -/
theorem Does.of_go {c : Instr} {H : Hw → Prop} {F : Hw → Hw} (f : Hw → Hw) (h : ∀ s, exec c s = s.go f) (key : ∀ h : Hw, H h → f h = F h) :
    Does c H F := by
  intro s hs
  rw [h s]
  unfold State.go State.on
  have := key _ hs
  unfold Hw.quiet at this
  rw [this]

/-- A register outside those reset keeps its value. -/
theorem Hw.resetRegs_keep (h : Hw) (gone : Nat → Bool) {f : Field} (hf : gone f.key = false) : (h.resetRegs gone).g f = h.g f :=
  profileRegs_keep h.prof gone h.regs hf

/-- A register that is reset takes the value of its Reset column. -/
theorem Hw.resetRegs_gone (h : Hw) (gone : Nat → Bool) {f : Field} (hf : gone f.key = true) : (h.resetRegs gone).g f = (Hw.resetFor h.prof).g f :=
  profileRegs_gone h.prof gone h.regs hf

/-- The operator's write of a queue register that reaches it does what its rule says (R101). -/
theorem Hw.queueAccess_reach {h : Hw} {a : Sys2Proof.Acc} {q off : Nat} {also : Bool} {f : Hw → Tried} (hr : QueueReach h a q off) :
    h.queueAccess a q off also f = match f (h.reply 0) with | .ok h' => h'.accepted (quePage q) | .error c => (h.reply 0).queueErr q c := by
  unfold Hw.queueAccess
  have e : h.denies a (quePage q) off = false := by
    unfold Hw.denies
    rw [show (a.oper || h.tenantOwns a.ctx (quePage q)) = true from by simp [hr.1.1]]
    simp
  rw [Hw.access_reach hr.1]
  simp only [e, Bool.false_and]
  exact if_pos hr.2

/-- Sampling an alert leaves the profile. -/
theorem Hw.sampleAlert_prof (h : Hw) (a : Nat) : (h.sampleAlert a).prof = h.prof := by
  unfold Hw.sampleAlert; simp only; split <;> rfl

/-- A descriptor that starts runs its operation on the fields read. -/
theorem Hw.withDesc_starts {h : Hw} {q e op : Nat} {fields : List (Nat × Nat × Nat)} {d : DescWords} (hs : h.Starts q e op fields d)
    (f : Hw → DescWords → Hw) : h.withDesc q e op fields f = f h d := by
  obtain ⟨h1, h2, h0, h3, h4⟩ := hs
  unfold Hw.withDesc
  rw [h1]; simp only
  rw [h2, h0, h4]; simp only [h3]; simp

/-- A slot of the context that the queue acts for is its own. -/
theorem Hw.ownSlot_ok {h : Hw} {q n : Nat} {s : CmpSlot} (h1 : h.slot n = some s) (h3 : s.chan = 0) (h2 : s.ctx = h.qCtx q) : h.ownSlot q n = .ok s := by
  unfold Hw.ownSlot; simp [h1, h2, h3]

/-- What every item of a list keeps, the whole list keeps. -/
theorem Hw.each_keeps {α : Type} (P : Hw → Prop) (f : Hw → α → Hw) (hf : ∀ h x, P h → P (f h x)) : ∀ (l : List α) (h : Hw), P h → P (h.each l f)
  | [], _, k => k
  | x :: t, h, k => Hw.each_keeps P f hf t (f h x) (hf h x k)
def Kp (w key : Nat) (v : Option Latch) (h : Hw) : Prop := (h.latches.find? fun l => l.who == w && l.key == key) = v

/-- Whether an error was recorded depends on the registers alone. -/
theorem Hw.Recorded.of_regs {h h' t t' : Hw} {p c : Nat} (e1 : h'.regs = h.regs) (e2 : t'.regs = t.regs) (hr : h.Recorded t p c) : h'.Recorded t' p c := by
  unfold Hw.Recorded Hw.SameBut Hw.g at *
  rw [e1, e2]; exact hr

/-- Recording an error does what R112 says. -/
theorem Hw.err_recorded (h : Hw) (p code : Nat) (hc : code < 2 ^ 16) : h.Recorded (h.err p code) p code := by
  have k1 : (R.PAGE_ERR_FIRST p).key ≠ (R.PAGE_ERR_COUNT p).key := by unfold Field.key R.PAGE_ERR_FIRST R.PAGE_ERR_COUNT; simp only; omega
  have k2 : (R.PAGE_IRQ_STAT_ERROR p).key ≠ (R.PAGE_ERR_COUNT p).key := by
    unfold Field.key R.PAGE_IRQ_STAT_ERROR R.PAGE_ERR_COUNT; simp only; omega
  have k3 : (R.PAGE_IRQ_STAT_ERROR p).key ≠ (R.PAGE_ERR_FIRST p).key := by
    unfold Field.key R.PAGE_IRQ_STAT_ERROR R.PAGE_ERR_FIRST; simp only; omega
  refine ⟨?_, ?_, ?_, h.err_same p code⟩
  · unfold Hw.err Hw.incSat
    simp only
    rw [Hw.g_setBits_ne _ _ k3]
    generalize hk : (if h.g (R.PAGE_ERR_FIRST p) = 0 then h.s (R.PAGE_ERR_FIRST p) code else h) = k
    have e : k.g (R.PAGE_ERR_FIRST p) = (if h.g (R.PAGE_ERR_FIRST p) = 0 then code else h.g (R.PAGE_ERR_FIRST p)) := by
      rw [← hk]
      split
      · rw [Hw.g_s_self]; exact Nat.mod_eq_of_lt hc
      · rfl
    rw [← e]
    split
    · exact Hw.g_s_ne _ _ k1.symm
    · rfl
  · unfold Hw.err Hw.incSat
    simp only
    rw [Hw.g_setBits_ne _ _ k2]
    generalize hk : (if h.g (R.PAGE_ERR_FIRST p) = 0 then h.s (R.PAGE_ERR_FIRST p) code else h) = k
    have e : k.g (R.PAGE_ERR_COUNT p) = h.g (R.PAGE_ERR_COUNT p) := by
      rw [← hk]
      split
      · exact Hw.g_s_ne _ _ k1
      · rfl
    rw [e]
    have w : (R.PAGE_ERR_COUNT p).width = 16 := rfl
    rw [w]
    by_cases hh : h.g (R.PAGE_ERR_COUNT p) + 1 < 2 ^ 16
    · simp only [hh, if_true]
      rw [Hw.g_s_self, w]; omega
    · simp only [hh, if_false]; exact e
  · unfold Hw.err
    simp only
    rw [Hw.g_setBits_self]
    show (_ ||| 1) % 2 ^ 1 = 1
    rw [Nat.or_mod_two_pow]
    have : ∀ x, x < 2 → x ||| 1 = 1 := by decide
    exact this _ (Nat.mod_lt _ (by decide))

/-- A write refused with a code records it and does nothing else. -/
theorem Completes.of_refuse {c : Instr} {s : State} {p code : Nat} {f : Hw → Hw} (hc : code < 2 ^ 16) (h1 : exec c s = s.go f)
    (h2 : f { s.hw with out := [] } = (Hw.reply { s.hw with out := [] } 0).err p code) :
    Completes c s fun t => s.hw.Recorded t p code ∧ t = { s.hw.quiet with regs := t.regs, sets := t.sets, rsp := ⟨0, false⟩ } := by
  refine Completes.of_go _ h1 ?_
  rw [h2]
  refine ⟨Hw.Recorded.of_regs rfl rfl (Hw.err_recorded (Hw.reply { s.hw with out := [] } 0) p code hc), ?_⟩
  have o := Hw.err_only (Hw.reply { s.hw with out := [] } 0) p code
  unfold Hw.OnlyRegs at o
  rw [o]; rfl

/-- An access answered with a bus error and a code records it and does nothing else. -/
theorem Completes.of_deny {c : Instr} {s : State} {p code : Nat} {f : Hw → Hw} (hc : code < 2 ^ 16) (h1 : exec c s = s.go f)
    (h2 : f { s.hw with out := [] } = ((Hw.reply { s.hw with out := [] } 0).err p code).busError) :
    Completes c s fun t => s.hw.Recorded t p code ∧ t = { s.hw.quiet with regs := t.regs, sets := t.sets, rsp := ⟨0, true⟩ } := by
  refine Completes.of_go _ h1 ?_
  rw [h2]
  refine ⟨Hw.Recorded.of_regs rfl rfl (Hw.err_recorded (Hw.reply { s.hw with out := [] } 0) p code hc), ?_⟩
  have o := Hw.err_only (Hw.reply { s.hw with out := [] } 0) p code
  unfold Hw.OnlyRegs at o
  rw [o]; rfl

/-- A command that the operator alone may give runs under the operator check at its page and offset. -/
theorem operAt_go (c : Instr) (a : Sys2Proof.Acc) (p off : Nat) (h : operAt c = some (a, p, off)) :
    ∃ f : Hw → Hw, ∀ s, exec c s = s.go fun h => h.operAccess a p off f := by
  cases c <;> first | (cases h; done) | (cases h; exact ⟨_, fun _ => rfl⟩)

/-- A byte outside those written reads as before. -/
theorem Memory.writeBytes_out (bs : List Nat) : ∀ {m : List Host.Cell} (a x : Nat), Memory.wf m = true → (∀ i, i < bs.length → x ≠ (a + i) % 2 ^ 64) →
    Memory.read (Memory.writeBytes m a bs) x = Memory.read m x := by
  induction bs with
  | nil => intro m a x _ _; rfl
  | cons b t ih =>
    intro m a x h hx
    unfold Memory.writeBytes
    rw [ih (a + 1) x (Memory.wf_write _ _ h) (fun i hi => by
      have := hx (i + 1) (by simp; omega)
      rwa [show a + (i + 1) = a + 1 + i by omega] at this)]
    refine Memory.read_write_ne _ (fun e => hx 0 (by simp) ?_) h
    rw [← e]; simp

/-- A byte written reads as written. -/
theorem Memory.writeBytes_in (bs : List Nat) : ∀ {m : List Host.Cell} (a i : Nat), Memory.wf m = true → i < bs.length → bs.length ≤ 2 ^ 64 →
    Memory.read (Memory.writeBytes m a bs) ((a + i) % 2 ^ 64) = BitVec.ofNat 8 (nth bs i) := by
  induction bs with
  | nil => intro m a i _ hi; simp at hi
  | cons b t ih =>
    intro m a i h hi hl
    unfold Memory.writeBytes
    simp only [List.length_cons] at hi hl
    cases i with
    | zero =>
      rw [Memory.writeBytes_out t (a + 1) _ (Memory.wf_write _ _ h) (fun j hj => by omega)]
      exact Memory.read_write_self _ _ h
    | succ k =>
      have := ih (a + 1) k (Memory.wf_write (a % 2 ^ 64) (BitVec.ofNat 8 b) h) (by omega) (by omega)
      rw [show a + (k + 1) = a + 1 + k by omega]
      simpa [nth] using this

/-- A byte within the part taken is the byte itself. -/
theorem nth_take {l : List Nat} {n i : Nat} (h : i < n) : nth (l.take n) i = nth l i := by
  unfold nth
  simp [List.getD_eq_getElem?_getD, h]

/-- The sum of a list is its first number and the sum of the rest. -/
theorem total_cons (x : Nat) (l : List Nat) : total (x :: l) = x + total l := by
  have : ∀ (l : List Nat) a, l.foldl (· + ·) a = a + l.foldl (· + ·) 0 := by
    intro l
    induction l with
    | nil => intro a; rfl
    | cons y t ih => intro a; rw [List.foldl_cons, List.foldl_cons, ih, ih (0 + y)]; omega
  unfold total
  rw [List.foldl_cons, this, Nat.zero_add]

/-- The bursts of a transfer add up to its length (R45). -/
theorem total_bursts : ∀ n a len, a < 2 ^ 64 → len ≤ (4096 - a % 4096) + 4096 * (n - 1) → 0 < n → total ((burstsOf n a len).map fun b => b.2) = len := by
  intro n
  induction n with
  | zero => intro a len _ _ h; omega
  | succ k ih =>
    intro a len ha h _
    unfold burstsOf
    simp only
    split
    · next e =>
      simp [total]
    · next e =>
      have hk : min len (4096 - a % 4096) = 4096 - a % 4096 := by omega
      have hr := ih ((a + min len (4096 - a % 4096)) % 2 ^ 64) (len - min len (4096 - a % 4096)) (Nat.mod_lt _ (by decide)) (by rw [hk]; omega) (by omega)
      have hc : total (((a, min len (4096 - a % 4096)) :: burstsOf k ((a + min len (4096 - a % 4096)) % 2 ^ 64) (len - min len (4096 - a % 4096))).map fun b => b.2) =
          min len (4096 - a % 4096) + total ((burstsOf k ((a + min len (4096 - a % 4096)) % 2 ^ 64) (len - min len (4096 - a % 4096))).map fun b => b.2) := by
        exact total_cons _ _
      rw [hc, hr]; omega

/-- One schedule point reached in a tick acts where it is ready (R150). -/
theorem Hw.firePoints_one (h : Hw) (x : TickPoint) : h.firePoints 1 [x] = if h.pointReady x = true then h.pointActs x else h := by
  unfold Hw.firePoints
  cases e : h.pointReady x <;> simp [e, Hw.firePoints]

/-- A tick that has taken one point, and no mark, does what the point says (R150). -/
theorem Hw.tickSteps_one {h k : Hw} {x : TickPoint} (h1 : h.running 0x06 = true) (hm : h.stp.marks = []) (hx : h.stp.points = [x]) (hr : h.pointReady x = true)
    (hk : Hw.pointActs { h with stp := { h.stp with marks := [], points := [] } } x = k) : h.tickSteps = k := by
  have e : h.tickMarks = { h with stp := { h.stp with marks := [] } } := by
    unfold Hw.tickMarks; rw [hm]; rfl
  have hr' : Hw.pointReady { h with stp := { h.stp with marks := [], points := [] } } x = true := by cases x <;> exact hr
  unfold Hw.tickSteps
  simp only [e, hx]
  refine (if_pos h1).trans ?_
  refine (Hw.firePoints_one _ x).trans ?_
  rw [hr']; exact hk

/-- A tick whose one point is not ready only empties its marks and points (R150). -/
theorem Hw.tickSteps_none {h : Hw} {x : TickPoint} (h1 : h.running 0x06 = true) (hm : h.stp.marks = []) (hx : h.stp.points = [x]) (hr : h.pointReady x = false) :
    h.tickSteps = { h with stp := { h.stp with marks := [], points := [] } } := by
  have e : h.tickMarks = { h with stp := { h.stp with marks := [] } } := by
    unfold Hw.tickMarks; rw [hm]; rfl
  have hr' : Hw.pointReady { h with stp := { h.stp with marks := [], points := [] } } x = false := by cases x <;> exact hr
  unfold Hw.tickSteps
  simp only [e, hx]
  refine (if_pos h1).trans ?_
  refine (Hw.firePoints_one _ x).trans ?_
  rw [hr']; rfl

/-- A number that fits reads back from its bytes. -/
theorem ofLe_le (n : Nat) : ∀ v, v < 256 ^ n → ofLe (le n v) = v := by
  induction n with
  | zero => intro v h; simp at h; subst h; rfl
  | succ k ih =>
    intro v h
    unfold le ofLe
    rw [ih (v / 256) (by rw [pow_succ] at h; omega)]
    omega

/-- A number has as many bytes as asked for. -/
theorem le_length (n : Nat) : ∀ v, (le n v).length = n := by
  induction n with
  | zero => intro v; rfl
  | succ k ih => intro v; unfold le; simp [ih]

/-- PAGE_SEQ is no function register. -/
theorem Field.seq_key_ne {g : Field} (hg : g.fn) (p : Nat) : (R.PAGE_SEQ_SEQ p).key ≠ g.key := Field.key_ne_hdr (p := p) (by simp [Field.hdr, R.PAGE_SEQ_SEQ]) hg

/-- PAGE_IRQ_STAT is no function register. -/
theorem Field.irq_key_ne {g : Field} (hg : g.fn) (p : Nat) : (R.PAGE_IRQ_STAT_FUNC_IRQ p).key ≠ g.key :=
  Field.key_ne_hdr (p := p) (by simp [Field.hdr, R.PAGE_IRQ_STAT_FUNC_IRQ]) hg

/-- An element of a function register is a function register. -/
theorem Field.fn_at {f : Field} {i : Nat} (h : f.fn) (hi : i < 1048576) : (f.at i).fn := ⟨h.1, h.2.1, h.2.2.1, hi⟩

/-- The operator's doorbell write that reaches its register. -/
theorem Hw.bellWrite_oper {h : Hw} {a : Acc} {off half v : Nat} {f : Hw → Hw} (hr : h.Reach a 0x4D off) (hv : v < 2 ^ 32) :
    h.bellWrite a off half (v % 2 ^ 32) f = (f (h.reply 0)).accepted 0x4D := by
  have ho : h.ownBells a half = 2 ^ 32 - 1 := by unfold Hw.ownBells; rw [if_pos hr.1]
  have e : v &&& (2 ^ 32 - 1) = v := by rw [Nat.and_two_pow_sub_one_eq_mod]; exact Nat.mod_eq_of_lt hv
  rw [Nat.mod_eq_of_lt hv]
  unfold Hw.bellWrite
  rw [ho]
  simp only []
  rw [Hw.access_reach hr, if_pos e]

/-- Recording a choice (R281) leaves every register but those of the choice counters and the interrupt. -/
theorem Hw.choice_g (h : Hw) (c : Nat) (f : Field) (hf : ∀ g ∈ [R.ND_TOTAL_LO_COUNT, R.ND_TOTAL_HI_COUNT, R.ND_LAST_CAUSE, R.ND_LAST_FRC_LO_FRC, R.ND_LAST_FRC_HI_FRC,
    R.ND_CNT_COUNT.at c, R.PAGE_IRQ_STAT_FUNC_IRQ 0x13], f.key ≠ g.key) : (h.choice c).g f = h.g f := by
  simp only [List.mem_cons, List.not_mem_nil, or_false, forall_eq_or_imp, forall_eq] at hf
  obtain ⟨h1, h2, h3, h4, h5, h6, h7⟩ := hf
  unfold Hw.choice Hw.raise Hw.incSat Hw.add64 Hw.s64
  simp only
  rw [Hw.g_setBits_ne _ _ h7.symm]
  split <;> simp only [Hw.g_s_ne _ _ h1.symm, Hw.g_s_ne _ _ h2.symm, Hw.g_s_ne _ _ h3.symm, Hw.g_s_ne _ _ h4.symm, Hw.g_s_ne _ _ h5.symm, Hw.g_s_ne _ _ h6.symm]

/-- Recording a choice (R281) changes registers alone. -/
theorem Hw.choice_eq (h : Hw) (c : Nat) : h.choice c = { h with regs := (h.choice c).regs, sets := (h.choice c).sets } := by
  unfold Hw.choice Hw.raise Hw.incSat Hw.add64 Hw.s64
  simp only [Hw.setBits]
  split <;> rfl

/-- Storing an entry changes the registers that show it and the count of withheld ones. -/
theorem Hw.putEntry_same (h : Hw) (e : VEntry) : h.SameBut (h.putEntry e) [R.VRD_ESTAT_STATE.at e.num, R.VRD_ESTAT_AKIND.at e.num, R.VRD_ESTAT_REASON.at e.num, R.VRD_ESTAT_YES.at e.num,
        R.VRD_ESTAT_NO.at e.num, R.VRD_ESTAT_AUTH.at e.num, R.VRD_ESUBJ_SUBJECT.at e.num, R.VRD_STAT_WITHHELD, R.PAGE_SEQ_SEQ 0x44] := by
  unfold Hw.putEntry
  simp only []
  iterate 8 refine Hw.SameBut.write _ ?_ (by simp)
  exact Hw.SameBut.of_regs (Hw.SameBut.refl h _) rfl

end Sys2Proof.Machine
end

