-- ==== Sys2Proof/Laws/Garnet.lean ====
section
/-!
SUPPORT. Laws/Garnet.lean: what the assignment of the macros to the pools can change (R215, R240, R245).
-/
namespace Sys2Proof.Machine

/-- The registers that show the pools and the width they sustain. -/
def poolFields : List Field :=
  [R.GAR_STAT_DEGRADED, R.GAR_STAT_CMD, R.GAR_STAT_TEST, R.GAR_STAT_ACTIVE, R.GAR_DENSE_DENSE, R.GAR_DENSE_TAP, R.GAR_WIDTH_K, R.GAR_WIDTH_LOAD]

theorem Hw.showWidth_only (h : Hw) : h.OnlyRegs h.showWidth := by
  unfold Hw.showWidth
  simp only
  split <;> exact (Hw.OnlyRegs.write _ _ _).trans (Hw.OnlyRegs.write _ _ _)

theorem Hw.showWidth_same (h : Hw) : h.SameBut h.showWidth poolFields := by
  unfold Hw.showWidth
  simp only
  split <;> exact Hw.SameBut.write _ (Hw.SameBut.write _ (Hw.SameBut.refl _ _) (by simp [poolFields])) (by simp [poolFields])

theorem Hw.showPools_only (h : Hw) : h.OnlyRegs h.showPools := by
  unfold Hw.showPools
  split
  · exact Hw.OnlyRegs.refl h
  · exact (((((Hw.OnlyRegs.write h _ _).trans (Hw.OnlyRegs.write _ _ _)).trans (Hw.OnlyRegs.write _ _ _)).trans (Hw.OnlyRegs.write _ _ _)).trans
      (Hw.OnlyRegs.write _ _ _)).trans (Hw.showWidth_only _)

theorem Hw.showPools_same (h : Hw) : h.SameBut h.showPools poolFields := by
  unfold Hw.showPools
  split
  · exact Hw.SameBut.refl _ _
  · refine Hw.SameBut.trans ?_ (Hw.showWidth_same _)
    refine Hw.SameBut.write _ ?_ (by simp [poolFields])
    refine Hw.SameBut.write _ ?_ (by simp [poolFields])
    refine Hw.SameBut.write _ ?_ (by simp [poolFields])
    refine Hw.SameBut.write _ ?_ (by simp [poolFields])
    exact Hw.SameBut.write _ (Hw.SameBut.refl _ _) (by simp [poolFields])

/-- The assignment changes registers and the roles of the macros alone; the pages of the dense macros go. -/
theorem Hw.assignPools_only (h : Hw) :
    ∃ ps ord, h.assignPools = { h with regs := h.assignPools.regs, sets := h.assignPools.sets,
                                       gar := { h.gar with pools := ps, denseOrder := ord, dense := [], joined := [], fed := [] } } := by
  unfold Hw.assignPools
  simp only
  generalize (List.range h.physMacros).map _ = ps
  generalize (List.range h.physMacros).filter _ = ord
  refine ⟨ps, ord, ?_⟩
  generalize hk : Hw.s _ R.GAR_STAT_DEGRADED _ = k
  have e := k.showPools_only
  unfold Hw.OnlyRegs at e
  rw [e, ← hk]
  rfl

/-- Of the registers it changes those that show the pools. -/
theorem Hw.assignPools_same (h : Hw) : h.SameBut h.assignPools poolFields := by
  unfold Hw.assignPools
  simp only
  refine Hw.SameBut.trans ?_ (Hw.showPools_same _)
  refine Hw.SameBut.write _ ?_ (by simp [poolFields])
  exact (Hw.SameBut.refl h _).of_regs rfl

end Sys2Proof.Machine
end

