-- ==== Sys2Proof/Laws/Host.lean ====
section
/-!
SUPPORT. Laws/Host.lean: what a host access by address comes to (R9, R42, R83): which rows of the register table an offset covers, and the
write or read of one word.
-/
namespace Sys2Proof.Machine

/-- Rows that a map gives nothing for may be left out first. -/
theorem filterMap_of_filter {α β : Type} (g : α → Option β) (f : α → Bool) (hf : ∀ x, f x = false → g x = none) (l : List α) :
    l.filterMap g = (l.filter f).filterMap g := by
  induction l with
  | nil => rfl
  | cons x t ih =>
    cases e : f x
    · rw [List.filterMap_cons_none (hf x e), List.filter_cons_of_neg (by simp [e])]
      exact ih
    · rw [List.filter_cons_of_pos e, List.filterMap_cons, List.filterMap_cons, ih]

/-- The fields of a written word are those of the writable rows at its offset. -/
theorem Hw.covers_of_rows (h : Hw) (p off v : Nat) {l : List Row}
    (hl : regTable.filter (fun r => r.acc == .rw && (r.hit p off).isSome) = l) (hro : h.readOnly p off = false := by simp [Hw.readOnly]) :
    h.covers p off v = l.filterMap fun r =>
      if r.acc = .rw ∧ r.inProf h.prof then
        match r.hit p off with
        | some i => if h.hasElem p off i then some (r, r.f.at (h.elem r p i), bits v r.f.lo r.f.width) else none
        | none => none
      else none := by
  unfold Hw.covers
  rw [hro, if_neg Bool.false_ne_true]
  refine (filterMap_of_filter _ (fun r => r.acc == .rw && (r.hit p off).isSome) (fun r hr => ?_) _).trans (by rw [hl] <;> rfl)
  by_cases h1 : r.acc = .rw
  · simp only [h1, beq_self_eq_true, Bool.true_and] at hr
    split
    · split
      · next e => rw [e] at hr; simp at hr
      · rfl
    · rfl
  · simp [h1]

/-- A write that covers a field reaches a function register. -/
theorem Hw.isReg_of_covers {h : Hw} {p off v : Nat} (hc : h.covers p off v ≠ []) : h.isReg p off = true := by
  unfold Hw.isReg
  rw [List.any_eq_true]
  by_contra hn
  refine hc ?_
  unfold Hw.covers
  split
  · rfl
  · rw [List.filterMap_eq_nil_iff]
    intro r hr
    split
    · next h1 =>
      split
      · next i e =>
        split
        · next he => exact absurd ⟨r, hr, by simp [h1.2, e, he]⟩ hn
        · rfl
      · rfl
    · rfl

/-- The rows that a read word shows are those at its offset. -/
theorem Hw.rowsAt_of_rows (h : Hw) (p off : Nat) {l : List Row} (hl : regTable.filter (fun r => (r.hit p off).isSome) = l) :
    h.rowsAt p off = l.filterMap fun r =>
      if r.acc = .wo ∨ !r.inProf h.prof then none else
      match r.hit p off with
      | some i => if h.hasElem p off i then some (r, i) else none
      | none => none := by
  unfold Hw.rowsAt
  refine (filterMap_of_filter _ (fun r => (r.hit p off).isSome) (fun r hr => ?_) _).trans (by rw [hl] <;> rfl)
  split
  · rfl
  · split
    · next e => rw [e] at hr; simp at hr
    · rfl

/-- A write with the strobes of the lower half (R42). -/
theorem Hw.busWrite_low (h : Hw) (a : Acc) {addr d p off : Nat} (e1 : addr % 2 ^ 20 / 4096 = p) (e2 : addr % 4096 = off) (e3 : off % 8 = 0) :
    h.busWrite a addr 0x0F d = h.writeWord a p off (d % 2 ^ 32) := by
  unfold Hw.busWrite
  simp only [e1, e2, e3, if_true]

end Sys2Proof.Machine
end

