-- ==== Sys2Proof/Laws/Links.lean ====
section
/-!
SUPPORT. Laws/Links.lean: what the reception of a protected frame comes to (R324, R325, R523, R525).
-/
namespace Sys2Proof.Machine

/-- A frame that the port hears under the keys in force passes to what the frame does. -/
theorem Hw.receive_hears {h : Hw} {p : Nat} {bs : List Nat} {kind : Nat} {f : Frame} (hh : h.Hears p bs kind f) (k : Frame → Hw → Hw) :
    h.receive p 1 bs kind k = k f (h.heard p) := by
  obtain ⟨h1, h2, h3, h4, h5, h6⟩ := hh
  unfold Hw.receive Hw.heard
  simp only [h1, h4, h5, h6]
  have e1 : ((!true || (isCulvert p && (!((h.takeStamp p).2.link p).phy || ((h.takeStamp p).2.link p).hunting))) = true) = False := by
    cases hc : isCulvert p
    · simp
    · obtain ⟨a, b⟩ := h2 hc
      simp [a, b]
  have e2 : ((!isCulvert p && (decide ((1 : Nat) = 4) || decide (9216 < wireBytes 1 bs.length))) = true) = False := by
    rcases h3 with h3 | h3
    · simp [h3]
    · simp; intro; omega
  simp only [e1, e2, if_false]
  simp

/-- Nothing passes at a port that does not carry the kind. -/
theorem Hw.receive_refuses {h : Hw} {p : Nat} (bs : List Nat) (sec : Nat) {kind : Nat} (hh : (h.takeStamp p).2.carries p kind = false) (k : Frame → Hw → Hw) :
    h.receive p sec bs kind k = (h.takeStamp p).2 := by
  unfold Hw.receive
  simp [hh]

@[simp] theorem Hw.takeStamp_prof (h : Hw) (p : Nat) : (h.takeStamp p).2.prof = h.prof := by
  unfold Hw.takeStamp
  split
  · rfl
  · generalize h.ptpPort (fabIndex p) = x
    simp only
    split
    · split <;> split <;> rfl
    · rfl

@[simp] theorem Hw.heard_prof (h : Hw) (p : Nat) : (h.heard p).prof = h.prof := by
  unfold Hw.heard
  exact h.takeStamp_prof p

@[simp] theorem Hw.acceptRel_prof (h : Hw) (p : Nat) (f : Frame) (a b : Nat) : (h.acceptRel p f a b).1.prof = h.prof := by
  unfold Hw.acceptRel
  simp only
  split <;> rfl

/-- A reliable frame that comes in its turn is taken (R326, R328). -/
theorem Hw.acceptRel_next {h : Hw} {p : Nat} {f : Frame} (hf : f.hseq = nth (h.link p).rxNext f.cls) (a b : Nat) : (h.acceptRel p f a b).2 = true := by
  unfold Hw.acceptRel
  simp [hf]

@[simp] theorem Hw.heardLaunch_prof (h : Hw) (p msg : Nat) (f : Frame) : (h.heardLaunch p msg f).prof = h.prof := by
  show ((h.heard p).acceptRel p f 0 0).1.prof = h.prof
  simp

end Sys2Proof.Machine
end

