-- ==== Sys2Proof/Tests/Slice0.lean ====
section
/-!
SUPPORT. Tests/Slice0.lean: small tests, and for the hypotheses of every statement a state and operands that meet them.
-/
open Sys2Proof Sys2Proof.Machine
namespace Sys2Proof.Tests

-- one theorem after another: their kernel checks side by side would need a stack each
set_option Elab.async false

/-! ### Helpers -/

/-- What a clause of a statement asks of the state. -/
abbrev Meets {c : Instr} {H : Hw → Prop} {F : Hw → Hw} (_ : Does c H F) (s : State) : Prop := H s.hw.quiet
/-- The hypotheses of a clause, of one to eight of them. -/
abbrev Hyp1 {A C : Prop} (_ : A → C) : Prop := A
abbrev Hyp2 {A B C : Prop} (_ : A → B → C) : Prop := A ∧ B
abbrev Hyp3 {A B C D : Prop} (_ : A → B → C → D) : Prop := A ∧ B ∧ C
abbrev Hyp4 {A B C D E : Prop} (_ : A → B → C → D → E) : Prop := A ∧ B ∧ C ∧ D
abbrev Hyp5 {A B C D E F : Prop} (_ : A → B → C → D → E → F) : Prop := A ∧ B ∧ C ∧ D ∧ E
abbrev Hyp6 {A B C D E F G : Prop} (_ : A → B → C → D → E → F → G) : Prop := A ∧ B ∧ C ∧ D ∧ E ∧ F
abbrev Hyp7 {A B C D E F G H : Prop} (_ : A → B → C → D → E → F → G → H) : Prop := A ∧ B ∧ C ∧ D ∧ E ∧ F ∧ G
abbrev Hyp8 {A B C D E F G H I : Prop} (_ : A → B → C → D → E → F → G → H → I) : Prop := A ∧ B ∧ C ∧ D ∧ E ∧ F ∧ G ∧ H

/-- The operator, and the tenant context 3. -/
abbrev op : Sys2Proof.Acc := ⟨0, true⟩
abbrev ten : Sys2Proof.Acc := ⟨3, false⟩

/-- Registers written one after another. -/
def put (h : Hw) (l : List (Field × Nat)) : Hw := l.foldl (fun h x => h.s x.1 x.2) h

/-- Every power domain on. -/
def lit : Pwr :=
  { Pwr.reset with porst := false, aon := true, coreEn := true, core := true, coreRst := false, isoCore := false, garEn := true, gar := true,
                   garRst := false, isoGar := false, groups := 8 }

/-- A state whose block has every domain on and every page, has run for a while, and shows the registers listed. -/
def st (p : Profile) (l : List (Field × Nat)) (f : Hw → Hw) : State :=
  { State.reset with hw := f (put { Hw.resetFor p with regs := [], frc := 1000000000000, pwr := lit }
      ((List.range 8).map (fun i => (R.BLK_PRESENT_PRESENT.at i, 0xFFFFFFFF)) ++ l)) }

/-- A page in a state. -/
abbrev pg (p n : Nat) : Field × Nat := (R.PAGE_STATE_STATE p, n)

/-- A link that runs at port `p`, and its session. -/
def linked (p : Nat) (f : Link → Link) (h : Hw) : Hw :=
  { h with fab := { h.fab with links := [f { Link.blank p with up := true, phy := true }] },
           sec := { h.sec with sessions := [{ Session.blank p with up := true }] } }

/-- The registers that put culvert port 0 and fabric port 0x200 in service. -/
abbrev culOn : List (Field × Nat) := [pg 0x2C 2, (R.CUL_PORT_CTL_INSVC.at 0, 1)]
abbrev fabOn : List (Field × Nat) := [pg 0x28 2, (R.FAB_PORT_CFG_EN.at 0, 1)]

/-- An entry of a queue, fetched, whose list is `d`. -/
def entry (d : List (List Nat)) : EntryRun := ⟨0, [], true, [], d, none, true, 0, false, false, 0, 0, 0⟩

/-- Queue 0 with entries. -/
def queued (l : List EntryRun) (h : Hw) : Hw := { h with queues := [⟨0, l, false, 0, 0, 0, 0⟩] }

/-- One schedule entry on tracker 0. -/
abbrev sch (phase : Nat) : SchEntry := ⟨0, 1, 1, 0, 0, phase, 0, 0, 0⟩

/-- A PTP message of a type: domain 0, all else 0. -/
abbrev ptpBytes (typ : Nat) : List Nat := [typ, 2] ++ List.replicate 42 0

/-- Queue 0 with one entry that has started, whose first descriptor is `d`. -/
abbrev run (d : List Nat) : EntryRun := { entry [d] with started := true }
def runs (d : List Nat) (h : Hw) : Hw := queued [run d] h

/-- Queue 0 of engine `e` in context 0, with an operand buffer of 1 KiB. -/
abbrev qOn (e : Nat) : List (Field × Nat) := [(R.Q_CFG_ENGINE.at 0, e), (R.Q_CFG_CTX.at 0, 0), (R.CTX_OPB_KIB.at 0, 1), (R.CTX_OPB_BASE.at 0, 0)]

/-- A tensor on tap 0. -/
abbrev tens : Tensor := ⟨0, 0, 0, 0, none, 0, 0, none, 0, none, 0, false, false, [], 0⟩

/-- A record and how it is held. -/
abbrev rec5 (typ : Nat) (payload : List Nat) : Rec :=
  { typ := typ, flags := 0, source := 5, seq := 0, tdelta := 0, payload := payload, cls := 3, stamp := Stamp.zero, yellow := false, replay := false }
abbrev held5 (typ : Nat) (payload : List Nat) : HeldRec := ⟨rec5 typ payload, none, 0, some 0, [], 0, 0, some 5, [], none⟩

/-- A check of stream 5, and the bytes of a definition that loads. -/
abbrev chk5 (kind : Nat) : CheckDef :=
  { kind := kind, keymode := 0, mode := 0, shift := 0, n := 1, cfmt := 0, rfmt := 0, pa := 0, x := 0, xc := 0, kLog := 6, eRef := 0, seed := 0,
    nElems := 1, timeoutUs := 100, keyPeriodUs := 0, contrib := [5], recv := [5], hops := [], hopIns := [], raw := [] }
abbrev chkBytes : List Nat :=
  [0, 0, 0, 0, 1] ++ List.replicate 14 0 ++ [6] ++ List.replicate 12 0 ++ [1] ++ List.replicate 7 0 ++ [100] ++ List.replicate 23 0 ++ [0, 4, 0, 0]

/-- An entity of the tree engine with nothing collected, and a sample. -/
abbrev ent0 : Entity := ⟨0, [], [], [], 0, 0, 0, 0, false, none⟩
abbrev samp (lane : Option Nat) : Sample := ⟨0, 0, 0, 0, 0, none, [], [], 0, 0, 0, 0, 0, [], none, none, false, lane, false⟩

/-- A frame of a kind, from node 0. -/
abbrev fr (kind : Nat) (payload : List Nat) : Frame :=
  { kind := kind, cls := 3, replay := false, routed := false, src := 0, dst := 0xFFF, hseq := 0, pfx := [], payload := payload }

/-- A LAUNCH message: ARM, COMMIT or ABORT of job 0 at instant 2^56. -/
abbrev launchMsg (msg : Nat) : Frame := fr 6 ([msg] ++ List.replicate 14 0 ++ [1] ++ List.replicate 16 0)

/-- A launch that node 0 leads. -/
abbrev launch (instant size decision : Nat) : Launch := ⟨1, instant, size, 0, decision, 0, [], 0⟩

/-- An entry of the verdict page. -/
abbrev ve (kind state : Nat) : VEntry :=
  ⟨1, 0, kind, 0, state, 0, false, 0, 0, 0, 0, 0, 0, 0, 0, 0, 0, [], [], [], [], [], 0, 0, 0, false, 0, false, 0, [], 2⟩

/-- A node's LSA without ports or leaves. -/
abbrev lsaBytes : List Nat := [7, 0] ++ List.replicate 14 0 ++ [1] ++ List.replicate 7 0

/-- A reduction group of stream 5. -/
abbrev grp5 : Group := ⟨0, 0, 0, 0, 6, 0, 0, [5], 100, 0, 0x20, 0⟩

/-- A record that was delivered before. -/
abbrev again5 : HeldRec := { held5 0x20 [] with r := { rec5 0x20 [] with replay := true } }

/-- A heater group whose calibration has measured the columns. -/
abbrev heat (cols : List (List Int)) : HeatGroup := ⟨0, [], [], [], [], false, none, some cols, 0⟩

/-- A leaf with a link to its home and no tokens, a record of a class to send, and the frame that takes it. -/
def egrOf (cls : Nat) : State :=
  st .l [pg 0x30 2, pg 0x2C 2, (R.CUL_PORT_CTL_INSVC.at 0, 1), (R.CUL_LEAF_ACTIVE, 1), (R.CUL_LEAF_REGISTERED, 1)] fun h =>
    { linked 0 (fun k => { k with bucket := 0, bucketFrc := h.frc }) h with
      flw := { h.flw with held := [{ held5 0x20 [] with r := { rec5 0x20 [] with cls := cls } }] } }
abbrev egrSt : State := egrOf 0
abbrev egrPoor : State := egrOf 1
def egr0 : Frame × List HeldRec × Nat := (egrSt.hw.quiet.eligible 0 0).get (by decide +kernel)
def egr1 : Frame × List HeldRec × Nat := (egrPoor.hw.quiet.eligible 0 1).get (by decide +kernel)

/-- A switch whose fabric port has a PTP frame to send, and tokens for it. -/
abbrev egrWait : PtpWait := ⟨0, 0, 0, ptpBytes 0⟩
def egrPtp : State :=
  st .g [pg 0x30 2, pg 0x28 2, (R.FAB_PORT_CFG_EN.at 0, 1), (R.SHP_BURST_BYTES.at 0x200, 65536), (R.SHP_BURST_BYTES.at 16, 65536),
         (R.SHP_RATE_MBPS.at 0x200, 100000)] fun h =>
    { linked 0x200 (fun k => { k with bucket := 524288000, bucketFrc := h.frc }) h with
      ptp := { h.ptp with ports := [⟨0, [], false, false, 0, [], none, 0, none, 0, none, [egrWait]⟩] } }

/-- A held record for node `n` of a type. -/
abbrev heldFor (n typ : Nat) (payload : List Nat) : HeldRec := { held5 typ payload with dst := some n }

/-- A held record whose stream has lost its sync. -/
abbrev lost (n typ : Nat) (payload : List Nat) : HeldRec := { heldFor n typ payload with r := { rec5 typ payload with known := false } }

/-- A slot of the compressor in context `c`; an entry of the event log; a write of the NV store. -/
abbrev slot0 (c : Nat) : CmpSlot := ⟨0, c, 0, 1, [], 0, 0⟩
abbrev ev0 (closed : Bool) : EvrEntry := ⟨0, 0x50, 0, 0, 0, 0, 0, 0, 0, 0, [], closed, false, 0, 0⟩
abbrev nv0 (kind : Nat) (retried : Bool) : NvWrite := ⟨0, [], kind, retried⟩

/-- What a start-up self-test without a failure finds, and one with a lockstep failure. -/
abbrev testOk (b : Bool) : SelfTest := ⟨[], 0, b, [], [], [], [], none⟩


/-! ### Operands that do not fit are refused -/

theorem test_wellFormed_fits : (Instr.hostRegisterWrite ten 0x38018 0x0F 5).wellFormed = true := by decide
theorem test_wellFormed_context : (Instr.evrWrite ⟨64, true⟩).wellFormed = false := by decide
theorem test_wellFormed_below : (Instr.pageErrRead op 0x100).wellFormed = false := by decide
theorem test_wellFormed_word : (Instr.dbInSet op 0 (2 ^ 32)).wellFormed = false := by decide
theorem test_wellFormed_port : (Instr.helloTx 0x210).wellFormed = false := by decide
theorem test_wellFormed_octets : (Instr.firmwareMbxSend 8 [0x100]).wellFormed = false := by decide

/-! ### One step each; the expected values are the rules' -/

/-- The block that a command leaves. -/
def after (c : Instr) (s : State) : Hw := match exec c s with | .next t => t.hw | _ => s.hw

/-- The table gives no command bits, so no word spells one. -/
theorem test_no_word_spells_a_command : decodeTableWord 32 0xFFFFFFFF = none := rfl
theorem test_withFetchWord_keeps : State.reset.withFetchWord 32 5 = State.reset := rfl

/-- R113: a cycle counts one on, and the FRC wraps at 64 bits. -/
theorem test_tick_wraps : (Hw.tick (st .t [] fun h => { h with frc := 2 ^ 64 - 1 }).hw).frc = 0 := by decide +kernel

/-- R115 with the values after reset: NT is the FRC, in units of 2^-16 ns. -/
theorem test_nt_counts_from_epoch : (st .t [] fun h => { h with frc := 5 }).hw.nt = 5 * 2 ^ 16 := by decide +kernel

/-- R42: a strobe pattern that is not legal has no effect and a bus error. -/
theorem test_strobe : (after (.hostRegisterWrite op 0x38018 0x07 5) (st .t [] id)).rsp = ⟨0, true⟩ := by decide +kernel

/-- R80: a write of PAGE_IRQ_EN. -/
theorem test_irq_en : (after (.hostRegisterWrite op 0x38018 0x0F 0x10002) (st .t [] id)).g (R.PAGE_IRQ_EN_EN 0x38) = 0x10002 := by decide +kernel

/-- R112: a read of PAGE_ERR returns FIRST and COUNT, and clears both. -/
theorem test_page_err : (after (.pageErrRead op 0x38) (st .t [(R.PAGE_ERR_FIRST 0x38, 0x0203), (R.PAGE_ERR_COUNT 0x38, 2)] id)).rsp = ⟨0x20203, false⟩ := by
  decide +kernel
theorem test_page_err_clears :
    (after (.pageErrRead op 0x38) (st .t [(R.PAGE_ERR_FIRST 0x38, 0x0203), (R.PAGE_ERR_COUNT 0x38, 2)] id)).g (R.PAGE_ERR_COUNT 0x38) = 0 := by
  decide +kernel

/-- R85: an enable claims and starts. -/
theorem test_enable : (after (.pageEnable op 0x30 true) (st .t [(R.SEC_STAT_BLOB, 1), (R.PWR_START_SELFTEST, 1)] id)).state 0x30 = 1 := by decide +kernel

/-- R501 and R502: a message of 64 bytes stands until it is popped. -/
theorem test_push_full : (after (.mbxPush op 0 64) (st .t [] id)).g (R.MBX_STAT_FULL.at 0) = 1 := by decide +kernel
theorem test_pop_len : (after (.mbxPopRead op 15) (st .t [(R.MBX_STAT_FULL.at 15, 1), (R.MBX_STAT_LEN.at 15, 33)] id)).rsp = ⟨33, false⟩ := by decide +kernel

/-- R504: DB_IN is W1S, DB_OUT is W1C. -/
theorem test_db_in : (after (.dbInSet op 1 6) (st .t [(R.DB_IN_HI_BITS, 3)] id)).g R.DB_IN_HI_BITS = 7 := by decide +kernel
theorem test_db_out : (after (.dbOutClear op 1 6) (st .t [(R.DB_OUT_HI_BITS, 3)] id)).g R.DB_OUT_HI_BITS = 1 := by decide +kernel

/-- R460 and R466: TTL, HOLD and the other fields of an entry. -/
theorem test_hold : ((after (.vrdHold op 1) (st .t [] fun h => { h with vrd := { h.vrd with entries := [ve 1 3] } })).vEntry 1).map (fun e => e.held) = some true := by
  decide +kernel

/-- R323: the link header, byte by byte. -/
theorem test_frame_bytes : ({ fr 4 [0xAB] with src := 0x123, dst := 0x456, hseq := 0x01020304 } : Frame).bytes =
    [0x41, 3, 0x23, 0x01, 0x56, 0x04, 1, 0, 4, 3, 2, 1, 0, 0, 0, 0, 0xAB] := by decide

/-- CRC-32C of the digits 1 to 9, from the CRC's published check value. -/
theorem test_crc32c : crc32c [0x31, 0x32, 0x33, 0x34, 0x35, 0x36, 0x37, 0x38, 0x39] = 0xE3069283 := by decide +kernel

/-! ## States and operands that meet the hypotheses of every statement -/

/-! ### The machine as a whole -/

theorem wit_emptyQueueTicks (o : Obligations.EmptyQueueTicks) : Hyp1 (o State.reset) := rfl
theorem wit_emptyQueueTicks_on : (st .t [] id).pending = [] ∧ (st .t [] id).hw.pwr.aon = true := ⟨rfl, rfl⟩
theorem wit_emptyQueueTicks_off : State.reset.pending = [] ∧ State.reset.hw.pwr.aon = false := ⟨rfl, rfl⟩
theorem wit_frcCounts_0 (o : Obligations.FrcCounts) : Hyp1 (o.1 (st .t [] id).hw) := rfl
theorem wit_frcCounts_2 : ∃ t, Instr.optimeSecond ≠ .porstNAssert ∧ Instr.optimeSecond ≠ .porstNRelease ∧
    exec .optimeSecond State.reset = .next t := ⟨_, by decide, by decide, rfl⟩
theorem wit_everyCommandCompletes : ∀ id, Instr.optimeSecond ≠ .dmaWriteResponse id := fun _ h => by cases h
theorem wit_everyStepKeepsInvariant : ∃ t, State.reset.Inv .t ∧ step State.reset = .next t := ⟨_, ⟨rfl, rfl⟩, rfl⟩

/-- A write of two bytes at the end of the address space, and a read. -/
abbrev wr2 : DmaReq := ⟨5, true, 0, 2 ^ 64 - 1, [1, 2], 2, .dump, 2, 1⟩
abbrev rd2 : DmaReq := ⟨5, false, 0, 0, [], 2, .dump, 1, 0⟩
def dmaSt (r : DmaReq) : State := st .t [] fun h => { h with dma := [r] }

theorem wit_writtenBytesStand (o : Obligations.WrittenBytesStand) : Hyp4 (o.1 (dmaSt wr2) 5 wr2) := by unfold Hyp4; decide +kernel
theorem wit_writtenBytesStand_whole (o : Obligations.WrittenBytesStand) : Hyp1 (o.2 wr2) := by unfold Hyp1; decide +kernel
theorem wit_writtenBytesStand_in : 1 < wr2.bytes.length ∧ 1 < wr2.reached := by decide +kernel
theorem wit_writtenBytesStand_out : ∀ i, i < wr2.bytes.length → i < wr2.reached → 7 ≠ (wr2.addr + i) % 2 ^ 64 := by decide
theorem wit_dmaResponsesDo_0 (o : Obligations.DmaResponsesDo) : Hyp2 (o.1 (dmaSt wr2) 5 wr2) := by unfold Hyp2; decide +kernel
theorem wit_dmaResponsesDo_1 (o : Obligations.DmaResponsesDo) : Hyp1 (o.2.1 (dmaSt wr2) 5 wr2) := by unfold Hyp1; decide +kernel
theorem wit_dmaResponsesDo_2 (o : Obligations.DmaResponsesDo) : Hyp2 (o.2.2.1 (dmaSt rd2) 5 rd2) := by unfold Hyp2; decide +kernel
theorem wit_dmaResponsesDo_3 (o : Obligations.DmaResponsesDo) : Hyp3 (o.2.2.2 (dmaSt wr2) 5 wr2) := by unfold Hyp3; decide +kernel

theorem wit_frameReadsBack (o : Obligations.FrameReadsBack) : Hyp7 (o (fr 8 [1]) []) := by unfold Hyp7; decide +kernel
theorem wit_frameReadsBack_routed (o : Obligations.FrameReadsBack) :
    Hyp7 (o { fr 4 [] with routed := true, pfx := List.replicate 34 0, cls := 7, src := 4095, hseq := 0xFFFFFFFF } []) := by
  unfold Hyp7; decide +kernel
theorem wit_otherFramesAreNone_version (o : Obligations.OtherFramesAreNone) : Hyp1 (o [2]) := by unfold Hyp1; decide
theorem wit_otherFramesAreNone_kind (o : Obligations.OtherFramesAreNone) : Hyp1 (o [0x91]) := by unfold Hyp1; decide
theorem wit_otherFramesAreNone_reserved (o : Obligations.OtherFramesAreNone) : Hyp1 (o [1, 32]) := by unfold Hyp1; decide

/-- The tenant context 3 is enabled and owns mailboxes 7 and 8. -/
abbrev tenOn : List (Field × Nat) := [(R.CTX_CFG_EN.at 3, 1), (R.MBX_OWNER_CTX.at 7, 3), (R.MBX_OWNER_CTX.at 8, 3)]

theorem wit_tenantsAreRefused (o : Obligations.TenantsAreRefused) :
    Hyp5 (o (.dbgStop ten) ten 0x3A 0x44 (st .t tenOn id)) := by unfold Hyp5; decide +kernel
theorem wit_unpoweredAccessesDoNothing (o : Obligations.UnpoweredAccessesDoNothing) :
    Hyp2 (o (.dbgStop op) op 0x3A 0x44 (st .t [] fun h => { h with pwr := Pwr.reset })) := by unfold Hyp2; decide +kernel
theorem wit_unpoweredAccessesDoNothing_garnet (o : Obligations.UnpoweredAccessesDoNothing) :
    Hyp2 (o (.garRetire op 0) op 0x10 0x50 (st .t [] fun h => { h with pwr := { lit with gar := false } })) := by unfold Hyp2; decide +kernel
theorem wit_absentPagesIgnoreWrites (o : Obligations.AbsentPagesIgnoreWrites) :
    Hyp4 (o (.hgSwap op) op 0x42 0x124 (st .l [(R.BLK_PRESENT_PRESENT.at 2, 0)] id)) := by unfold Hyp4; decide +kernel

theorem wit_refusedWritesOnlyRecord_0 (o : Obligations.RefusedWritesOnlyRecord) :
    Hyp2 (o.1 (st .t [pg 0x4C 2] id) op) := by unfold Hyp2; decide +kernel
theorem wit_refusedWritesOnlyRecord_1 (o : Obligations.RefusedWritesOnlyRecord) :
    Hyp4 (o.2.1 (st .t [] id) op 18 65535) := by unfold Hyp4; decide +kernel
theorem wit_refusedWritesOnlyRecord_2 (o : Obligations.RefusedWritesOnlyRecord) :
    Hyp2 (o.2.2.1 (st .t [(R.UPD_STAT_STATE, 1)] id) op) := by unfold Hyp2; decide +kernel
theorem wit_refusedWritesOnlyRecord_3 (o : Obligations.RefusedWritesOnlyRecord) :
    Hyp2 (o.2.2.2.1 (st .t [(R.UPD_STAT_STATE, 3)] id) op) := by unfold Hyp2; decide +kernel
theorem wit_refusedWritesOnlyRecord_4 (o : Obligations.RefusedWritesOnlyRecord) :
    Hyp2 (o.2.2.2.2.1 (st .t [(R.UPD_STAT_STATE, 4)] id) op) := by unfold Hyp2; decide +kernel
theorem wit_refusedWritesOnlyRecord_5 (o : Obligations.RefusedWritesOnlyRecord) :
    Hyp2 (o.2.2.2.2.2.1 (st .t [(R.TRC_STAT_FILLING, 1)] id) op) := by unfold Hyp2; decide +kernel
theorem wit_refusedWritesOnlyRecord_6 (o : Obligations.RefusedWritesOnlyRecord) :
    Hyp3 (o.2.2.2.2.2.2.1 (st .t [] fun h => { h with vrd := { h.vrd with entries := [ve 1 4] } }) op 1 (ve 1 4)) := by
  unfold Hyp3; decide +kernel
theorem wit_refusedWritesOnlyRecord_7 (o : Obligations.RefusedWritesOnlyRecord) :
    Hyp3 (o.2.2.2.2.2.2.2.1 (st .t [] fun h => { h with vrd := { h.vrd with entries := [ve 0 1] } }) op 1 (ve 0 1)) := by
  unfold Hyp3; decide +kernel
theorem wit_refusedWritesOnlyRecord_8 (o : Obligations.RefusedWritesOnlyRecord) :
    Hyp2 (o.2.2.2.2.2.2.2.2.1 (st .t [pg 0x48 2, (R.CH_CFG_EN.at 1, 0)] id) op) := by unfold Hyp2; decide +kernel
theorem wit_refusedWritesOnlyRecord_9 (o : Obligations.RefusedWritesOnlyRecord) :
    Hyp2 (o.2.2.2.2.2.2.2.2.2 (st .t [] id) op 32) := by unfold Hyp2; decide +kernel

theorem wit_inboundMailboxes_0 (o : Obligations.InboundMailboxes) : Hyp4 (o.1 (st .t tenOn id) ten 7 7 0) := by unfold Hyp4; decide +kernel
theorem wit_inboundMailboxes_1 (o : Obligations.InboundMailboxes) : Hyp6 (o.2.1 (st .t tenOn id) ten 7 64) := by unfold Hyp6; decide +kernel
theorem wit_inboundMailboxes_2 (o : Obligations.InboundMailboxes) :
    Hyp5 (o.2.2.1 (st .t ((R.MBX_STAT_FULL.at 7, 1) :: tenOn) id) ten 7 7 0xF0 0) := by unfold Hyp5; decide +kernel
theorem wit_inboundMailboxes_3 (o : Obligations.InboundMailboxes) :
    Hyp3 (o.2.2.2.1 (st .t [(R.MBX_STAT_FULL.at 7, 1)] id) op 7 64) := by unfold Hyp3; decide +kernel
theorem wit_inboundMailboxes_4 (o : Obligations.InboundMailboxes) :
    Hyp3 (o.2.2.2.2.1 (st .t [(R.MBX_STAT_FULL.at 7, 1), (R.PWR_START_BOOT, 1)] id) 7) := by unfold Hyp3; decide +kernel
theorem wit_inboundMailboxes_5 (o : Obligations.InboundMailboxes) :
    Hyp4 (o.2.2.2.2.2 (st .t tenOn id) ten 7 65) := by unfold Hyp4; decide +kernel
theorem wit_outboundMailboxesAndDoorbells_0 (o : Obligations.OutboundMailboxesAndDoorbells) :
    Hyp7 (o.1 (st .t [(R.PWR_START_BOOT, 1)] id) 8 [1]) := by unfold Hyp7; decide +kernel
theorem wit_outboundMailboxesAndDoorbells_1 (o : Obligations.OutboundMailboxesAndDoorbells) :
    Hyp4 (o.2.1 (st .t ((R.MBX_STAT_FULL.at 8, 1) :: tenOn) id) ten 8) := by unfold Hyp4; decide +kernel
theorem wit_outboundMailboxesAndDoorbells_2 (o : Obligations.OutboundMailboxesAndDoorbells) :
    Hyp3 (o.2.2.1 (st .t tenOn id) ten 8) := by unfold Hyp3; decide +kernel
theorem wit_outboundMailboxesAndDoorbells_3 (o : Obligations.OutboundMailboxesAndDoorbells) :
    Hyp5 (o.2.2.2.1 (st .t tenOn id) ten 8 7 0x0F 0) := by unfold Hyp5; decide +kernel
theorem wit_outboundMailboxesAndDoorbells_4 (o : Obligations.OutboundMailboxesAndDoorbells) :
    Hyp2 (o.2.2.2.2.1 (st .t [] id) op 0xFFFFFFFF) := by unfold Hyp2; decide +kernel
theorem wit_outboundMailboxesAndDoorbells_5 (o : Obligations.OutboundMailboxesAndDoorbells) :
    Hyp2 (o.2.2.2.2.2.1 (st .t [] id) op 0xFFFFFFFF) := by unfold Hyp2; decide +kernel
theorem wit_outboundMailboxesAndDoorbells_6 (o : Obligations.OutboundMailboxesAndDoorbells) :
    Hyp2 (o.2.2.2.2.2.2 (st .t [(R.PWR_START_BOOT, 1)] id) 31) := by unfold Hyp2; decide +kernel
theorem wit_latchesArePrivate (o : Obligations.LatchesArePrivate) : Hyp1 (o State.reset op ten 0 0) := by unfold Hyp1; decide
theorem wit_hazardInputTrips (o : Obligations.HazardInputTrips) :
    Hyp4 (o (st .t [] fun h => { h with saf := { h.saf with hzEn := 0xFF } }) 7) := by unfold Hyp4; decide +kernel
theorem wit_holdMarksOneEntry (o : Obligations.HoldMarksOneEntry) :
    Hyp3 (o (st .t [] fun h => { h with vrd := { h.vrd with entries := [ve 1 3] } }) op 1 (ve 1 3)) := by unfold Hyp3; decide +kernel
theorem wit_healingIsNoAction (_ : Obligations.HealingIsNoAction) : ∃ t, exec .leafEncStepUp State.reset = .next t ∧ t.hw.agt = State.reset.hw.agt :=
  ⟨_, rfl, rfl⟩
theorem wit_healingIsNoAction_field : ∀ g ∈ [R.CUL_LEAF_ACTIVE, R.FLW_STAT_REHOMED, R.FRM_STAT_STEPPED_DOWN, R.PAGE_IRQ_STAT_FUNC_IRQ 0x30,
    R.PAGE_IRQ_STAT_FUNC_IRQ 0x13, R.ND_TOTAL_LO_COUNT, R.ND_TOTAL_HI_COUNT, R.ND_LAST_CAUSE, R.ND_LAST_FRC_LO_FRC, R.ND_LAST_FRC_HI_FRC,
    R.ND_CNT_COUNT.at 11, R.ND_CNT_COUNT.at 12], R.FAB_ID_NODE.key ≠ g.key := by decide

/-! ### Power, wake-up and the pages -/

theorem wit_resetsAndDomains_1 (o : Obligations.ResetsAndDomains) :
    Hyp1 (o.2.1 (st .t []
      (fun h => { h with pwr := Pwr.reset }))) := by
  unfold Hyp1; decide +kernel
theorem wit_resetsAndDomains_2 (o : Obligations.ResetsAndDomains) :
    Hyp1 (o.2.2.1 (st .t [] id)) := by
  unfold Hyp1; decide +kernel
theorem wit_resetsAndDomains_3 (o : Obligations.ResetsAndDomains) :
    Hyp3 (o.2.2.2.1 (st .t []
      (fun h => { h with pwr := { lit with core := false } }))) := by
  unfold Hyp3; decide +kernel
theorem wit_resetsAndDomains_4 (o : Obligations.ResetsAndDomains) :
    Hyp3 (o.2.2.2.2.1 (st .t [(R.PWR_DOM_GROUPS, 8)]
      (fun h => { h with pwr := { lit with groups := 3 } }))) := by
  unfold Hyp3; decide +kernel
theorem wit_resetsAndDomains_5 (o : Obligations.ResetsAndDomains) :
    Hyp4 (o.2.2.2.2.2 (st .t [(R.PWR_DOM_CORE_AUTO, 1)]
      (fun h => { h with pwr := { Pwr.reset with aon := true } }))) := by
  unfold Hyp4; decide +kernel
theorem wit_resetAndPowerCommandsDo_1 (o : Obligations.ResetAndPowerCommandsDo) :
    Hyp1 (o.2.1 (st .t []
      (fun h => { h with pwr := Pwr.reset }))) := by
  unfold Hyp1; decide +kernel
theorem wit_resetAndPowerCommandsDo_2 (o : Obligations.ResetAndPowerCommandsDo) :
    Meets (o.2.2.1)
    (st .t [(R.PWR_DOM_CORE_AUTO, 1)]
      (fun h => { h with pwr := { Pwr.reset with aon := true } })) := by
  unfold Meets; decide +kernel
theorem wit_resetAndPowerCommandsDo_3 (o : Obligations.ResetAndPowerCommandsDo) :
    Meets (o.2.2.2.1)
    (st .t [] id) := by
  unfold Meets; decide +kernel
theorem wit_resetAndPowerCommandsDo_4 (o : Obligations.ResetAndPowerCommandsDo) :
    Meets (o.2.2.2.2.1)
    (st .t []
      (fun h => { h with pwr := { lit with core := false } })) := by
  unfold Meets; decide +kernel
theorem wit_resetAndPowerCommandsDo_5 (o : Obligations.ResetAndPowerCommandsDo) :
    Meets (o.2.2.2.2.2.1)
    (st .t [] id) := by
  unfold Meets; decide +kernel
theorem wit_resetAndPowerCommandsDo_6 (o : Obligations.ResetAndPowerCommandsDo) :
    Meets (o.2.2.2.2.2.2.1)
    (st .t [(R.PWR_DOM_GROUPS, 8)]
      (fun h => { h with pwr := { lit with groups := 3 } })) := by
  unfold Meets; decide +kernel
theorem wit_resetAndPowerCommandsDo_7 (o : Obligations.ResetAndPowerCommandsDo) :
    Meets (o.2.2.2.2.2.2.2.1)
    (st .t [(R.PWR_DOM_GROUPS, 8)]
      (fun h => { h with pwr := { lit with gar := false } })) := by
  unfold Meets; decide +kernel
theorem wit_resetAndPowerCommandsDo_8 (o : Obligations.ResetAndPowerCommandsDo) :
    Meets (o.2.2.2.2.2.2.2.2.1)
    (st .t [(R.PWR_DOM_GAR_ST, 3)] id) := by
  unfold Meets; decide +kernel
theorem wit_resetAndPowerCommandsDo_9 (o : Obligations.ResetAndPowerCommandsDo) :
    Meets (o.2.2.2.2.2.2.2.2.2.1)
    (st .t [(R.PWR_DOM_CORE_ST, 3)] id) := by
  unfold Meets; decide +kernel
theorem wit_resetAndPowerCommandsDo_10 (o : Obligations.ResetAndPowerCommandsDo) :
    Meets (o.2.2.2.2.2.2.2.2.2.2.1)
    (st .t [] id) := by
  unfold Meets; decide +kernel
theorem wit_resetAndPowerCommandsDo_11 (o : Obligations.ResetAndPowerCommandsDo) :
    Meets (o.2.2.2.2.2.2.2.2.2.2.2.1)
    (st .t [] id) := by
  unfold Meets; decide +kernel
theorem wit_resetAndPowerCommandsDo_12 (o : Obligations.ResetAndPowerCommandsDo) :
    Meets (o.2.2.2.2.2.2.2.2.2.2.2.2.1 op)
    (st .t [] id) := by
  unfold Meets; decide +kernel
theorem wit_resetAndPowerCommandsDo_13 (o : Obligations.ResetAndPowerCommandsDo) :
    Meets (o.2.2.2.2.2.2.2.2.2.2.2.2.2.1 op)
    (st .t [] id) := by
  unfold Meets; decide +kernel
theorem wit_resetAndPowerCommandsDo_14 (o : Obligations.ResetAndPowerCommandsDo) :
    Meets (o.2.2.2.2.2.2.2.2.2.2.2.2.2.2.1 op)
    (st .t [] id) := by
  unfold Meets; decide +kernel
theorem wit_resetAndPowerCommandsDo_15 (o : Obligations.ResetAndPowerCommandsDo) :
    Meets (o.2.2.2.2.2.2.2.2.2.2.2.2.2.2.2.1 op)
    (st .t [] id) := by
  unfold Meets; decide +kernel
theorem wit_resetAndPowerCommandsDo_16 (o : Obligations.ResetAndPowerCommandsDo) :
    Meets (o.2.2.2.2.2.2.2.2.2.2.2.2.2.2.2.2 true)
    (st .t [] id) := by
  unfold Meets; decide +kernel
theorem wit_wakeCommandsDo_0 (o : Obligations.WakeCommandsDo) :
    Meets (o.1 op 0 1 0 (by decide) (by decide))
    (st .t [pg 0x58 2, (R.PWR_DIE_STEP_A.at 0, 1)] id) := by
  unfold Meets; decide +kernel
theorem wit_wakeCommandsDo_1 (o : Obligations.WakeCommandsDo) :
    Meets (o.2.1 op 0 1 0 (by decide) (by decide))
    (st .t [pg 0x58 2] id) := by
  unfold Meets; decide +kernel
theorem wit_wakeCommandsDo_2 (o : Obligations.WakeCommandsDo) :
    Meets (o.2.2.1 0 [])
    (st .t [] id) := by
  unfold Meets; decide +kernel
theorem wit_wakeCommandsDo_3 (o : Obligations.WakeCommandsDo) :
    Meets (o.2.2.2.1 op 3 1 (by decide) (by decide))
    (st .t [] id) := by
  unfold Meets; decide +kernel
theorem wit_wakeCommandsDo_4 (o : Obligations.WakeCommandsDo) :
    Meets (o.2.2.2.2.1 7)
    (st .t []
      (fun h => { h with pwr := { lit with pgoodWait := [(7, 5)] } })) := by
  unfold Meets; decide +kernel
theorem wit_wakeCommandsDo_5 (o : Obligations.WakeCommandsDo) :
    Meets (o.2.2.2.2.2.1 7 (by decide))
    (st .t [(R.PWR_PGOOD_PGOOD.at 0, 0x80), (R.PWR_WAKE_STAT_WAKE.at 0, 0x80)] id) := by
  unfold Meets; decide +kernel
theorem wit_wakeCommandsDo_6 (o : Obligations.WakeCommandsDo) :
    Meets (o.2.2.2.2.2.2 op 3 1 (by decide) (by decide))
    (st .t [] id) := by
  unfold Meets; decide +kernel
theorem wit_pageCommandsDo_0 (o : Obligations.PageCommandsDo) :
    Meets (o.1 op 0x30 true)
    (st .t [(R.SEC_STAT_BLOB, 1), (R.PWR_START_SELFTEST, 1)] id) := by
  unfold Meets; decide +kernel
theorem wit_pageCommandsDo_1 (o : Obligations.PageCommandsDo) :
    Meets (o.2.1 op 0x30 true)
    (st .t [pg 0x30 3] id) := by
  unfold Meets; decide +kernel
theorem wit_pageCommandsDo_2 (o : Obligations.PageCommandsDo) :
    Meets (o.2.2.1 op 0x30 true)
    (st .t [pg 0x30 5] id) := by
  unfold Meets; decide +kernel
theorem wit_pageCommandsDo_3 (o : Obligations.PageCommandsDo) :
    Meets (o.2.2.2.1 op 0x30 true)
    (st .t [pg 0x30 2] id) := by
  unfold Meets; decide +kernel
theorem wit_pageCommandsDo_4 (o : Obligations.PageCommandsDo) :
    Meets (o.2.2.2.2.1 op 0x30 true)
    (st .t [pg 0x30 5] id) := by
  unfold Meets; decide +kernel
theorem wit_pageCommandsDo_5 (o : Obligations.PageCommandsDo) :
    Meets (o.2.2.2.2.2.1 op 0x30 true)
    (st .t [pg 0x30 5]
      (fun h => { h with overruns := [0x30, 0x30] })) := by
  unfold Meets; decide +kernel
theorem wit_pageCommandsDo_6 (o : Obligations.PageCommandsDo) :
    Meets (o.2.2.2.2.2.2.1 0x30)
    (st .t [pg 0x30 1] id) := by
  unfold Meets; decide +kernel
theorem wit_pageCommandsDo_7 (o : Obligations.PageCommandsDo) :
    Meets (o.2.2.2.2.2.2.2.1 0x38)
    (st .t [pg 0x38 3] id) := by
  unfold Meets; decide +kernel
theorem wit_pageCommandsDo_8 (o : Obligations.PageCommandsDo) :
    Meets (o.2.2.2.2.2.2.2.2.1 0x38)
    (st .t [pg 0x38 4] id) := by
  unfold Meets; decide +kernel
theorem wit_pageCommandsDo_9 (o : Obligations.PageCommandsDo) :
    Meets (o.2.2.2.2.2.2.2.2.2.1 0x38 5)
    (st .t [pg 0x38 4]
      (fun h => { h with aborts := [(0x38, 5)] })) := by
  unfold Meets; decide +kernel
theorem wit_pageCommandsDo_10 (o : Obligations.PageCommandsDo) :
    Meets (o.2.2.2.2.2.2.2.2.2.2.1 0x38 1 (by decide) (by decide))
    (st .t [pg 0x38 2] id) := by
  unfold Meets; decide +kernel
theorem wit_pageCommandsDo_11 (o : Obligations.PageCommandsDo) :
    Meets (o.2.2.2.2.2.2.2.2.2.2.2.1)
    (st .t [pg 0x44 2] id) := by
  unfold Meets; decide +kernel
theorem wit_pageCommandsDo_12 (o : Obligations.PageCommandsDo) :
    Meets (o.2.2.2.2.2.2.2.2.2.2.2.2.1 0x38 0 0)
    (st .t [pg 0x38 2] id) := by
  unfold Meets; decide +kernel
theorem wit_pageCommandsDo_13 (o : Obligations.PageCommandsDo) :
    Meets (o.2.2.2.2.2.2.2.2.2.2.2.2.2.1 0x38 0 0)
    (st .t [] id) := by
  unfold Meets; decide +kernel
theorem wit_pageCommandsDo_14 (o : Obligations.PageCommandsDo) :
    Meets (o.2.2.2.2.2.2.2.2.2.2.2.2.2.2.1 op 0x38 255 (by decide) (by decide) (by decide) (by decide) (by decide))
    (st .t [] id) := by
  unfold Meets; decide +kernel
theorem wit_pageCommandsDo_15 (o : Obligations.PageCommandsDo) :
    Meets (o.2.2.2.2.2.2.2.2.2.2.2.2.2.2.2.1 op 0x38)
    (st .t [] id) := by
  unfold Meets; decide +kernel
theorem wit_pageCommandsDo_16 (o : Obligations.PageCommandsDo) :
    Meets (o.2.2.2.2.2.2.2.2.2.2.2.2.2.2.2.2.1 op 0xFFFF (by decide))
    (st .t [] id) := by
  unfold Meets; decide +kernel
theorem wit_pageCommandsDo_17 (o : Obligations.PageCommandsDo) :
    Meets (o.2.2.2.2.2.2.2.2.2.2.2.2.2.2.2.2.2.1 op 1500 (by decide) (by decide))
    (st .t [(R.BLK_CCLK_MHZ, 1500)] id) := by
  unfold Meets; decide +kernel
theorem wit_pageCommandsDo_18 (o : Obligations.PageCommandsDo) :
    Meets (o.2.2.2.2.2.2.2.2.2.2.2.2.2.2.2.2.2.2.1 op 1500 (by decide) (by decide))
    (st .t [(R.BLK_CCLK_MHZ, 200)]
      (fun h => { h with pwr := { lit with core := false } })) := by
  unfold Meets; decide +kernel
theorem wit_pageCommandsDo_19 (o : Obligations.PageCommandsDo) :
    Meets (o.2.2.2.2.2.2.2.2.2.2.2.2.2.2.2.2.2.2.2 op 0x38)
    (st .t [] id) := by
  unfold Meets; decide +kernel

/-! ### Queues, host accesses, time, PTP, trackers, frames -/

theorem wit_queueCommandsDo_0 (o : Obligations.QueueCommandsDo) :
    Meets (o.1 op 0)
    (st .l [pg 2 2, (R.CTX_CFG_EN.at 0, 1)] id) := by
  unfold Meets; decide +kernel
theorem wit_queueCommandsDo_1 (o : Obligations.QueueCommandsDo) :
    Meets (o.2.1 op 0)
    (st .l [pg 2 2, (R.CTX_CFG_EN.at 0, 1), (R.Q_STATE_STATE.at 0, 3)] id) := by
  unfold Meets; decide +kernel
theorem wit_queueCommandsDo_2 (o : Obligations.QueueCommandsDo) :
    Meets (o.2.2.1 op 0)
    (st .l [(R.CTX_CFG_EN.at 0, 1), (R.Q_STATE_STATE.at 0, 3)] id) := by
  unfold Meets; decide +kernel
theorem wit_queueCommandsDo_3 (o : Obligations.QueueCommandsDo) :
    Meets (o.2.2.2.1 0)
    (st .l [(R.Q_STATE_STATE.at 0, 1)] id) := by
  unfold Meets; decide +kernel
theorem wit_queueCommandsDo_4 (o : Obligations.QueueCommandsDo) :
    Meets (o.2.2.2.2.1 op 0)
    (st .l [(R.Q_STATE_STATE.at 0, 2)] id) := by
  unfold Meets; decide +kernel
theorem wit_queueCommandsDo_5 (o : Obligations.QueueCommandsDo) :
    Meets (o.2.2.2.2.2.1 op 0)
    (st .l [(R.Q_STATE_STATE.at 0, 6)] id) := by
  unfold Meets; decide +kernel
theorem wit_queueCommandsDo_6 (o : Obligations.QueueCommandsDo) :
    Meets (o.2.2.2.2.2.2.1 op 0 1 (by decide))
    (st .l [(R.Q_STATE_STATE.at 0, 2)] id) := by
  unfold Meets; decide +kernel
theorem wit_queueCommandsDo_7 (o : Obligations.QueueCommandsDo) :
    Meets (o.2.2.2.2.2.2.2.1 op 0 1)
    (st .l [(R.Q_STATE_STATE.at 0, 5)] id) := by
  unfold Meets; decide +kernel
theorem wit_queueCommandsDo_8 (o : Obligations.QueueCommandsDo) :
    Meets (o.2.2.2.2.2.2.2.2.1 op 0 0)
    (st .l [] id) := by
  unfold Meets; decide +kernel
theorem wit_queueCommandsDo_9 (o : Obligations.QueueCommandsDo) :
    Meets (o.2.2.2.2.2.2.2.2.2.1 op 1)
    (st .t [] id) := by
  unfold Meets; decide +kernel
theorem wit_queueCommandsDo_10 (o : Obligations.QueueCommandsDo) :
    Meets (o.2.2.2.2.2.2.2.2.2.2.1 op 1 1 (by decide))
    (st .t [] id) := by
  unfold Meets; decide +kernel
theorem wit_queueCommandsDo_11 (o : Obligations.QueueCommandsDo) :
    Meets (o.2.2.2.2.2.2.2.2.2.2.2 op 1)
    (st .t [] id) := by
  unfold Meets; decide +kernel
theorem wit_queueWorkDoes_0 (o : Obligations.QueueWorkDoes) :
    Meets (o.1 0)
    (st .l [pg 2 2, pg 0x10 2, (R.Q_STATE_STATE.at 0, 2), (R.Q_CFG_ENGINE.at 0, 1), (R.Q_TAIL_TAIL.at 0, 1)] id) := by
  unfold Meets; decide +kernel
theorem wit_queueWorkDoes_1 (o : Obligations.QueueWorkDoes) :
    Meets (o.2.1 0 4096 1)
    (st .l [] (queued [{ entry [] with chain := some (4096, 1) }])) := by
  unfold Meets; exact ⟨{ entry [] with chain := some (4096, 1) }, by decide +kernel, rfl⟩
theorem wit_queueWorkDoes_2 (o : Obligations.QueueWorkDoes) :
    Meets (o.2.2.1 0 { entry [] with ended := true } [])
    (st .l [] (queued [{ entry [] with ended := true }])) := by
  unfold Meets; decide +kernel
theorem wit_queueWorkDoes_3 (o : Obligations.QueueWorkDoes) :
    Meets (o.2.2.2.1 0)
    (st .l [(R.Q_COAL_TIME.at 0, 1)]
      (fun h => { h with queues := [⟨0, [], false, 1, 5, 0, 0⟩] })) := by
  unfold Meets; decide +kernel
theorem wit_queueWorkDoes_4 (o : Obligations.QueueWorkDoes) :
    Meets (o.2.2.2.2 1 0 0 0 (entry []))
    (st .l [pg 0x10 2, (R.Q_CFG_ENGINE.at 0, 1)] (queued [entry []])) := by
  unfold Meets; decide +kernel
theorem wit_hostAccessesDo_0 (o : Obligations.HostAccessesDo) :
    Meets (o.1 op 0x38 5 (by decide) (by decide))
    (st .t [] id) := by
  unfold Meets; decide +kernel
theorem wit_hostAccessesDo_1 (o : Obligations.HostAccessesDo) :
    Meets (o.2.1 op 1 2 (by decide) (by decide))
    (st .t [] id) := by
  unfold Meets; decide +kernel
theorem wit_hostAccessesDo_2 (o : Obligations.HostAccessesDo) :
    Meets (o.2.2.1 op 0 0 0 (by decide) (by decide) (by decide))
    (st .t [] id) := by
  unfold Meets; decide +kernel
theorem wit_hostAccessesDo_3 (o : Obligations.HostAccessesDo) :
    Meets (o.2.2.2.1 op)
    (st .t [] id) := by
  unfold Meets; decide +kernel
theorem wit_hostAccessesDo_4 (o : Obligations.HostAccessesDo) :
    Meets (o.2.2.2.2 op)
    (st .t [] id) := by
  unfold Meets; decide +kernel
theorem wit_timeCommandsDo_0 (o : Obligations.TimeCommandsDo) :
    Meets (o.1 op)
    (st .t [(R.TIM_STATUS_SERVO, 2)] id) := by
  unfold Meets; decide +kernel
theorem wit_timeCommandsDo_1 (o : Obligations.TimeCommandsDo) :
    Meets (o.2.1 op)
    (st .t [(R.TIM_STATUS_SERVO, 4)] id) := by
  unfold Meets; decide +kernel
theorem wit_timeCommandsDo_2 (o : Obligations.TimeCommandsDo) :
    Meets (o.2.2.1 op)
    (st .t [pg 4 2, (R.TIM_CFG_SOURCE, 3)] id) := by
  unfold Meets; decide +kernel
theorem wit_timeCommandsDo_3 (o : Obligations.TimeCommandsDo) :
    Hyp1 (o.2.2.2.1 (st .t []
      (fun h => { h with tim := { h.tim with setDue := [5] } })).hw.quiet 5) := by
  unfold Hyp1; decide +kernel
theorem wit_timeCommandsDo_4 (o : Obligations.TimeCommandsDo) :
    Meets (o.2.2.2.2.1 op)
    (st .t [pg 4 2, (R.TIM_CFG_SOURCE, 0)] id) := by
  unfold Meets; decide +kernel
theorem wit_timeCommandsDo_5 (o : Obligations.TimeCommandsDo) :
    Meets (o.2.2.2.2.2.1 0)
    (st .t [pg 0x2C 2, (R.CUL_PORT_CTL_INSVC.at 0, 1)] (linked 0 id)) := by
  unfold Meets; decide +kernel
theorem wit_timeCommandsDo_6 (o : Obligations.TimeCommandsDo) :
    Meets (o.2.2.2.2.2.2.1 0 ({ fr 7 [] with cls := 2 }).bytes 3 false false false 1 { fr 7 [] with cls := 2 })
    (st .t [pg 0x2C 2, (R.CUL_PORT_CTL_INSVC.at 0, 1)] (linked 0 id)) := by
  unfold Meets; decide +kernel
theorem wit_timeCommandsDo_7 (o : Obligations.TimeCommandsDo) :
    Meets (o.2.2.2.2.2.2.2.1 0 ({ fr 7 [] with cls := 2 }).bytes 3 false false false 1 5 7 { fr 7 [] with cls := 2 })
    (st .t [pg 0x2C 2, (R.CUL_PORT_CTL_INSVC.at 0, 1)] (linked 0 fun k => { k with probeT := some 5 })) := by
  unfold Meets; decide +kernel
theorem wit_timeCommandsDo_8 (o : Obligations.TimeCommandsDo) :
    Meets (o.2.2.2.2.2.2.2.2.1 0x200 ({ fr 7 [] with cls := 2 }).bytes 3 false false false (1, none) 5 { fr 7 [] with cls := 2 })
    (st .g [pg 0x28 2, pg 5 2, (R.FAB_PORT_CFG_EN.at 0, 1), (R.FAB_PORT_CFG_LONGHAUL.at 0, 1)]
      (fun h => { linked 0x200 id h with ptp := { h.ptp with ports := [⟨0, [5], false, false, 0, [], none, 0, none, 0, none, []⟩] } })) := by
  unfold Meets; decide +kernel
theorem wit_timeCommandsDo_9 (o : Obligations.TimeCommandsDo) :
    Meets (o.2.2.2.2.2.2.2.2.2.1)
    (st .t [(R.TIM_STATUS_SERVO, 4)] id) := by
  unfold Meets; decide +kernel
theorem wit_timeCommandsDo_10 (o : Obligations.TimeCommandsDo) :
    Meets (o.2.2.2.2.2.2.2.2.2.2.1)
    (st .t [(R.TIM_STATUS_SERVO, 4)]
      (fun h => { h with frc := 2 ^ 48, tim := { h.tim with holdBound := 10 } })) := by
  unfold Meets; decide +kernel
theorem wit_timeCommandsDo_11 (o : Obligations.TimeCommandsDo) :
    Meets (o.2.2.2.2.2.2.2.2.2.2.2.1)
    (st .t []
      (fun h => { h with tim := { h.tim with srcUntil := 5 } })) := by
  unfold Meets; decide +kernel
theorem wit_timeCommandsDo_12 (o : Obligations.TimeCommandsDo) :
    Meets (o.2.2.2.2.2.2.2.2.2.2.2.2.1 5)
    (st .l [(R.TIM_STATUS_TRANSIENT, 1)]
      (fun h => { h with tim := { h.tim with belowSince := some 5 } })) := by
  unfold Meets; decide +kernel
theorem wit_timeCommandsDo_13 (o : Obligations.TimeCommandsDo) :
    Meets (o.2.2.2.2.2.2.2.2.2.2.2.2.2.1 5)
    (st .t [(R.TIM_STATUS_TRANSIENT, 1)]
      (fun h => { h with tim := { h.tim with belowSince := some 5 } })) := by
  unfold Meets; decide +kernel
theorem wit_timeCommandsDo_14 (o : Obligations.TimeCommandsDo) :
    Meets (o.2.2.2.2.2.2.2.2.2.2.2.2.2.2 0 ⟨0, 6, .entry 0, 0, 0, 1000, false⟩)
    (st .t []
      (fun h => { h with tim := { h.tim with timers := [⟨0, 6, .entry 0, 0, 0, 1000, false⟩] } })) := by
  unfold Meets; decide +kernel
theorem wit_ptpCommandsDo_0 (o : Obligations.PtpCommandsDo) :
    Meets (o.1 0 [] true)
    (st .t [pg 5 2] id) := by
  unfold Meets; decide +kernel
theorem wit_ptpCommandsDo_1 (o : Obligations.PtpCommandsDo) :
    Meets (o.2.1 0 [])
    (st .t [] id) := by
  unfold Meets; decide +kernel
theorem wit_ptpCommandsDo_2 (o : Obligations.PtpCommandsDo) :
    Meets (o.2.2.1 0 [])
    (st .t [pg 5 2] id) := by
  unfold Meets; decide +kernel
theorem wit_ptpCommandsDo_3 (o : Obligations.PtpCommandsDo) :
    Meets (o.2.2.2.1 0 (ptpBytes 1) ((readPtp (ptpBytes 1)).get (by decide)))
    (st .t [pg 5 2, (R.PTP_CFG_OC_EN, 1), (R.PTP_CFG_MASTER, 1)] id) := by
  unfold Meets; decide +kernel
theorem wit_ptpCommandsDo_4 (o : Obligations.PtpCommandsDo) :
    Meets (o.2.2.2.2.1 0 (ptpBytes 8) ((readPtp (ptpBytes 8)).get (by decide)))
    (st .t [pg 5 2, (R.PTP_CFG_TC_EN, 1), (R.PTP_TC_FWD_MASK.at 0, 2)] id) := by
  unfold Meets; decide +kernel
theorem wit_ptpCommandsDo_5 (o : Obligations.PtpCommandsDo) :
    Meets (o.2.2.2.2.2.1 0)
    (st .t [pg 5 2] id) := by
  unfold Meets; decide +kernel
theorem wit_ptpCommandsDo_6 (o : Obligations.PtpCommandsDo) :
    Meets (o.2.2.2.2.2.2.1 0 1 2 [])
    (st .t [pg 5 2]
      (fun h => { h with ptp := { h.ptp with ports := [⟨0, [], false, false, 0, [(0, 1, 2)], none, 0, none, 0, none, []⟩] } })) := by
  unfold Meets; decide +kernel
theorem wit_ptpCommandsDo_7 (o : Obligations.PtpCommandsDo) :
    Meets (o.2.2.2.2.2.2.2.1 0 1 2 [])
    (st .t [pg 5 2]
      (fun h => { h with ptp := { h.ptp with ports := [⟨0, [], false, false, 0, [(1, 1, 2)], none, 0, none, 0, none, []⟩] } })) := by
  unfold Meets; decide +kernel
theorem wit_ptpCommandsDo_8 (o : Obligations.PtpCommandsDo) :
    Meets (o.2.2.2.2.2.2.2.2.1 0)
    (st .t [pg 5 2, (R.PTP_CFG_OC_EN, 1), (R.PTP_CFG_MASTER, 1)] id) := by
  unfold Meets; decide +kernel
theorem wit_ptpCommandsDo_9 (o : Obligations.PtpCommandsDo) :
    Meets (o.2.2.2.2.2.2.2.2.2.1)
    (st .t [pg 5 2, (R.PTP_CFG_OC_EN, 1)]
      (fun h => { h with ptp := { h.ptp with alive := true } })) := by
  unfold Meets; decide +kernel
theorem wit_ptpCommandsDo_10 (o : Obligations.PtpCommandsDo) :
    Meets (o.2.2.2.2.2.2.2.2.2.2.1 0)
    (st .t [pg 5 2, (R.PTP_CFG_OC_EN, 1), (R.PTP_CFG_MASTER, 1)] id) := by
  unfold Meets; decide +kernel
theorem wit_ptpCommandsDo_11 (o : Obligations.PtpCommandsDo) :
    Meets (o.2.2.2.2.2.2.2.2.2.2.2.1)
    (st .t [pg 5 2, (R.PTP_CFG_OC_EN, 1), (R.PTP_CFG_BACKUP_EN, 1)]
      (fun h => { h with ptp := { h.ptp with alive := true } })) := by
  unfold Meets; decide +kernel
theorem wit_ptpCommandsDo_12 (o : Obligations.PtpCommandsDo) :
    Meets (o.2.2.2.2.2.2.2.2.2.2.2.2.1)
    (st .t [pg 5 2, (R.PTP_CFG_OC_EN, 1), (R.PTP_CFG_BACKUP_EN, 0)]
      (fun h => { h with ptp := { h.ptp with alive := true } })) := by
  unfold Meets; decide +kernel
theorem wit_ptpCommandsDo_13 (o : Obligations.PtpCommandsDo) :
    Meets (o.2.2.2.2.2.2.2.2.2.2.2.2.2.1 0 (5, 7) 1 2 3 4)
    (st .g [pg 5 2, (R.FAB_PORT_CFG_LONGHAUL.at 0, 1)] (linked 0x200 fun k => { k with exch := some (5, 7) })) := by
  unfold Meets; decide +kernel
theorem wit_ptpCommandsDo_14 (o : Obligations.PtpCommandsDo) :
    Meets (o.2.2.2.2.2.2.2.2.2.2.2.2.2.2 0 1 2 3 4)
    (st .g [pg 5 2, (R.FAB_PORT_CFG_LONGHAUL.at 0, 1)] id) := by
  unfold Meets; decide +kernel
theorem wit_trackerCommandsDo_0 (o : Obligations.TrackerCommandsDo) :
    Meets (o.1)
    (st .l [] id) := by
  unfold Meets; decide +kernel
theorem wit_trackerCommandsDo_1 (o : Obligations.TrackerCommandsDo) :
    Meets (o.2.1 0 4 (by decide))
    (st .t [(R.STP_IN_MASK_MASK.at 0, 1), (R.STP_IN_CFG_FILTER.at 0, 4)] id) := by
  unfold Meets; decide +kernel
theorem wit_trackerCommandsDo_2 (o : Obligations.TrackerCommandsDo) :
    Meets (o.2.2.1 14 (by decide))
    (st .l [] id) := by
  unfold Meets; decide +kernel
theorem wit_trackerCommandsDo_3 (o : Obligations.TrackerCommandsDo) :
    Hyp2 (o.2.2.2.1 (st .l []
      (fun h => { h with stp := { h.stp with marks := [14] } })).hw.quiet 14) := by
  unfold Hyp2; decide +kernel
theorem wit_trackerCommandsDo_4 (o : Obligations.TrackerCommandsDo) :
    Hyp3 (o.2.2.2.2.1 (st .l []
      (fun h => { h with stp := { h.stp with marks := [14, 0] } })).hw.quiet 0 14) := by
  unfold Hyp3; decide +kernel
theorem wit_trackerCommandsDo_5 (o : Obligations.TrackerCommandsDo) :
    Meets (o.2.2.2.2.2.1 0)
    (st .l [pg 6 2, (R.TRK_STAT_STATE.at 0, 3)]
      (fun h => { h with stp := { h.stp with trackers := [{ Tracker.blank 0 with phase0 := 0xFFFF * 2 ^ 48 }] } })) := by
  unfold Meets; decide +kernel
theorem wit_trackerCommandsDo_6 (o : Obligations.TrackerCommandsDo) :
    Meets (o.2.2.2.2.2.2.1 0)
    (st .l [pg 6 2, (R.TRK_STAT_STATE.at 0, 3)] id) := by
  unfold Meets; decide +kernel
theorem wit_trackerCommandsDo_7 (o : Obligations.TrackerCommandsDo) :
    Meets (o.2.2.2.2.2.2.2.1 0)
    (st .l [pg 6 2, (R.TRK_STAT_STATE.at 0, 2)] id) := by
  unfold Meets; decide +kernel
theorem wit_trackerCommandsDo_8 (o : Obligations.TrackerCommandsDo) :
    Meets (o.2.2.2.2.2.2.2.2.1 0)
    (st .l [pg 6 2] id) := by
  unfold Meets; decide +kernel
theorem wit_trackerCommandsDo_9 (o : Obligations.TrackerCommandsDo) :
    Meets (o.2.2.2.2.2.2.2.2.2.1 0)
    (st .l [pg 6 2] id) := by
  unfold Meets; decide +kernel
theorem wit_trackerCommandsDo_10 (o : Obligations.TrackerCommandsDo) :
    Meets (o.2.2.2.2.2.2.2.2.2.2.1 0)
    (st .l [] id) := by
  unfold Meets; decide +kernel
theorem wit_trackerCommandsDo_11 (o : Obligations.TrackerCommandsDo) :
    Meets (o.2.2.2.2.2.2.2.2.2.2.2.1 0)
    (st .l [] id) := by
  unfold Meets; decide +kernel
theorem wit_trackerCommandsDo_12 (o : Obligations.TrackerCommandsDo) :
    Hyp7 (o.2.2.2.2.2.2.2.2.2.2.2.2.1 (st .l [pg 6 2, (R.TRK_STAT_STATE.at 0, 3)]
      (fun h => { h with stp := { h.stp with table := [sch 15], trackers := [{ Tracker.blank 0 with armed := true }], points := [.entry 0 false] } })).hw.quiet 0 0 (sch 15) []) := by
  unfold Hyp7; exact ⟨by decide +kernel, by decide +kernel, by decide +kernel, by decide +kernel, by decide +kernel, by decide +kernel, by decide +kernel⟩
theorem wit_trackerCommandsDo_13 (o : Obligations.TrackerCommandsDo) :
    Hyp8 (o.2.2.2.2.2.2.2.2.2.2.2.2.2.1 (st .t [pg 6 2, (R.TRK_STAT_STATE.at 0, 3), (R.TRK_STAT_STATE.at 1, 3)]
      (fun h => { h with stp := { h.stp with table := [sch 15, { sch 15 with num := 1, tracker := 1 }], trackers := [{ Tracker.blank 0 with armed := true }, { Tracker.blank 1 with armed := true }], points := [.entry 1 false] } })).hw.quiet 1 0 { sch 15 with num := 1, tracker := 1 } [] 0 (0, sch 15, false)) := by
  unfold Hyp8; decide +kernel
theorem wit_trackerCommandsDo_14 (o : Obligations.TrackerCommandsDo) :
    Hyp7 (o.2.2.2.2.2.2.2.2.2.2.2.2.2.2.1 (st .l [pg 6 2, (R.TRK_STAT_STATE.at 0, 3), (R.PH_CFG_MODE.at 3, 1)]
      (fun h => { h with stp := { h.stp with table := [{ sch 3 with kind := 2 }], trackers := [{ Tracker.blank 0 with armed := true }], points := [.entry 0 true] } })).hw.quiet 0 0 { sch 3 with kind := 2 } []) := by
  unfold Hyp7; decide +kernel
theorem wit_trackerCommandsDo_15 (o : Obligations.TrackerCommandsDo) :
    Hyp4 (o.2.2.2.2.2.2.2.2.2.2.2.2.2.2.2.1 (st .l [pg 6 2]
      (fun h => { h with stp := { h.stp with table := [sch 15], points := [.timed 0 5] } })).hw.quiet 0 5 (sch 15)) := by
  unfold Hyp4; decide +kernel
theorem wit_trackerCommandsDo_16 (o : Obligations.TrackerCommandsDo) :
    Meets (o.2.2.2.2.2.2.2.2.2.2.2.2.2.2.2.2.1 op 0)
    (st .t [] id) := by
  unfold Meets; decide +kernel
theorem wit_trackerCommandsDo_17 (o : Obligations.TrackerCommandsDo) :
    Meets (o.2.2.2.2.2.2.2.2.2.2.2.2.2.2.2.2.2.1 op 0 { ((st .t [pg 6 2] id)).hw.quiet.reply 0 with claims := [] })
    (st .t [pg 6 2] id) := by
  unfold Meets; exact ⟨by decide +kernel, by decide +kernel, by decide +kernel, by decide +kernel, by decide +kernel, rfl⟩
theorem wit_trackerCommandsDo_18 (o : Obligations.TrackerCommandsDo) :
    Meets (o.2.2.2.2.2.2.2.2.2.2.2.2.2.2.2.2.2.2.1 op 0)
    (st .t [(R.SCH_CTL_KIND.at 0, 1), (R.SCH_CTL_ACTION.at 0, 9)] id) := by
  unfold Meets; decide +kernel
theorem wit_trackerCommandsDo_19 (o : Obligations.TrackerCommandsDo) :
    Meets (o.2.2.2.2.2.2.2.2.2.2.2.2.2.2.2.2.2.2.2.1 op 0)
    (st .t [] id) := by
  unfold Meets; decide +kernel
theorem wit_trackerCommandsDo_20 (o : Obligations.TrackerCommandsDo) :
    Meets (o.2.2.2.2.2.2.2.2.2.2.2.2.2.2.2.2.2.2.2.2.1 op 1 (by decide))
    (st .l [] id) := by
  unfold Meets; decide +kernel
theorem wit_trackerCommandsDo_21 (o : Obligations.TrackerCommandsDo) :
    Meets (o.2.2.2.2.2.2.2.2.2.2.2.2.2.2.2.2.2.2.2.2.2 op 3 1 (by decide) (by decide))
    (st .t [] id) := by
  unfold Meets; decide +kernel
theorem wit_frameCommandsDo_0 (o : Obligations.FrameCommandsDo) :
    Meets (o.1 op)
    (st .l [pg 9 2] id) := by
  unfold Meets; decide +kernel
theorem wit_frameCommandsDo_1 (o : Obligations.FrameCommandsDo) :
    Meets (o.2.1 op 3)
    (st .l [pg 9 2] id) := by
  unfold Meets; decide +kernel
theorem wit_frameCommandsDo_2 (o : Obligations.FrameCommandsDo) :
    Meets (o.2.2.1 op)
    (st .l [pg 9 2] id) := by
  unfold Meets; decide +kernel
theorem wit_frameCommandsDo_3 (o : Obligations.FrameCommandsDo) :
    Meets (o.2.2.2.1 op 3)
    (st .l [] id) := by
  unfold Meets; decide +kernel
theorem wit_frameCommandsDo_4 (o : Obligations.FrameCommandsDo) :
    Meets (o.2.2.2.2.1)
    (st .l [pg 9 2] id) := by
  unfold Meets; decide +kernel
theorem wit_frameCommandsDo_5 (o : Obligations.FrameCommandsDo) :
    Meets (o.2.2.2.2.2.1 op 5 (by decide))
    (st .l [pg 8 2, (R.CNT_SRC_CLASS.at 0, 7)] id) := by
  unfold Meets; decide +kernel
theorem wit_frameCommandsDo_6 (o : Obligations.FrameCommandsDo) :
    Meets (o.2.2.2.2.2.2.1 op 5)
    (st .l [] id) := by
  unfold Meets; decide +kernel
theorem wit_frameCommandsDo_7 (o : Obligations.FrameCommandsDo) :
    Meets (o.2.2.2.2.2.2.2.1 0 ⟨0, [], [], some 5, none, false, Stamp.zero⟩)
    (st .t [pg 0xA 2]
      (fun h => { h with prx := { h.prx with proxies := [⟨0, [], [], some 5, none, false, Stamp.zero⟩] } })) := by
  unfold Meets; decide +kernel
theorem wit_frameCommandsDo_8 (o : Obligations.FrameCommandsDo) :
    Meets (o.2.2.2.2.2.2.2.2.1 0 [] 0)
    (st .t [pg 0xA 2]
      (fun h => { h with prx := { h.prx with proxies := [⟨0, [], [], none, none, true, Stamp.zero⟩] } })) := by
  unfold Meets; decide +kernel
theorem wit_frameCommandsDo_9 (o : Obligations.FrameCommandsDo) :
    Meets (o.2.2.2.2.2.2.2.2.2.1 0 [] 0)
    (st .t [pg 0xA 2, (R.PRX_SEG_COUNT.at 0, 1)]
      (fun h => { h with prx := { h.prx with proxies := [⟨0, [], [], none, none, true, Stamp.zero⟩] } })) := by
  unfold Meets; decide +kernel
theorem wit_frameCommandsDo_10 (o : Obligations.FrameCommandsDo) :
    Meets (o.2.2.2.2.2.2.2.2.2.2 0 [] 0)
    (st .t [pg 0xA 5]
      (fun h => { h with prx := { h.prx with proxies := [⟨0, [], [], none, none, true, Stamp.zero⟩] } })) := by
  unfold Meets; decide +kernel

/-! ### Taps, checks, the tree engine, the sketch array, links -/

theorem wit_tapCommandsDo_0 (o : Obligations.TapCommandsDo) :
    Meets (o.1 0 0 0 [] false false false (by decide))
    (st .t [pg 0x10 2, (R.TAP_CFG_EN.at 0, 1)] id) := by
  unfold Meets; decide +kernel
theorem wit_tapCommandsDo_1 (o : Obligations.TapCommandsDo) :
    Meets (o.2.1 0 0 0 [] 0 0 (by decide))
    (st .t [pg 0x10 2, (R.TAP_CFG_EN.at 0, 1), (R.TAP_CFG_HDR.at 0, 0), (R.BIND_CTL_EN.at 0, 1), (R.BIND_CTL_TAP.at 0, 0), (R.BIND_MATCH_MASK.at 0, 0), (R.BIND_CTL_MODE.at 0, 1), (R.BIND_CTL_FMT_OVR.at 0, 0)] id) := by
  unfold Meets; decide +kernel
theorem wit_tapCommandsDo_2 (o : Obligations.TapCommandsDo) :
    Meets (o.2.2.1 0 0 0 [] 0 0 (by decide) (by decide))
    (st .t [pg 0x10 2, (R.TAP_CFG_EN.at 0, 1), (R.TAP_CFG_HDR.at 0, 1), (R.BIND_CTL_EN.at 0, 1), (R.BIND_CTL_TAP.at 0, 0), (R.BIND_MATCH_MASK.at 0, 0), (R.BIND_CTL_MODE.at 0, 1), (R.BIND_CTL_FMT_OVR.at 0, 0)] id) := by
  unfold Meets; decide +kernel
theorem wit_tapCommandsDo_3 (o : Obligations.TapCommandsDo) :
    Meets (o.2.2.2.1 0 0 0 [] false false false tens)
    (st .t []
      (fun h => { h with gar := { h.gar with tensors := [tens] } })) := by
  unfold Meets; decide +kernel
theorem wit_tapCommandsDo_4 (o : Obligations.TapCommandsDo) :
    Meets (o.2.2.2.2.1 0 [] tens)
    (st .t [pg 0x10 2]
      (fun h => { h with gar := { h.gar with tensors := [tens] } })) := by
  unfold Meets; decide +kernel
theorem wit_tapCommandsDo_5 (o : Obligations.TapCommandsDo) :
    Meets (o.2.2.2.2.2.1 0 0 [] false tens)
    (st .t [pg 0x10 2]
      (fun h => { h with gar := { h.gar with tensors := [tens] } })) := by
  unfold Meets; decide +kernel
theorem wit_tapCommandsDo_6 (o : Obligations.TapCommandsDo) :
    Meets (o.2.2.2.2.2.2.1 0 0 [] false false tens)
    (st .t [pg 0x10 2]
      (fun h => { h with gar := { h.gar with tensors := [tens] } })) := by
  unfold Meets; decide +kernel
theorem wit_tapCommandsDo_7 (o : Obligations.TapCommandsDo) :
    Meets (o.2.2.2.2.2.2.2.1 0 [] tens ((((((st .t [pg 0x10 2]
      (fun h => { h with gar := { h.gar with tensors := [tens] } }))).hw.quiet.countBeat 0 false).tensorData tens []).tensor 0).get (by decide +kernel)))
    (st .t [pg 0x10 2]
      (fun h => { h with gar := { h.gar with tensors := [tens] } })) := by
  unfold Meets; decide +kernel
theorem wit_tapCommandsDo_8 (o : Obligations.TapCommandsDo) :
    Meets (o.2.2.2.2.2.2.2.2.1 0 tens)
    (st .t [pg 0x10 2]
      (fun h => { h with gar := { h.gar with tensors := [tens] } })) := by
  unfold Meets; decide +kernel
theorem wit_tapCommandsDo_9 (o : Obligations.TapCommandsDo) :
    Meets (o.2.2.2.2.2.2.2.2.2.1 0 (by decide))
    (st .t [(R.WIN_STAT_CLOSING.at 0, 1)] id) := by
  unfold Meets; decide +kernel
theorem wit_tapCommandsDo_10 (o : Obligations.TapCommandsDo) :
    Meets (o.2.2.2.2.2.2.2.2.2.2.1 op 0 (by decide))
    (st .t [pg 0x10 2] id) := by
  unfold Meets; decide +kernel
theorem wit_tapCommandsDo_11 (o : Obligations.TapCommandsDo) :
    Meets (o.2.2.2.2.2.2.2.2.2.2.2.1 op 15 (by decide))
    (st .t [(R.WIN_STAT_OPEN.at 15, 1)] id) := by
  unfold Meets; decide +kernel
theorem wit_tapCommandsDo_12 (o : Obligations.TapCommandsDo) :
    Meets (o.2.2.2.2.2.2.2.2.2.2.2.2 op 15 (by decide))
    (st .t [] id) := by
  unfold Meets; decide +kernel
theorem wit_checkCommandsDo_0 (o : Obligations.CheckCommandsDo) :
    Meets (o.1 op)
    (st .t [pg 0x10 2] id) := by
  unfold Meets; decide +kernel
theorem wit_checkCommandsDo_1 (o : Obligations.CheckCommandsDo) :
    Meets (o.2.1 0 (0, []))
    (st .t []
      (fun h => { h with chk := { h.chk with raw := [(0, [])] } })) := by
  unfold Meets; decide +kernel
theorem wit_checkCommandsDo_2 (o : Obligations.CheckCommandsDo) :
    Meets (o.2.2.1 0 (0, chkBytes) ((((st .t []
      (fun h => { h with chk := { h.chk with raw := [(0, chkBytes)] } }))).hw.quiet.readCheck chkBytes).get (by decide +kernel)))
    (st .t []
      (fun h => { h with chk := { h.chk with raw := [(0, chkBytes)] } })) := by
  unfold Meets; decide +kernel
theorem wit_checkCommandsDo_3 (o : Obligations.CheckCommandsDo) :
    Meets (o.2.2.2.1 op ⟨0, chk5 1, [], []⟩)
    (st .t [pg 0x10 2]
      (fun h => { h with chk := { h.chk with entries := [⟨0, chk5 1, [], []⟩] } })) := by
  unfold Meets; decide +kernel
theorem wit_checkCommandsDo_4 (o : Obligations.CheckCommandsDo) :
    Meets (o.2.2.2.2.1 op ⟨0, chk5 1, [], []⟩)
    (st .t [pg 0x10 0]
      (fun h => { h with chk := { h.chk with entries := [⟨0, chk5 1, [], []⟩] } })) := by
  unfold Meets; decide +kernel
theorem wit_checkCommandsDo_5 (o : Obligations.CheckCommandsDo) :
    Meets (o.2.2.2.2.2.1 (held5 0x20 []))
    (st .t [(R.FAB_ID_NODE, 0)]
      (fun h => { h with chk := { h.chk with entries := [⟨0, chk5 0, [], []⟩] }, flw := { h.flw with held := [held5 0x20 []] } })) := by
  unfold Meets; decide +kernel
theorem wit_checkCommandsDo_6 (o : Obligations.CheckCommandsDo) :
    Meets (o.2.2.2.2.2.2 0 ⟨0, chk5 0, [⟨0, 0, []⟩], []⟩ ⟨0, 0, []⟩)
    (st .t []
      (fun h => { h with chk := { h.chk with entries := [⟨0, chk5 0, [⟨0, 0, []⟩], []⟩] } })) := by
  unfold Meets; decide +kernel
theorem wit_agateCommandsDo_0 (o : Obligations.AgateCommandsDo) :
    Meets (o.1 ⟨ent0, 0, 0, 0, none, false, false, none⟩ [])
    (st .t [pg 0x20 2]
      (fun h => { h with agt := { h.agt with bounds := [⟨ent0, 0, 0, 0, none, false, false, none⟩] } })) := by
  unfold Meets; decide +kernel
theorem wit_agateCommandsDo_1 (o : Obligations.AgateCommandsDo) :
    Meets (o.2.1)
    (st .t [pg 0x20 5] id) := by
  unfold Meets; decide +kernel
theorem wit_agateCommandsDo_2 (o : Obligations.AgateCommandsDo) :
    Meets (o.2.2.1 (samp none) 0)
    (st .t [pg 0x20 2]
      (fun h => { h with agt := { h.agt with samples := [samp none] } })) := by
  unfold Meets; decide +kernel
theorem wit_agateCommandsDo_3 (o : Obligations.AgateCommandsDo) :
    Meets (o.2.2.2.1 0 (samp (some 0)))
    (st .t [pg 0x20 2]
      (fun h => { h with agt := { h.agt with samples := [samp (some 0)] } })) := by
  unfold Meets; decide +kernel
theorem wit_agateCommandsDo_4 (o : Obligations.AgateCommandsDo) :
    Meets (o.2.2.2.2.1 0 [0x330, 0, 64])
    (st .l [(R.Q_CFG_ENGINE.at 0, 3), (R.Q_CFG_CTX.at 0, 0), (R.AGT_MS_CTL_CTX.at 0, 0)] (runs [0x330, 0, 64])) := by
  unfold Meets; decide +kernel
theorem wit_agateCommandsDo_5 (o : Obligations.AgateCommandsDo) :
    Meets (o.2.2.2.2.2.1 0 [0x331, 0, 2 ^ 32])
    (st .l [(R.Q_CFG_ENGINE.at 0, 3)] (runs [0x331, 0, 2 ^ 32])) := by
  unfold Meets; decide +kernel
theorem wit_agateCommandsDo_6 (o : Obligations.AgateCommandsDo) :
    Meets (o.2.2.2.2.2.2.1 0 [0x332, 0, 0xFFFFFFFF00000001] (run [0x332, 0, 0xFFFFFFFF00000001]))
    (st .l [(R.Q_CFG_ENGINE.at 0, 3), (R.Q_CFG_CTX.at 0, 0), (R.AGT_MS_CTL_CTX.at 0, 0)]
      (fun h => runs [0x332, 0, 0xFFFFFFFF00000001] { h with agt := { h.agt with slots := [⟨0, some ⟨[], []⟩, none, none⟩] } })) := by
  unfold Meets; decide +kernel
theorem wit_agateCommandsDo_7 (o : Obligations.AgateCommandsDo) :
    Meets (o.2.2.2.2.2.2.2.1 op)
    (st .l [(R.AGT_MS_STAT_STANDBY_VALID.at 0, 1)] id) := by
  unfold Meets; decide +kernel
theorem wit_agateCommandsDo_8 (o : Obligations.AgateCommandsDo) :
    Meets (o.2.2.2.2.2.2.2.2.1 op)
    (st .l [] id) := by
  unfold Meets; decide +kernel
theorem wit_agateCommandsDo_9 (o : Obligations.AgateCommandsDo) :
    Meets (o.2.2.2.2.2.2.2.2.2.1 op)
    (st .l [] id) := by
  unfold Meets; decide +kernel
theorem wit_agateCommandsDo_10 (o : Obligations.AgateCommandsDo) :
    Meets (o.2.2.2.2.2.2.2.2.2.2.1)
    (st .l [(R.AGT_COL_STAT_COL_PENDING, 1)] id) := by
  unfold Meets; decide +kernel
theorem wit_agateCommandsDo_11 (o : Obligations.AgateCommandsDo) :
    Meets (o.2.2.2.2.2.2.2.2.2.2.2 0)
    (st .l [(R.AGT_MS_STAT_SWAP_PENDING.at 0, 1)] id) := by
  unfold Meets; decide +kernel
theorem wit_garnetDescriptorsDo_0 (o : Obligations.GarnetDescriptorsDo) :
    Meets (o.1 0 [0x18000101])
    (st .l [(R.Q_CFG_ENGINE.at 0, 1)] (runs [0x18000101])) := by
  unfold Meets; decide +kernel
theorem wit_garnetDescriptorsDo_1 (o : Obligations.GarnetDescriptorsDo) :
    Meets (o.2.1 0 [0x18000101])
    (st .l [(R.Q_CFG_ENGINE.at 0, 1), (R.ACC_STAT_OPEN.at 0, 1)] (runs [0x18000101])) := by
  unfold Meets; decide +kernel
theorem wit_garnetDescriptorsDo_2 (o : Obligations.GarnetDescriptorsDo) :
    Meets (o.2.2.1 0 [0x102, 0, 64] 0 (run [0x102, 0, 64]))
    (st .l [(R.Q_CFG_ENGINE.at 0, 1), (R.Q_CFG_CTX.at 0, 0), (R.CTX_OPB_KIB.at 0, 1), (R.CTX_OPB_BASE.at 0, 0)] (runs [0x102, 0, 64])) := by
  unfold Meets; decide +kernel
theorem wit_garnetDescriptorsDo_3 (o : Obligations.GarnetDescriptorsDo) :
    Meets (o.2.2.2.1 0 [0x103, 0, 2] [0])
    (st .l [(R.Q_CFG_ENGINE.at 0, 1), (R.Q_CFG_CTX.at 0, 0), (R.CTX_OPB_KIB.at 0, 1), (R.CTX_OPB_BASE.at 0, 0), (R.ACC_STAT_OPEN.at 0, 1), (R.ACC_STAT_ORIGIN.at 0, 1), (R.ACC_STAT_CTX.at 0, 0)] (runs [0x103, 0, 2])) := by
  unfold Meets; decide +kernel
theorem wit_garnetDescriptorsDo_4 (o : Obligations.GarnetDescriptorsDo) :
    Meets (o.2.2.2.2.1 0 [0x104])
    (st .l [(R.Q_CFG_ENGINE.at 0, 1), (R.Q_CFG_CTX.at 0, 0), (R.ACC_STAT_OPEN.at 0, 1), (R.ACC_STAT_ORIGIN.at 0, 1), (R.ACC_STAT_CTX.at 0, 0)] (runs [0x104])) := by
  unfold Meets; decide +kernel
theorem wit_garnetDescriptorsDo_5 (o : Obligations.GarnetDescriptorsDo) :
    Meets (o.2.2.2.2.2.1 0 [0x4000104] (run [0x4000104]))
    (st .l [(R.Q_CFG_ENGINE.at 0, 1), (R.Q_CFG_CTX.at 0, 0), (R.ACC_STAT_OPEN.at 0, 1), (R.ACC_STAT_ORIGIN.at 0, 1), (R.ACC_STAT_CTX.at 0, 0)] (runs [0x4000104])) := by
  unfold Meets; decide +kernel
theorem wit_garnetDescriptorsDo_6 (o : Obligations.GarnetDescriptorsDo) :
    Meets (o.2.2.2.2.2.2.1 0 [0x210, 0, 0x10000] (run [0x210, 0, 0x10000]))
    (st .l [(R.Q_CFG_ENGINE.at 0, 2), (R.Q_CFG_CTX.at 0, 0), (R.CTX_DENSE_FIRST.at 0, 0), (R.CTX_DENSE_COUNT.at 0, 1), (R.GAR_DENSE_DENSE, 1)] (runs [0x210, 0, 0x10000])) := by
  unfold Meets; decide +kernel
theorem wit_garnetDescriptorsDo_7 (o : Obligations.GarnetDescriptorsDo) :
    Meets (o.2.2.2.2.2.2.2.1 0 [0x211, 0, 0x10002] 0 0 [0])
    (st .l [(R.Q_CFG_ENGINE.at 0, 2), (R.Q_CFG_CTX.at 0, 0), (R.CTX_OPB_KIB.at 0, 1), (R.CTX_OPB_BASE.at 0, 0), (R.CTX_DENSE_FIRST.at 0, 0), (R.CTX_DENSE_COUNT.at 0, 1), (R.GAR_DENSE_DENSE, 1)] (runs [0x211, 0, 0x10002])) := by
  unfold Meets; decide +kernel
theorem wit_garnetDescriptorsDo_8 (o : Obligations.GarnetDescriptorsDo) :
    Meets (o.2.2.2.2.2.2.2.2.1 0 [0x212, 0, 64] 0 (run [0x212, 0, 64]))
    (st .l [(R.Q_CFG_ENGINE.at 0, 2), (R.Q_CFG_CTX.at 0, 0), (R.CTX_OPB_KIB.at 0, 1), (R.CTX_OPB_BASE.at 0, 0)] (runs [0x212, 0, 64])) := by
  unfold Meets; decide +kernel
theorem wit_garnetDescriptorsDo_9 (o : Obligations.GarnetDescriptorsDo) :
    Meets (o.2.2.2.2.2.2.2.2.2 0 [0x620, 0, 32] (run [0x620, 0, 32]))
    (st .l [(R.Q_CFG_ENGINE.at 0, 6)] (runs [0x620, 0, 32])) := by
  unfold Meets; decide +kernel
theorem wit_macroCommandsDo_0 (o : Obligations.MacroCommandsDo) :
    Meets (o.1 op 0)
    (st .l [] id) := by
  unfold Meets; decide +kernel
theorem wit_macroCommandsDo_1 (o : Obligations.MacroCommandsDo) :
    Meets (o.2.1 op 5)
    (st .l [] id) := by
  unfold Meets; decide +kernel
theorem wit_macroCommandsDo_2 (o : Obligations.MacroCommandsDo) :
    Meets (o.2.2.1 0)
    (st .l [pg 0x10 2] id) := by
  unfold Meets; decide +kernel
theorem wit_macroCommandsDo_3 (o : Obligations.MacroCommandsDo) :
    Meets (o.2.2.2.1 0)
    (st .l [pg 0x10 2] id) := by
  unfold Meets; decide +kernel
theorem wit_macroCommandsDo_4 (o : Obligations.MacroCommandsDo) :
    Meets (o.2.2.2.2 4 0)
    (st .l [pg 0x10 2]
      (fun h => { h with gar := { h.gar with pools := [3, 0, 0, 0, 0] } })) := by
  unfold Meets; decide +kernel
theorem wit_linkCommandsDo_0 (o : Obligations.LinkCommandsDo) :
    Meets (o.1 0x200)
    (st .t [pg 0x28 2, (R.FAB_PORT_CFG_EN.at 0, 1)] id) := by
  unfold Meets; decide +kernel
theorem wit_linkCommandsDo_1 (o : Obligations.LinkCommandsDo) :
    Meets (o.2.1 0)
    (st .t [pg 0x2C 2, (R.CUL_PORT_CTL_INSVC.at 0, 1)] id) := by
  unfold Meets; decide +kernel
theorem wit_linkCommandsDo_2 (o : Obligations.LinkCommandsDo) :
    Meets (o.2.2.1 0 (fr 0 []).bytes (fr 0 []))
    (st .t [pg 0x2C 2, (R.CUL_PORT_CTL_INSVC.at 0, 1)] (linked 0 id)) := by
  unfold Meets; decide +kernel
theorem wit_linkCommandsDo_3 (o : Obligations.LinkCommandsDo) :
    Meets (o.2.2.2.1 0x200 (fr 0 (List.replicate 13 0)).bytes (fr 0 (List.replicate 13 0)) (by decide))
    (st .t [pg 0x28 2, (R.FAB_PORT_CFG_EN.at 0, 1)] (linked 0x200 id)) := by
  unfold Meets; decide +kernel
theorem wit_linkCommandsDo_4 (o : Obligations.LinkCommandsDo) :
    Meets (o.2.2.2.2.1 1 (fr 0 (List.replicate 13 0)).bytes (fr 0 (List.replicate 13 0)) (by decide) (by decide))
    (st .t [pg 0x2C 2, (R.CUL_PORT_CTL_INSVC.at 1, 1)] (linked 1 fun k => { k with up := false })) := by
  unfold Meets; decide +kernel
theorem wit_linkCommandsDo_5 (o : Obligations.LinkCommandsDo) :
    Meets (o.2.2.2.2.2.1 0)
    (st .t [pg 0x2C 2, (R.CUL_PORT_CTL_INSVC.at 0, 1)] (linked 0 id)) := by
  unfold Meets; decide +kernel
theorem wit_linkCommandsDo_6 (o : Obligations.LinkCommandsDo) :
    Meets (o.2.2.2.2.2.2.1 0 (fr 1 (List.replicate 32 0)).bytes (fr 1 (List.replicate 32 0)) (by decide))
    (st .t [pg 0x2C 2, (R.CUL_PORT_CTL_INSVC.at 0, 1)] (linked 0 id)) := by
  unfold Meets; decide +kernel
theorem wit_linkCommandsDo_7 (o : Obligations.LinkCommandsDo) :
    Meets (o.2.2.2.2.2.2.2.1 0)
    (st .t [pg 0x2C 2, (R.CUL_PORT_CTL_INSVC.at 0, 1)] (linked 0 fun k => { k with ackDue := true })) := by
  unfold Meets; decide +kernel
theorem wit_linkCommandsDo_8 (o : Obligations.LinkCommandsDo) :
    Meets (o.2.2.2.2.2.2.2.2.1 0 (fr 2 (List.replicate 64 0)).bytes (fr 2 (List.replicate 64 0)) (by decide))
    (st .t [pg 0x2C 2, (R.CUL_PORT_CTL_INSVC.at 0, 1)] (linked 0 id)) := by
  unfold Meets; decide +kernel
theorem wit_linkCommandsDo_9 (o : Obligations.LinkCommandsDo) :
    Meets (o.2.2.2.2.2.2.2.2.2.1 0)
    (st .t [pg 0x2C 2, (R.CUL_PORT_CTL_INSVC.at 0, 1)] (linked 0 id)) := by
  unfold Meets; decide +kernel
theorem wit_linkCommandsDo_10 (o : Obligations.LinkCommandsDo) :
    Meets (o.2.2.2.2.2.2.2.2.2.2.1 0 1 (by decide))
    (st .t [pg 0x2C 2, (R.CUL_PORT_CTL_INSVC.at 0, 1)] id) := by
  unfold Meets; decide +kernel
theorem wit_linkCommandsDo_11 (o : Obligations.LinkCommandsDo) :
    Meets (o.2.2.2.2.2.2.2.2.2.2.2.1 0)
    (st .t [] id) := by
  unfold Meets; decide +kernel
theorem wit_linkCommandsDo_12 (o : Obligations.LinkCommandsDo) :
    Meets (o.2.2.2.2.2.2.2.2.2.2.2.2.1 0)
    (st .t [pg 0x2C 2, (R.CUL_PORT_CTL_INSVC.at 0, 1)] id) := by
  unfold Meets; decide +kernel
theorem wit_linkCommandsDo_13 (o : Obligations.LinkCommandsDo) :
    Meets (o.2.2.2.2.2.2.2.2.2.2.2.2.2.1 0)
    (st .t [] id) := by
  unfold Meets; decide +kernel
theorem wit_linkCommandsDo_14 (o : Obligations.LinkCommandsDo) :
    Meets (o.2.2.2.2.2.2.2.2.2.2.2.2.2.2.1 0)
    (st .t [pg 0x2C 2, (R.CUL_PORT_CTL_INSVC.at 0, 1)] (linked 0 id)) := by
  unfold Meets; decide +kernel
theorem wit_linkCommandsDo_15 (o : Obligations.LinkCommandsDo) :
    Meets (o.2.2.2.2.2.2.2.2.2.2.2.2.2.2.2.1 0x200)
    (st .t [pg 0x28 2, (R.FAB_PORT_CFG_EN.at 0, 1)] (linked 0x200 id)) := by
  unfold Meets; decide +kernel
theorem wit_linkCommandsDo_16 (o : Obligations.LinkCommandsDo) :
    Meets (o.2.2.2.2.2.2.2.2.2.2.2.2.2.2.2.2.1)
    (st .l [(R.CUL_LEAF_ACTIVE, 2)] (linked 0 id)) := by
  unfold Meets; decide +kernel
theorem wit_linkCommandsDo_17 (o : Obligations.LinkCommandsDo) :
    Meets (o.2.2.2.2.2.2.2.2.2.2.2.2.2.2.2.2.2.1)
    (st .l [] id) := by
  unfold Meets; exact ⟨rfl, rfl, fun x hx => by cases hx⟩
theorem wit_linkCommandsDo_18 (o : Obligations.LinkCommandsDo) :
    Meets (o.2.2.2.2.2.2.2.2.2.2.2.2.2.2.2.2.2.2.1 (held5 0x20 []) 5 rfl)
    (st .l []
      (fun h => { h with pwr := { lit with tied := [0x8000] }, flw := { h.flw with held := [held5 0x20 []] } })) := by
  unfold Meets; decide +kernel
theorem wit_linkCommandsDo_19 (o : Obligations.LinkCommandsDo) :
    Meets (o.2.2.2.2.2.2.2.2.2.2.2.2.2.2.2.2.2.2.2.1 (held5 0x20 []) 5 rfl)
    (st .l []
      (fun h => { h with flw := { h.flw with held := [held5 0x20 []] } })) := by
  unfold Meets; decide +kernel
theorem wit_linkCommandsDo_20 (o : Obligations.LinkCommandsDo) :
    Meets (o.2.2.2.2.2.2.2.2.2.2.2.2.2.2.2.2.2.2.2.2.1 0x200 ⟨3, 0, 3, [], [held5 0x20 []], 0, false, false, 0⟩ (held5 0x20 []) 5 rfl rfl)
    (st .t [(R.FAB_PORT_CFG_LONGHAUL.at 0, 1)] (linked 0x200 fun k => { k with retained := [⟨3, 0, 3, [], [held5 0x20 []], 0, false, false, 0⟩] })) := by
  unfold Meets; decide +kernel
theorem wit_linkCommandsDo_21 (o : Obligations.LinkCommandsDo) :
    Meets (o.2.2.2.2.2.2.2.2.2.2.2.2.2.2.2.2.2.2.2.2.2.1 0x200 { held5 0x20 [] with keptBy := some 0x200 } 5 rfl rfl)
    (st .t [(R.FAB_PORT_CFG_LONGHAUL.at 0, 1)]
      (fun h => { h with flw := { h.flw with held := [{ held5 0x20 [] with keptBy := some 0x200 }] } })) := by
  unfold Meets; decide +kernel
theorem wit_linkCommandsDo_22 (o : Obligations.LinkCommandsDo) :
    Meets (o.2.2.2.2.2.2.2.2.2.2.2.2.2.2.2.2.2.2.2.2.2.2.1 op 0)
    (st .t [] id) := by
  unfold Meets; decide +kernel
theorem wit_linkCommandsDo_23 (o : Obligations.LinkCommandsDo) :
    Meets (o.2.2.2.2.2.2.2.2.2.2.2.2.2.2.2.2.2.2.2.2.2.2.2.1 op 1)
    (st .t []
      (fun h => { h with pwr := { lit with tied := [0x8000] } })) := by
  unfold Meets; decide +kernel
theorem wit_linkCommandsDo_24 (o : Obligations.LinkCommandsDo) :
    Meets (o.2.2.2.2.2.2.2.2.2.2.2.2.2.2.2.2.2.2.2.2.2.2.2.2.1 op 1)
    (st .t [] id) := by
  unfold Meets; decide +kernel
theorem wit_linkCommandsDo_25 (o : Obligations.LinkCommandsDo) :
    Meets (o.2.2.2.2.2.2.2.2.2.2.2.2.2.2.2.2.2.2.2.2.2.2.2.2.2 op 1 { ((st .t [pg 0x2C 2, (R.FLW_RESV_AVAIL, 0xFFFF)] id)).hw.quiet.reply 0 with claims := [(0x8000, 0x2C)] })
    (st .t [pg 0x2C 2, (R.FLW_RESV_AVAIL, 0xFFFF)] id) := by
  unfold Meets; exact ⟨by decide +kernel, by decide +kernel, by decide +kernel, by decide +kernel, by decide +kernel, by decide +kernel, rfl⟩
theorem wit_sessionCommandsDo_0 (o : Obligations.SessionCommandsDo) :
    Meets (o.1 0 5)
    (st .t []
      (fun h => { h with sec := { h.sec with sessions := [{ Session.blank 0 with retryFrc := some 5 }] } })) := by
  unfold Meets; decide +kernel
theorem wit_sessionCommandsDo_1 (o : Obligations.SessionCommandsDo) :
    Meets (o.2.1 0)
    (st .t []
      (fun h => linked 0 (fun k => { k with peerIdent := 5 }) { h with frc := 2 ^ 50 })) := by
  unfold Meets; decide +kernel
theorem wit_sessionCommandsDo_2 (o : Obligations.SessionCommandsDo) :
    Meets (o.2.2.1 op)
    (st .t [] id) := by
  unfold Meets; decide +kernel
theorem wit_sessionCommandsDo_3 (o : Obligations.SessionCommandsDo) :
    Meets (o.2.2.2.1 0 5)
    (st .t []
      (fun h => { h with sec := { h.sec with sessions := [{ Session.blank 0 with oldFrom := some 5 }] } })) := by
  unfold Meets; decide +kernel
theorem wit_sessionCommandsDo_4 (o : Obligations.SessionCommandsDo) :
    Meets (o.2.2.2.2.1 0)
    (st .t []
      (fun h => linked 0 id { h with frc := 2 ^ 50 })) := by
  unfold Meets; decide +kernel
theorem wit_sessionCommandsDo_5 (o : Obligations.SessionCommandsDo) :
    Meets (o.2.2.2.2.2)
    (st .t [] id) := by
  unfold Meets; decide +kernel

/-! ### The fabric, flow, trace, debug, wear, optics -/

theorem wit_fabricCommandsDo_0 (o : Obligations.FabricCommandsDo) :
    Meets (o.1)
    (st .t [pg 0x28 2, (R.TIM_STATUS_FIRST_STEP_DONE, 1), (R.FAB_ID_STATE, 0)] id) := by
  unfold Meets; decide +kernel
theorem wit_fabricCommandsDo_1 (o : Obligations.FabricCommandsDo) :
    Meets (o.2.1)
    (st .t [pg 0x28 2, (R.FAB_ID_STATE, 1)] id) := by
  unfold Meets; decide +kernel
theorem wit_fabricCommandsDo_2 (o : Obligations.FabricCommandsDo) :
    Meets (o.2.2.1)
    (st .t [pg 0x28 2, (R.FAB_ID_STATE, 2)] id) := by
  unfold Meets; decide +kernel
theorem wit_fabricCommandsDo_3 (o : Obligations.FabricCommandsDo) :
    Meets (o.2.2.2.1 0x200 (fr 3 lsaBytes).bytes (fr 3 lsaBytes) ((readLsa lsaBytes 1000000000000).get (by decide)))
    (st .t [pg 0x28 2, (R.FAB_PORT_CFG_EN.at 0, 1)] (linked 0x200 id)) := by
  unfold Meets; decide +kernel
theorem wit_fabricCommandsDo_4 (o : Obligations.FabricCommandsDo) :
    Meets (o.2.2.2.2.1 0x200 ({ fr 3 lsaBytes with hseq := 9 } : Frame).bytes { fr 3 lsaBytes with hseq := 9 } ((readLsa lsaBytes 1000000000000).get (by decide)))
    (st .t [pg 0x28 2, (R.FAB_PORT_CFG_EN.at 0, 1)] (linked 0x200 id)) := by
  unfold Meets; decide +kernel
theorem wit_fabricCommandsDo_5 (o : Obligations.FabricCommandsDo) :
    Meets (o.2.2.2.2.2.1)
    (st .t [(R.FAB_ID_NODE, 0)]
      (fun h => { h with fab := { h.fab with lsdb := [⟨7, 0, 0, 1, 0, [], [], 0⟩] } })) := by
  unfold Meets; decide +kernel
theorem wit_fabricCommandsDo_6 (o : Obligations.FabricCommandsDo) :
    Meets (o.2.2.2.2.2.2.1)
    (st .t [pg 0x28 2]
      (fun h => { h with fab := { h.fab with dbDirty := true } })) := by
  unfold Meets; decide +kernel
theorem wit_fabricCommandsDo_7 (o : Obligations.FabricCommandsDo) :
    Meets (o.2.2.2.2.2.2.2.1 0 (fr 8 (List.replicate 24 0)).bytes (fr 8 (List.replicate 24 0)))
    (st .t [pg 0x2C 2, (R.CUL_PORT_CTL_INSVC.at 0, 1)] (linked 0 id)) := by
  unfold Meets; decide +kernel
theorem wit_fabricCommandsDo_8 (o : Obligations.FabricCommandsDo) :
    Meets (o.2.2.2.2.2.2.2.2.1)
    (st .l [(R.CUL_LEAF_REGISTERED, 0)] (linked 0 id)) := by
  unfold Meets; decide +kernel
theorem wit_fabricCommandsDo_9 (o : Obligations.FabricCommandsDo) :
    Meets (o.2.2.2.2.2.2.2.2.2.1)
    (st .l [(R.CUL_LEAF_REGISTERED, 1)] (linked 1 id)) := by
  unfold Meets; decide +kernel
theorem wit_fabricCommandsDo_10 (o : Obligations.FabricCommandsDo) :
    Meets (o.2.2.2.2.2.2.2.2.2.2.1 0 false (fr 4 [1]).bytes (fr 4 [1]))
    (st .t [pg 0x2C 2, (R.CUL_PORT_CTL_INSVC.at 0, 1)] (linked 0 id)) := by
  unfold Meets; decide +kernel
theorem wit_fabricCommandsDo_11 (o : Obligations.FabricCommandsDo) :
    Meets (o.2.2.2.2.2.2.2.2.2.2.2.1 0 false (fr 4 [1]).bytes (fr 4 [1]))
    (st .t [pg 0x2C 2, (R.CUL_PORT_CTL_INSVC.at 0, 1)] (linked 0 fun k => { k with custody := [⟨3, 0, 0, 40000⟩] })) := by
  unfold Meets; decide +kernel
theorem wit_fabricCommandsDo_12 (o : Obligations.FabricCommandsDo) :
    Meets (o.2.2.2.2.2.2.2.2.2.2.2.2.1 0 false (fr 4 [1]).bytes (fr 4 [1]))
    (st .t [pg 0x2C 2, pg 0x30 3, (R.CUL_PORT_CTL_INSVC.at 0, 1)] (linked 0 id)) := by
  unfold Meets; decide +kernel
theorem wit_fabricCommandsDo_13 (o : Obligations.FabricCommandsDo) :
    Meets (o.2.2.2.2.2.2.2.2.2.2.2.2.2 0)
    (st .t [(R.CUL_PORT_STAT_REG.at 0, 1)] id) := by
  unfold Meets; decide +kernel
theorem wit_reductionCommandsDo_0 (o : Obligations.ReductionCommandsDo) :
    Meets (o.1 op 1)
    (st .t [pg 0x24 2] id) := by
  unfold Meets; decide +kernel
theorem wit_reductionCommandsDo_1 (o : Obligations.ReductionCommandsDo) :
    Meets (o.2.1 op 0)
    (st .t [pg 0x24 2, (R.RED_CTL_EN.at 0, 1)] id) := by
  unfold Meets; decide +kernel
theorem wit_reductionCommandsDo_2 (o : Obligations.ReductionCommandsDo) :
    Meets (o.2.2.1 0 (fr 5 (1 :: List.replicate 15 0)).bytes (fr 5 (1 :: List.replicate 15 0)))
    (st .t [pg 0x2C 2, (R.CUL_PORT_CTL_INSVC.at 0, 1)] (linked 0 id)) := by
  unfold Meets; decide +kernel
theorem wit_reductionCommandsDo_3 (o : Obligations.ReductionCommandsDo) :
    Meets (o.2.2.2.1 (held5 0x20 []))
    (st .t [pg 0x24 2, (R.FAB_ID_NODE, 0)]
      (fun h => { h with red := { h.red with groups := [grp5] }, flw := { h.flw with held := [held5 0x20 []] } })) := by
  unfold Meets; decide +kernel
theorem wit_reductionCommandsDo_4 (o : Obligations.ReductionCommandsDo) :
    Meets (o.2.2.2.2.1 again5)
    (st .t [pg 0x24 2, (R.FAB_ID_NODE, 0)]
      (fun h => { h with red := { h.red with groups := [grp5] }, flw := { h.flw with held := [again5], seen := [(5, 0, [])] } })) := by
  unfold Meets; decide +kernel
theorem wit_reductionCommandsDo_5 (o : Obligations.ReductionCommandsDo) :
    Meets (o.2.2.2.2.2.1 (held5 0x28 []))
    (st .t [pg 0x24 2, (R.FAB_ID_NODE, 0)]
      (fun h => { h with flw := { h.flw with held := [held5 0x28 []] } })) := by
  unfold Meets; decide +kernel
theorem wit_reductionCommandsDo_6 (o : Obligations.ReductionCommandsDo) :
    Meets (o.2.2.2.2.2.2.1)
    (st .t [pg 0x24 2] id) := by
  unfold Meets; decide +kernel
theorem wit_reductionCommandsDo_7 (o : Obligations.ReductionCommandsDo) :
    Meets (o.2.2.2.2.2.2.2)
    (st .t [pg 0x24 2] id) := by
  unfold Meets; decide +kernel
theorem wit_launchCommandsDo_0 (o : Obligations.LaunchCommandsDo) :
    Meets (o.1 op)
    (st .t [pg 0x28 2, (R.FAB_ID_STATE, 2), (R.FAB_LAUNCH_NT_NT.at 1, 0xFFFF), (R.FAB_LAUNCH_SIZE_SIZE, 1)] id) := by
  unfold Meets; decide +kernel
theorem wit_launchCommandsDo_1 (o : Obligations.LaunchCommandsDo) :
    Meets (o.2.1 op)
    (st .t [pg 0x28 2, (R.FAB_ID_STATE, 2)] id) := by
  unfold Meets; decide +kernel
theorem wit_launchCommandsDo_2 (o : Obligations.LaunchCommandsDo) :
    Meets (o.2.2.1 op (launch (2 ^ 60) 1 0))
    (st .t [(R.FAB_ID_NODE, 0)]
      (fun h => { h with fab := { h.fab with launch := some (launch (2 ^ 60) 1 0) } })) := by
  unfold Meets; decide +kernel
theorem wit_launchCommandsDo_3 (o : Obligations.LaunchCommandsDo) :
    Meets (o.2.2.2.1 (launch 5 0 0))
    (st .t [(R.FAB_ID_NODE, 0)]
      (fun h => { h with fab := { h.fab with launch := some (launch 5 0 0) } })) := by
  unfold Meets; decide +kernel
theorem wit_launchCommandsDo_4 (o : Obligations.LaunchCommandsDo) :
    Meets (o.2.2.2.2.1 (launch 5 1 0))
    (st .t [(R.FAB_ID_NODE, 0)]
      (fun h => { h with fab := { h.fab with launch := some (launch 5 1 0) } })) := by
  unfold Meets; decide +kernel
theorem wit_launchCommandsDo_5 (o : Obligations.LaunchCommandsDo) :
    Meets (o.2.2.2.2.2.1 (launch 5 1 1))
    (st .l []
      (fun h => { h with fab := { h.fab with launch := some (launch 5 1 1) } })) := by
  unfold Meets; decide +kernel
theorem wit_launchCommandsDo_6 (o : Obligations.LaunchCommandsDo) :
    Meets (o.2.2.2.2.2.2.1 (launch 5 1 0))
    (st .l []
      (fun h => { h with fab := { h.fab with launch := some (launch 5 1 0) } })) := by
  unfold Meets; decide +kernel
theorem wit_launchCommandsDo_7 (o : Obligations.LaunchCommandsDo) :
    Meets (o.2.2.2.2.2.2.2.1 op)
    (st .l [(R.CUL_LAUNCH_STAT_STATE, 1)] id) := by
  unfold Meets; decide +kernel
theorem wit_launchCommandsDo_8 (o : Obligations.LaunchCommandsDo) :
    Meets (o.2.2.2.2.2.2.2.2.1 op 3 1 (launch 5 1 0) (by decide))
    (st .t []
      (fun h => { h with fab := { h.fab with launch := some (launch 5 1 0) } })) := by
  unfold Meets; decide +kernel
theorem wit_launchCommandsDo_9 (o : Obligations.LaunchCommandsDo) :
    Meets (o.2.2.2.2.2.2.2.2.2.1 0 (launchMsg 0).bytes (launchMsg 0))
    (st .l [pg 0x2C 2, (R.CUL_PORT_CTL_INSVC.at 0, 1)] (linked 0 id)) := by
  unfold Meets; decide +kernel
theorem wit_launchCommandsDo_10 (o : Obligations.LaunchCommandsDo) :
    Meets (o.2.2.2.2.2.2.2.2.2.2.1 0 (launchMsg 1).bytes (launchMsg 1))
    (st .l [pg 0x2C 2, (R.CUL_PORT_CTL_INSVC.at 0, 1)] (linked 0 id)) := by
  unfold Meets; decide +kernel
theorem wit_launchCommandsDo_11 (o : Obligations.LaunchCommandsDo) :
    Meets (o.2.2.2.2.2.2.2.2.2.2.2.1 0 (launchMsg 2).bytes (launchMsg 2))
    (st .l [pg 0x2C 2, (R.CUL_PORT_CTL_INSVC.at 0, 1)] (linked 0 id)) := by
  unfold Meets; decide +kernel
theorem wit_launchCommandsDo_12 (o : Obligations.LaunchCommandsDo) :
    Meets (o.2.2.2.2.2.2.2.2.2.2.2.2 0 (launchMsg 0).bytes (launchMsg 0))
    (st .t [pg 0x2C 2, (R.CUL_PORT_CTL_INSVC.at 0, 1)] (linked 0 id)) := by
  unfold Meets; decide +kernel
theorem wit_flowCommandsDo_0 (o : Obligations.FlowCommandsDo) :
    Meets (o.1 5)
    (st .t []
      (fun h => { h with flw := { h.flw with streams := [⟨5, 0, true, 0, 0, false, false, []⟩] } })) := by
  unfold Meets; decide +kernel
theorem wit_flowCommandsDo_1 (o : Obligations.FlowCommandsDo) :
    Meets (o.2.1 0 { rec5 0x20 [] with source := 0, stamp := { Stamp.zero with nt := 2 ^ 79, frc := 1000000000000 } } [] (by decide))
    (st .l [pg 0x30 2, (R.TIM_STATUS_FIRST_STEP_DONE, 1)]
      (fun h => { h with flw := { h.flw with streams := [⟨0, 0, true, 0, 0, false, false, [{ rec5 0x20 [] with source := 0, stamp := { Stamp.zero with nt := 2 ^ 79, frc := 1000000000000 } }]⟩] } })) := by
  unfold Meets; decide +kernel
theorem wit_flowCommandsDo_2 (o : Obligations.FlowCommandsDo) :
    Meets (o.2.2.1)
    (st .t [] id) := by
  unfold Meets; decide +kernel
theorem wit_flowCommandsDo_3 (o : Obligations.FlowCommandsDo) :
    Meets (o.2.2.2.1)
    (st .t [pg 0x30 2, (R.TIM_STATUS_FIRST_STEP_DONE, 1)] id) := by
  unfold Meets; decide +kernel
theorem wit_flowCommandsDo_4 (o : Obligations.FlowCommandsDo) :
    Meets (o.2.2.2.2.1)
    (st .t [pg 0x30 2, (R.TIM_STATUS_FIRST_STEP_DONE, 1)]
      (fun h => { h with frc := 0 })) := by
  unfold Meets; decide +kernel
theorem wit_flowCommandsDo_5 (o : Obligations.FlowCommandsDo) :
    Meets (o.2.2.2.2.2.1)
    (st .l [pg 0x30 2, (R.CUL_LEAF_ACTIVE, 1)]
      (fun h => { h with fab := { h.fab with links := [{ Link.blank 0 with up := true }, { Link.blank 1 with up := true }] }, flw := { h.flw with pressSince := [some 0], headSince := [none, some 5] } })) := by
  unfold Meets; decide +kernel
theorem wit_flowCommandsDo_6 (o : Obligations.FlowCommandsDo) :
    Meets (o.2.2.2.2.2.2.1)
    (st .l [(R.FLW_STAT_REHOMED, 1)]
      (fun h => { linked 0 id h with flw := { h.flw with noPressSince := [some 0] } })) := by
  unfold Meets; decide +kernel
theorem wit_flowCommandsDo_7 (o : Obligations.FlowCommandsDo) :
    Meets (o.2.2.2.2.2.2.2.1)
    (st .t [pg 0x30 2, (R.FLW_STAT_PRESSURE, 1), (R.FRM_CFG_ENC, 0)] id) := by
  unfold Meets; decide +kernel
theorem wit_flowCommandsDo_8 (o : Obligations.FlowCommandsDo) :
    Meets (o.2.2.2.2.2.2.2.2.1)
    (st .t []
      (fun h => { h with cnt := { h.cnt with stepDown := 1 } })) := by
  unfold Meets; decide +kernel
theorem wit_flowCommandsDo_9 (o : Obligations.FlowCommandsDo) :
    Meets (o.2.2.2.2.2.2.2.2.2.1 3 (held5 0x20 []) 0 64)
    (st .t [pg 0x30 2, (R.FAB_ID_NODE, 0), (R.DLV_SIZE_KIB.at 3, 1)]
      (fun h => { h with flw := { h.flw with held := [held5 0x20 []] } })) := by
  unfold Meets; decide +kernel
theorem wit_flowCommandsDo_10 (o : Obligations.FlowCommandsDo) :
    Meets (o.2.2.2.2.2.2.2.2.2.2.1 3 again5)
    (st .t [pg 0x30 2, (R.FAB_ID_NODE, 0), (R.DLV_SIZE_KIB.at 3, 1)]
      (fun h => { h with flw := { h.flw with held := [again5], seen := [(5, 0, [])] } })) := by
  unfold Meets; decide +kernel
theorem wit_flowCommandsDo_11 (o : Obligations.FlowCommandsDo) :
    Meets (o.2.2.2.2.2.2.2.2.2.2.2.1 { held5 0x20 [] with dst := some 9 })
    (st .t [pg 0x30 2, (R.FAB_ID_NODE, 0)]
      (fun h => { h with flw := { h.flw with held := [{ held5 0x20 [] with dst := some 9 }] } })) := by
  unfold Meets; decide +kernel
theorem wit_flowCommandsDo_12 (o : Obligations.FlowCommandsDo) :
    Meets (o.2.2.2.2.2.2.2.2.2.2.2.2.1 0 [0x740, 0, 4080])
    (st .l [(R.PWR_START_BOOT, 1), (R.Q_CFG_ENGINE.at 0, 7)] (runs [0x740, 0, 4080])) := by
  unfold Meets; decide +kernel
theorem wit_flowCommandsDo_13 (o : Obligations.FlowCommandsDo) :
    Meets (o.2.2.2.2.2.2.2.2.2.2.2.2.2.1 0 [0x740])
    (st .l [(R.PWR_START_BOOT, 1), (R.Q_CFG_ENGINE.at 0, 7)] (runs [0x740])) := by
  unfold Meets; decide +kernel
theorem wit_flowCommandsDo_14 (o : Obligations.FlowCommandsDo) :
    Meets (o.2.2.2.2.2.2.2.2.2.2.2.2.2.2 0 [0x741, 0, 1])
    (st .l [(R.Q_CFG_ENGINE.at 0, 7)] (runs [0x741, 0, 1])) := by
  unfold Meets; decide +kernel
theorem wit_shaperCommandsDo_0 (o : Obligations.ShaperCommandsDo) :
    Meets (o.1 0 0 egr0.1 egr0.2.1 egr0.2.2)
    egrSt := by
  unfold Meets; decide +kernel
theorem wit_shaperCommandsDo_1 (o : Obligations.ShaperCommandsDo) :
    Meets (o.2.1 0 1 egr1.1 egr1.2.1 egr1.2.2)
    egrPoor := by
  unfold Meets; decide +kernel
theorem wit_shaperCommandsDo_2 (o : Obligations.ShaperCommandsDo) :
    Meets (o.2.2.1 0x200 egrWait)
    egrPtp := by
  unfold Meets; decide +kernel
theorem wit_shaperCommandsDo_3 (o : Obligations.ShaperCommandsDo) :
    Meets (o.2.2.2.1 0)
    (st .l [pg 0x34 5] id) := by
  unfold Meets; decide +kernel
theorem wit_shaperCommandsDo_4 (o : Obligations.ShaperCommandsDo) :
    Meets (o.2.2.2.2.1 0 (by decide))
    (st .t [pg 0x34 2]
      (fun h => { h with shp := { h.shp with lists := [{ GateList.off with pending := some { GateList.off.cfg with mode := 1 } }] } })) := by
  unfold Meets; exact ⟨by decide +kernel, { GateList.off.cfg with mode := 1 }, by decide +kernel, rfl, by decide +kernel⟩
theorem wit_shaperCommandsDo_5 (o : Obligations.ShaperCommandsDo) :
    Meets (o.2.2.2.2.2.1 1 (by decide))
    (st .t [] id) := by
  unfold Meets; decide +kernel
theorem wit_shaperCommandsDo_6 (o : Obligations.ShaperCommandsDo) :
    Meets (o.2.2.2.2.2.2.1 op 1 (by decide))
    (st .t [(R.SHP_GL_CFG_MODE.at 1, 0)] id) := by
  unfold Meets; decide +kernel
theorem wit_shaperCommandsDo_7 (o : Obligations.ShaperCommandsDo) :
    Meets (o.2.2.2.2.2.2.2 op 1 (by decide))
    (st .t [(R.SHP_GL_CFG_MODE.at 1, 3)] id) := by
  unfold Meets; decide +kernel
theorem wit_traceCommandsDo_0 (o : Obligations.TraceCommandsDo) :
    Meets (o.1 1 255 0 0 (by decide) (by decide))
    (st .l []
      (fun h => { h with trc := { h.trc with cmt := List.replicate 64 ⟨0, 0, 0, 0, 0⟩ } })) := by
  unfold Meets; decide +kernel
theorem wit_traceCommandsDo_1 (o : Obligations.TraceCommandsDo) :
    Meets (o.2.1 1 255 0 (by decide) (by decide))
    (st .l [] id) := by
  unfold Meets; decide +kernel
theorem wit_traceCommandsDo_2 (o : Obligations.TraceCommandsDo) :
    Meets (o.2.2.1)
    (st .l [pg 0x38 2] id) := by
  unfold Meets; decide +kernel
theorem wit_traceCommandsDo_3 (o : Obligations.TraceCommandsDo) :
    Meets (o.2.2.2.1)
    (st .l [pg 0x38 2]
      (fun h => { h with frc := 0 })) := by
  unfold Meets; decide +kernel
theorem wit_traceCommandsDo_4 (o : Obligations.TraceCommandsDo) :
    Meets (o.2.2.2.2.1 0 ⟨0, [], 0, Stamp.zero⟩)
    (st .l []
      (fun h => { h with trc := { h.trc with open_ := [⟨0, [], 0, Stamp.zero⟩] } })) := by
  unfold Meets; decide +kernel
theorem wit_traceCommandsDo_5 (o : Obligations.TraceCommandsDo) :
    Meets (o.2.2.2.2.2.1 op)
    (st .l [pg 0x38 2] id) := by
  unfold Meets; decide +kernel
theorem wit_traceCommandsDo_6 (o : Obligations.TraceCommandsDo) :
    Meets (o.2.2.2.2.2.2.1 op)
    (st .l [(R.TRC_STAT_FILLING, 1)] id) := by
  unfold Meets; decide +kernel
theorem wit_traceCommandsDo_7 (o : Obligations.TraceCommandsDo) :
    Meets (o.2.2.2.2.2.2.2.1)
    (st .l [(R.TRC_STAT_FILLING, 1)] id) := by
  unfold Meets; decide +kernel
theorem wit_traceCommandsDo_8 (o : Obligations.TraceCommandsDo) :
    Meets (o.2.2.2.2.2.2.2.2.1 15 (by decide))
    (st .l [pg 0x38 2, (R.WP_CTL_EN.at 15, 1), (R.WP_THR_LO_THR.at 15, 1)]
      (fun h => { h.setSlot 0 5 with trc := { h.trc with wpAt := [(15, 0, 0)] } })) := by
  exact ⟨by decide +kernel, by decide +kernel, by decide +kernel, by decide +kernel, by decide +kernel, ⟨0, by decide +kernel, by decide +kernel⟩, by decide +kernel⟩
theorem wit_traceCommandsDo_9 (o : Obligations.TraceCommandsDo) :
    Meets (o.2.2.2.2.2.2.2.2.2.1 3 (by decide))
    (st .l [(R.TL_CTL_IN.at 3, 1)] id) := by
  unfold Meets; decide +kernel
theorem wit_traceCommandsDo_10 (o : Obligations.TraceCommandsDo) :
    Meets (o.2.2.2.2.2.2.2.2.2.2.1 3 (by decide))
    (st .l [] id) := by
  unfold Meets; decide +kernel
theorem wit_traceCommandsDo_11 (o : Obligations.TraceCommandsDo) :
    Meets (o.2.2.2.2.2.2.2.2.2.2.2.1 3)
    (st .l [] id) := by
  unfold Meets; decide +kernel
theorem wit_traceCommandsDo_12 (o : Obligations.TraceCommandsDo) :
    Meets (o.2.2.2.2.2.2.2.2.2.2.2.2.1 op 3)
    (st .l [(R.TL_CTL_SOFT.at 3, 1)] id) := by
  unfold Meets; decide +kernel
theorem wit_traceCommandsDo_13 (o : Obligations.TraceCommandsDo) :
    Meets (o.2.2.2.2.2.2.2.2.2.2.2.2.2.1 op 3)
    (st .l [(R.TL_CTL_SOFT.at 3, 0)] id) := by
  unfold Meets; decide +kernel
theorem wit_traceCommandsDo_14 (o : Obligations.TraceCommandsDo) :
    Meets (o.2.2.2.2.2.2.2.2.2.2.2.2.2.2.1 0 (fr 6 (3 :: List.replicate 31 0)).bytes (fr 6 (3 :: List.replicate 31 0)))
    (st .l [pg 0x2C 2, (R.CUL_PORT_CTL_INSVC.at 0, 1)] (linked 0 id)) := by
  unfold Meets; decide +kernel
theorem wit_traceCommandsDo_15 (o : Obligations.TraceCommandsDo) :
    Meets (o.2.2.2.2.2.2.2.2.2.2.2.2.2.2.2.1 0 (fr 6 (3 :: List.replicate 31 0)).bytes (fr 6 (3 :: List.replicate 31 0)) (by decide))
    (st .t [pg 0x2C 2, pg 0x38 2, (R.CUL_PORT_CTL_INSVC.at 0, 1), (R.TL_CTL_FABRIC.at 0, 1)] (linked 0 id)) := by
  unfold Meets; decide +kernel
theorem wit_traceCommandsDo_16 (o : Obligations.TraceCommandsDo) :
    Meets (o.2.2.2.2.2.2.2.2.2.2.2.2.2.2.2.2.1 0 (fr 6 (3 :: List.replicate 31 0)).bytes (fr 6 (3 :: List.replicate 31 0)) (by decide))
    (st .t [pg 0x2C 2, (R.CUL_PORT_CTL_INSVC.at 0, 1), (R.TL_CTL_FABRIC.at 0, 0)] (linked 0 id)) := by
  unfold Meets; decide +kernel
theorem wit_traceCommandsDo_17 (o : Obligations.TraceCommandsDo) :
    Meets (o.2.2.2.2.2.2.2.2.2.2.2.2.2.2.2.2.2.1 op 15 0 (by decide))
    (st .l [] id) := by
  unfold Meets; decide +kernel
theorem wit_traceCommandsDo_18 (o : Obligations.TraceCommandsDo) :
    Meets (o.2.2.2.2.2.2.2.2.2.2.2.2.2.2.2.2.2.2 op)
    (st .l [] id) := by
  unfold Meets; decide +kernel
theorem wit_lowPowerCommandsDo_0 (o : Obligations.LowPowerCommandsDo) :
    Meets (o.1 [])
    (st .l [pg 0x38 2] id) := by
  unfold Meets; decide +kernel
theorem wit_lowPowerCommandsDo_1 (o : Obligations.LowPowerCommandsDo) :
    Meets (o.2)
    (st .l [pg 0x38 2]
      (fun h => { h with trc := { h.trc with lpReq := true } })) := by
  unfold Meets; decide +kernel
theorem wit_debugCommandsDo_0 (o : Obligations.DebugCommandsDo) :
    Meets (o.1 op)
    (st .l [pg 0x3A 2, (R.DBG_CFG_FREEZE, 0)] id) := by
  unfold Meets; decide +kernel
theorem wit_debugCommandsDo_1 (o : Obligations.DebugCommandsDo) :
    Meets (o.2.1 op)
    (st .l [pg 0x3A 2, pg 0x38 2, (R.DBG_CFG_FREEZE, 1)] id) := by
  unfold Meets; decide +kernel
theorem wit_debugCommandsDo_2 (o : Obligations.DebugCommandsDo) :
    Meets (o.2.2.1 op)
    (st .l [pg 0x3A 2]
      (fun h => { h with trc := { h.trc with stopReq := true } })) := by
  unfold Meets; decide +kernel
theorem wit_debugCommandsDo_3 (o : Obligations.DebugCommandsDo) :
    Meets (o.2.2.2.1 op)
    (st .l [pg 0x3A 2, (R.DBG_STAT_STATE, 1)] id) := by
  unfold Meets; decide +kernel
theorem wit_debugCommandsDo_4 (o : Obligations.DebugCommandsDo) :
    Meets (o.2.2.2.2.1)
    (st .l [(R.DBG_STAT_STATE, 1)]
      (fun h => { h with trc := { h.trc with stopReq := true } })) := by
  unfold Meets; decide +kernel
theorem wit_debugCommandsDo_5 (o : Obligations.DebugCommandsDo) :
    Meets (o.2.2.2.2.2.1)
    (st .l [(R.DBG_STAT_STATE, 1), (R.DBG_CFG_SCAN_HOST, 1)] id) := by
  unfold Meets; decide +kernel
theorem wit_debugCommandsDo_6 (o : Obligations.DebugCommandsDo) :
    Meets (o.2.2.2.2.2.2.1 [])
    (st .l [(R.DBG_STAT_STATE, 2)]
      (fun h => { h with trc := { h.trc with scnReq := true } })) := by
  unfold Meets; decide +kernel
theorem wit_debugCommandsDo_7 (o : Obligations.DebugCommandsDo) :
    Meets (o.2.2.2.2.2.2.2.1)
    (st .l [(R.DBG_STAT_STATE, 2)]
      (fun h => { h with trc := { h.trc with scnReq := true } })) := by
  unfold Meets; decide +kernel
theorem wit_debugCommandsDo_8 (o : Obligations.DebugCommandsDo) :
    Meets (o.2.2.2.2.2.2.2.2.1)
    (st .l [(R.DBG_STAT_STATE, 3)] id) := by
  unfold Meets; decide +kernel
theorem wit_debugCommandsDo_9 (o : Obligations.DebugCommandsDo) :
    Meets (o.2.2.2.2.2.2.2.2.2.1 0 (entry []))
    (st .l [pg 0x3A 2, (R.DBG_WDOG_MS_MS, 1), (R.DBG_HANG_LO_ADDR.at 0, 64), (R.Q_CFG_CTX.at 0, 0)] (queued [entry []])) := by
  unfold Meets; decide +kernel
theorem wit_debugCommandsDo_10 (o : Obligations.DebugCommandsDo) :
    Meets (o.2.2.2.2.2.2.2.2.2.2.1 op 63 1 (by decide) (by decide))
    (st .t [] id) := by
  unfold Meets; decide +kernel
theorem wit_debugCommandsDo_11 (o : Obligations.DebugCommandsDo) :
    Meets (o.2.2.2.2.2.2.2.2.2.2.2 op 63 0 (by decide) (by decide))
    (st .t [] id) := by
  unfold Meets; decide +kernel
theorem wit_wearCommandsDo_0 (o : Obligations.WearCommandsDo) :
    Meets (o.1 1 0xFFFF)
    (st .l [(R.TIM_CFG_TEMP_CH, 0)] id) := by
  unfold Meets; decide +kernel
theorem wit_wearCommandsDo_1 (o : Obligations.WearCommandsDo) :
    Meets (o.2.1 5000 0)
    (st .l [] id) := by
  unfold Meets; decide +kernel
theorem wit_wearCommandsDo_2 (o : Obligations.WearCommandsDo) :
    Meets (o.2.2.1)
    (st .l [pg 0x40 2]
      (fun h => { h with hlt := { h.hlt with open_ := [(0, 0, 0)] } })) := by
  unfold Meets; decide +kernel
theorem wit_wearCommandsDo_3 (o : Obligations.WearCommandsDo) :
    Meets (o.2.2.2.1)
    (st .l [pg 0x40 2, (R.HLT_WS_CFG_INTERVAL_S, 1)] id) := by
  unfold Meets; decide +kernel
theorem wit_wearCommandsDo_4 (o : Obligations.WearCommandsDo) :
    Meets (o.2.2.2.2.1 63 5 (by decide))
    (st .l []
      (fun h => { h with hlt := { h.hlt with gate := some 5 } })) := by
  unfold Meets; decide +kernel
theorem wit_wearCommandsDo_5 (o : Obligations.WearCommandsDo) :
    Meets (o.2.2.2.2.2.1 63 (by decide))
    (st .l [] id) := by
  unfold Meets; decide +kernel
theorem wit_wearCommandsDo_6 (o : Obligations.WearCommandsDo) :
    Meets (o.2.2.2.2.2.2.1 5 (0, 0))
    (st .l [pg 0x40 2, (R.HLT_WS_CFG_TEMP_CH, 0)]
      (fun h => { h with hlt := { h.hlt with gate := some 5, latest := [(0, 0)] } })) := by
  unfold Meets; decide +kernel
theorem wit_wearCommandsDo_7 (o : Obligations.WearCommandsDo) :
    Meets (o.2.2.2.2.2.2.2 (2 ^ 50))
    (st .l []
      (fun h => { h with hlt := { h.hlt with gate := some (2 ^ 50) } })) := by
  unfold Meets; decide +kernel
theorem wit_opticsCommandsDo_0 (o : Obligations.OpticsCommandsDo) :
    Meets (o.1)
    (st .g [pg 0x42 2] id) := by
  unfold Meets; decide +kernel
theorem wit_opticsCommandsDo_1 (o : Obligations.OpticsCommandsDo) :
    Meets (o.2.1)
    (st .g [pg 0x42 2, (R.OPT_FADE_FADE_INT_S, 1)] id) := by
  unfold Meets; decide +kernel
theorem wit_opticsCommandsDo_2 (o : Obligations.OpticsCommandsDo) :
    Meets (o.2.2.1 1 (ve 2 3))
    (st .g [pg 0x42 2, (R.OPT_CFG_SW_LIST, 0)]
      (fun h => { h with vrd := { h.vrd with entries := [ve 2 3] } })) := by
  unfold Meets; decide +kernel
theorem wit_opticsCommandsDo_3 (o : Obligations.OpticsCommandsDo) :
    Meets (o.2.2.2.1 1 (ve 2 3))
    (st .g [(R.OPT_CFG_SW_LIST, 1)]
      (fun h => { h with vrd := { h.vrd with entries := [ve 2 3] } })) := by
  unfold Meets; decide +kernel
theorem wit_opticsCommandsDo_4 (o : Obligations.OpticsCommandsDo) :
    Meets (o.2.2.2.2.1)
    (st .g [pg 0x42 2]
      (fun h => { h with opt := { h.opt with latched := false } })) := by
  unfold Meets; decide +kernel
theorem wit_opticsCommandsDo_5 (o : Obligations.OpticsCommandsDo) :
    Meets (o.2.2.2.2.2.1 op)
    (st .g [] id) := by
  unfold Meets; decide +kernel
theorem wit_opticsCommandsDo_6 (o : Obligations.OpticsCommandsDo) :
    Meets (o.2.2.2.2.2.2.1 op)
    (st .g [pg 0x42 2, (R.HG_CFG_EN.at 0, 1)] id) := by
  unfold Meets; decide +kernel
theorem wit_opticsCommandsDo_7 (o : Obligations.OpticsCommandsDo) :
    Meets (o.2.2.2.2.2.2.2.1 op)
    (st .g []
      (fun h => { h with opt := { h.opt with groups := [heat []] } })) := by
  unfold Meets; decide +kernel
theorem wit_opticsCommandsDo_8 (o : Obligations.OpticsCommandsDo) :
    Meets (o.2.2.2.2.2.2.2.2.1 0 [[1000]] ((invertColumns [[1000]] 32).get (by decide +kernel)))
    (st .g [pg 0x42 2, (R.PWR_START_BOOT, 1), (R.HG_GAIN_DITHER.at 0, 1)]
      (fun h => { h with opt := { h.opt with groups := [heat [[1000]]] } })) := by
  unfold Meets; decide +kernel
theorem wit_opticsCommandsDo_9 (o : Obligations.OpticsCommandsDo) :
    Meets (o.2.2.2.2.2.2.2.2.2 0 [[0]])
    (st .g [pg 0x42 2, (R.PWR_START_BOOT, 1), (R.HG_GAIN_DITHER.at 0, 1)]
      (fun h => { h with opt := { h.opt with groups := [heat [[0]]] } })) := by
  unfold Meets; decide +kernel

/-! ### Verdicts, compression, the recorder, mailboxes, contexts, safety, updates -/

theorem wit_verdictCommandsDo_0 (o : Obligations.VerdictCommandsDo) :
    Meets (o.1)
    (st .t [pg 0x44 2] id) := by
  unfold Meets; decide +kernel
theorem wit_verdictCommandsDo_1 (o : Obligations.VerdictCommandsDo) :
    Meets (o.2.1 (heldFor 1 0x30 [0, 0, 0, 1]) 0)
    (st .t [pg 0x44 2, (R.FAB_ID_NODE, 1), (R.VRD_ARBITER_HERE, 1)]
      (fun h => { h with flw := { h.flw with held := [heldFor 1 0x30 [0, 0, 0, 1]] } })) := by
  unfold Meets; decide +kernel
theorem wit_verdictCommandsDo_2 (o : Obligations.VerdictCommandsDo) :
    Meets (o.2.2.1 (heldFor 1 0x30 [0, 0, 0, 1]) (ve 0 1))
    (st .t [pg 0x44 2, (R.FAB_ID_NODE, 1), (R.VRD_ARBITER_HERE, 1)]
      (fun h => { h with flw := { h.flw with held := [heldFor 1 0x30 [0, 0, 0, 1]] }, vrd := { h.vrd with entries := [ve 0 1] } })) := by
  unfold Meets; decide +kernel
theorem wit_verdictCommandsDo_3 (o : Obligations.VerdictCommandsDo) :
    Meets (o.2.2.2.1 (lost 1 0x30 [0, 0, 0, 1]))
    (st .t [pg 0x44 2, (R.FAB_ID_NODE, 1)]
      (fun h => { h with flw := { h.flw with held := [lost 1 0x30 [0, 0, 0, 1]] } })) := by
  unfold Meets; decide +kernel
theorem wit_verdictCommandsDo_4 (o : Obligations.VerdictCommandsDo) :
    Meets (o.2.2.2.2.1 op 1 (ve 1 1))
    (st .t [pg 0x44 2]
      (fun h => { h with vrd := { h.vrd with entries := [ve 1 1] } })) := by
  unfold Meets; decide +kernel
theorem wit_verdictCommandsDo_5 (o : Obligations.VerdictCommandsDo) :
    Meets (o.2.2.2.2.2.1 op 1 (ve 0 1))
    (st .t []
      (fun h => { h with vrd := { h.vrd with entries := [ve 0 1] } })) := by
  unfold Meets; decide +kernel
theorem wit_verdictCommandsDo_6 (o : Obligations.VerdictCommandsDo) :
    Meets (o.2.2.2.2.2.2.1 op 1 (ve 1 3))
    (st .t []
      (fun h => { h with vrd := { h.vrd with entries := [ve 1 3] } })) := by
  unfold Meets; decide +kernel
theorem wit_verdictCommandsDo_7 (o : Obligations.VerdictCommandsDo) :
    Meets (o.2.2.2.2.2.2.2.1 op 1 { ve 1 3 with due := true })
    (st .t [pg 0x44 2]
      (fun h => { h with vrd := { h.vrd with entries := [{ ve 1 3 with due := true }] } })) := by
  unfold Meets; decide +kernel
theorem wit_verdictCommandsDo_8 (o : Obligations.VerdictCommandsDo) :
    Meets (o.2.2.2.2.2.2.2.2.1 op 1 (ve 1 3))
    (st .t []
      (fun h => { h with vrd := { h.vrd with entries := [ve 1 3] } })) := by
  unfold Meets; decide +kernel
theorem wit_verdictCommandsDo_9 (o : Obligations.VerdictCommandsDo) :
    Meets (o.2.2.2.2.2.2.2.2.2.1 op 1 { ve 2 3 with prior := 1 })
    (st .t []
      (fun h => { h with vrd := { h.vrd with entries := [{ ve 2 3 with prior := 1 }] } })) := by
  unfold Meets; decide +kernel
theorem wit_verdictCommandsDo_10 (o : Obligations.VerdictCommandsDo) :
    Meets (o.2.2.2.2.2.2.2.2.2.2.1 op 1 { ve 0 1 with reason := 2 })
    (st .t [pg 0x44 2, (R.VRD_SPARE_POOL, 10), (R.VRD_SPARE_FLOOR, 9)]
      (fun h => { h with vrd := { h.vrd with entries := [{ ve 0 1 with reason := 2 }] } })) := by
  unfold Meets; decide +kernel
theorem wit_verdictCommandsDo_11 (o : Obligations.VerdictCommandsDo) :
    Meets (o.2.2.2.2.2.2.2.2.2.2.2.1 op 1 (ve 0 1))
    (st .t []
      (fun h => { h with vrd := { h.vrd with entries := [ve 0 1] } })) := by
  unfold Meets; decide +kernel
theorem wit_verdictCommandsDo_12 (o : Obligations.VerdictCommandsDo) :
    Meets (o.2.2.2.2.2.2.2.2.2.2.2.2.1 op)
    (st .t [] id) := by
  unfold Meets; decide +kernel
theorem wit_verdictCommandsDo_13 (o : Obligations.VerdictCommandsDo) :
    Meets (o.2.2.2.2.2.2.2.2.2.2.2.2.2.1 1 (ve 0 1))
    (st .t [pg 0x44 2, (R.VRD_TTL_S, 1)]
      (fun h => { h with vrd := { h.vrd with entries := [ve 0 1] } })) := by
  unfold Meets; decide +kernel
theorem wit_verdictCommandsDo_14 (o : Obligations.VerdictCommandsDo) :
    Meets (o.2.2.2.2.2.2.2.2.2.2.2.2.2.2.1)
    (st .t []
      (fun h => { h with frc := 2 ^ 50, vrd := { h.vrd with hour := [5] } })) := by
  unfold Meets; decide +kernel
theorem wit_verdictCommandsDo_15 (o : Obligations.VerdictCommandsDo) :
    Meets (o.2.2.2.2.2.2.2.2.2.2.2.2.2.2.2.1 op 0)
    (st .t [] id) := by
  unfold Meets; decide +kernel
theorem wit_verdictCommandsDo_16 (o : Obligations.VerdictCommandsDo) :
    Meets (o.2.2.2.2.2.2.2.2.2.2.2.2.2.2.2.2.1 op 31 (by decide))
    (st .t [pg 0x44 2, (R.VRD_ORD_LEN_BYTES, 164)] id) := by
  unfold Meets; decide +kernel
theorem wit_verdictCommandsDo_17 (o : Obligations.VerdictCommandsDo) :
    Meets (o.2.2.2.2.2.2.2.2.2.2.2.2.2.2.2.2.2.1 op 31)
    (st .t [(R.VRD_ORD_LEN_BYTES, 965)] id) := by
  unfold Meets; decide +kernel
theorem wit_verdictCommandsDo_18 (o : Obligations.VerdictCommandsDo) :
    Meets (o.2.2.2.2.2.2.2.2.2.2.2.2.2.2.2.2.2.2 op 31 (by decide))
    (st .t [] id) := by
  unfold Meets; decide +kernel
theorem wit_ballotCommandsDo_0 (o : Obligations.BallotCommandsDo) :
    Meets (o.1 (heldFor 0 0x31 [0, 0]))
    (st .t [(R.FAB_ID_NODE, 0)]
      (fun h => { h with flw := { h.flw with held := [heldFor 0 0x31 [0, 0]] }, sec := { h.sec with wardens := [(0, [7])] } })) := by
  unfold Meets; decide +kernel
theorem wit_ballotCommandsDo_1 (o : Obligations.BallotCommandsDo) :
    Meets (o.2.1 (heldFor 0 0x31 [0, 1]))
    (st .t [(R.FAB_ID_NODE, 0)]
      (fun h => { h with flw := { h.flw with held := [heldFor 0 0x31 [0, 1]] }, sec := { h.sec with wardens := [(0, [7])] } })) := by
  unfold Meets; decide +kernel
theorem wit_ballotCommandsDo_2 (o : Obligations.BallotCommandsDo) :
    Meets (o.2.2.1 (lost 0 0x31 [0, 0]))
    (st .t [(R.FAB_ID_NODE, 0)]
      (fun h => { h with flw := { h.flw with held := [lost 0 0x31 [0, 0]] } })) := by
  unfold Meets; decide +kernel
theorem wit_ballotCommandsDo_3 (o : Obligations.BallotCommandsDo) :
    Meets (o.2.2.2.1 op 1 ⟨1, [], 2 ^ 60⟩)
    (st .t []
      (fun h => { h with vrd := { h.vrd with lifts := [⟨1, [], 2 ^ 60⟩] } })) := by
  unfold Meets; decide +kernel
theorem wit_ballotCommandsDo_4 (o : Obligations.BallotCommandsDo) :
    Meets (o.2.2.2.2.1 op 1 ⟨1, [], 2 ^ 60⟩)
    (st .t []
      (fun h => { h with vrd := { h.vrd with lifts := [⟨1, [], 2 ^ 60⟩] } })) := by
  unfold Meets; decide +kernel
theorem wit_ballotCommandsDo_5 (o : Obligations.BallotCommandsDo) :
    Meets (o.2.2.2.2.2.1 op 1)
    (st .t [] id) := by
  unfold Meets; decide +kernel
theorem wit_ballotCommandsDo_6 (o : Obligations.BallotCommandsDo) :
    Meets (o.2.2.2.2.2.2.1 (heldFor 0 0x31 [1, 0, 0, 0, 1]) (ve 0 2) [7])
    (st .t [pg 0x44 2, (R.FAB_ID_NODE, 0)]
      (fun h => { h with flw := { h.flw with held := [heldFor 0 0x31 [1, 0, 0, 0, 1]] }, sec := { h.sec with wardens := [(0, [7])] }, vrd := { h.vrd with entries := [ve 0 2] } })) := by
  unfold Meets; decide +kernel
theorem wit_ballotCommandsDo_7 (o : Obligations.BallotCommandsDo) :
    Meets (o.2.2.2.2.2.2.2.1 (heldFor 0 0x31 [1, 0, 0, 0, 1]) (ve 0 2))
    (st .t [pg 0x44 2, (R.FAB_ID_NODE, 0)]
      (fun h => { h with flw := { h.flw with held := [heldFor 0 0x31 [1, 0, 0, 0, 1]] }, vrd := { h.vrd with entries := [ve 0 2] } })) := by
  unfold Meets; decide +kernel
theorem wit_ballotCommandsDo_8 (o : Obligations.BallotCommandsDo) :
    Meets (o.2.2.2.2.2.2.2.2.1 (lost 0 0x31 [1, 0]))
    (st .t [(R.FAB_ID_NODE, 0)]
      (fun h => { h with flw := { h.flw with held := [lost 0 0x31 [1, 0]] } })) := by
  unfold Meets; decide +kernel
theorem wit_ballotCommandsDo_9 (o : Obligations.BallotCommandsDo) :
    Meets (o.2.2.2.2.2.2.2.2.2.1 1 (ve 0 2))
    (st .t [pg 0x44 2]
      (fun h => { h with vrd := { h.vrd with entries := [ve 0 2] } })) := by
  unfold Meets; decide +kernel
theorem wit_ballotCommandsDo_10 (o : Obligations.BallotCommandsDo) :
    Meets (o.2.2.2.2.2.2.2.2.2.2 1)
    (st .t [] id) := by
  unfold Meets; decide +kernel
theorem wit_compressionCommandsDo_0 (o : Obligations.CompressionCommandsDo) :
    Meets (o.1 0 [0x10000450])
    (st .l [(R.Q_CFG_ENGINE.at 0, 4)] (runs [0x10000450])) := by
  unfold Meets; decide +kernel
theorem wit_compressionCommandsDo_1 (o : Obligations.CompressionCommandsDo) :
    Meets (o.2.1 0 [0x100450])
    (st .l [(R.Q_CFG_ENGINE.at 0, 4)]
      (fun h => runs [0x100450] { h with cmp := { h.cmp with slots := [slot0 0] } })) := by
  unfold Meets; decide +kernel
theorem wit_compressionCommandsDo_2 (o : Obligations.CompressionCommandsDo) :
    Meets (o.2.2.1 0 [0x450])
    (st .l [(R.Q_CFG_ENGINE.at 0, 4)] (runs [0x450])) := by
  unfold Meets; decide +kernel
theorem wit_compressionCommandsDo_3 (o : Obligations.CompressionCommandsDo) :
    Meets (o.2.2.2.1 0 [0x451, 0, 65536] (run [0x451, 0, 65536]) (slot0 0) (by decide))
    (st .l [(R.Q_CFG_ENGINE.at 0, 4), (R.Q_CFG_CTX.at 0, 0)]
      (fun h => runs [0x451, 0, 65536] { h with cmp := { h.cmp with slots := [slot0 0] } })) := by
  unfold Meets; decide +kernel
theorem wit_compressionCommandsDo_4 (o : Obligations.CompressionCommandsDo) :
    Meets (o.2.2.2.2.1 0 [0x452] (slot0 0))
    (st .l [(R.Q_CFG_ENGINE.at 0, 4), (R.Q_CFG_CTX.at 0, 0)]
      (fun h => runs [0x452] { h with cmp := { h.cmp with slots := [slot0 0] } })) := by
  unfold Meets; decide +kernel
theorem wit_compressionCommandsDo_5 (o : Obligations.CompressionCommandsDo) :
    Meets (o.2.2.2.2.2.1 0 [0x452] (slot0 5))
    (st .l [(R.Q_CFG_ENGINE.at 0, 4), (R.Q_CFG_CTX.at 0, 0)]
      (fun h => runs [0x452] { h with cmp := { h.cmp with slots := [slot0 5] } })) := by
  unfold Meets; decide +kernel
theorem wit_compressionCommandsDo_6 (o : Obligations.CompressionCommandsDo) :
    Meets (o.2.2.2.2.2.2.1 0 [0x453] (slot0 0) (run [0x453]) (((((st .l [(R.Q_CFG_ENGINE.at 0, 4), (R.Q_CFG_CTX.at 0, 0)]
      (fun h => runs [0x453] { h with keys := [⟨0, 0, 0⟩], cmp := { h.cmp with slots := [slot0 0] } }))).hw.quiet.slotImage (slot0 0)).map (fun x => x.1)).get rfl) (by decide))
    (st .l [(R.Q_CFG_ENGINE.at 0, 4), (R.Q_CFG_CTX.at 0, 0)]
      (fun h => runs [0x453] { h with keys := [⟨0, 0, 0⟩], cmp := { h.cmp with slots := [slot0 0] } })) := by
  unfold Meets; exact ⟨by decide +kernel, by decide +kernel, by decide +kernel, by decide +kernel, by decide +kernel, by decide +kernel, (Option.some_get _).symm⟩
theorem wit_compressionCommandsDo_7 (o : Obligations.CompressionCommandsDo) :
    Meets (o.2.2.2.2.2.2.2.1 0 [0x454] (run [0x454]) (by decide))
    (st .l [(R.Q_CFG_ENGINE.at 0, 4)] (runs [0x454])) := by
  unfold Meets; decide +kernel
theorem wit_compressionCommandsDo_8 (o : Obligations.CompressionCommandsDo) :
    Meets (o.2.2.2.2.2.2.2.2.1 0 [0x455, 0, 1] (run [0x455, 0, 1]) (by decide) (by decide))
    (st .l [(R.Q_CFG_ENGINE.at 0, 4)] (runs [0x455, 0, 1])) := by
  unfold Meets; decide +kernel
theorem wit_compressionCommandsDo_9 (o : Obligations.CompressionCommandsDo) :
    Meets (o.2.2.2.2.2.2.2.2.2.1 0 [0x560, 0, 1] (run [0x560, 0, 1]) (by decide) (by decide) (by decide) (by decide) (by decide))
    (st .l [(R.Q_CFG_ENGINE.at 0, 5)] (runs [0x560, 0, 1])) := by
  unfold Meets; decide +kernel
theorem wit_compressionCommandsDo_10 (o : Obligations.CompressionCommandsDo) :
    Meets (o.2.2.2.2.2.2.2.2.2.2.1 op)
    (st .l [pg 0x48 2, (R.CH_CFG_EN.at 1, 1)]
      (fun h => { h with trc := { h.trc with buf := [(0, [1])] } })) := by
  unfold Meets; decide +kernel
theorem wit_compressionCommandsDo_11 (o : Obligations.CompressionCommandsDo) :
    Meets (o.2.2.2.2.2.2.2.2.2.2.2.1 op)
    (st .l []
      (fun h => { h with cmp := { h.cmp with archive := some [] } })) := by
  unfold Meets; decide +kernel
theorem wit_compressionCommandsDo_12 (o : Obligations.CompressionCommandsDo) :
    Meets (o.2.2.2.2.2.2.2.2.2.2.2.2.1)
    (st .l [pg 0x48 2, (R.CH_CFG_EN.at 3, 1)]
      (fun h => { h with cmp := { h.cmp with chans := [⟨3, [(0, [])], 0, 0, 0, 0, false⟩] } })) := by
  unfold Meets; exact ⟨(0, []), [], by decide +kernel⟩
theorem wit_compressionCommandsDo_13 (o : Obligations.CompressionCommandsDo) :
    Meets (o.2.2.2.2.2.2.2.2.2.2.2.2.2.1)
    (st .l [pg 0x48 2, (R.CH_CFG_EN.at 1, 1)] id) := by
  unfold Meets; decide +kernel
theorem wit_compressionCommandsDo_14 (o : Obligations.CompressionCommandsDo) :
    Meets (o.2.2.2.2.2.2.2.2.2.2.2.2.2.2)
    (st .l [pg 0x48 2, (R.CH_CFG_EN.at 3, 1)] id) := by
  unfold Meets; decide +kernel
theorem wit_recorderCommandsDo_0 (o : Obligations.RecorderCommandsDo) :
    Meets (o.1 (ev0 false))
    (st .t []
      (fun h => { h with evr := { h.evr with ring := [ev0 false] } })) := by
  unfold Meets; decide +kernel
theorem wit_recorderCommandsDo_1 (o : Obligations.RecorderCommandsDo) :
    Meets (o.2.1)
    (st .t [] id) := by
  unfold Meets; decide +kernel
theorem wit_recorderCommandsDo_2 (o : Obligations.RecorderCommandsDo) :
    Meets (o.2.2.1 op)
    (st .t []
      (fun h => { h with evr := { h.evr with ring := [ev0 true] } })) := by
  unfold Meets; decide +kernel
theorem wit_recorderCommandsDo_3 (o : Obligations.RecorderCommandsDo) :
    Meets (o.2.2.2.1 op)
    (st .t [(R.EVR_HOST_LEN_CODE, 0x8000), (R.EVR_HOST_LEN_BYTES, 992)] id) := by
  unfold Meets; decide +kernel
theorem wit_recorderCommandsDo_4 (o : Obligations.RecorderCommandsDo) :
    Meets (o.2.2.2.2.1 op)
    (st .t [(R.EVR_HOST_LEN_CODE, 0x7FFF), (R.EVR_HOST_LEN_BYTES, 8)] id) := by
  unfold Meets; decide +kernel
theorem wit_recorderCommandsDo_5 (o : Obligations.RecorderCommandsDo) :
    Meets (o.2.2.2.2.2.1 op)
    (st .t [pg 0x4C 2, (R.EVR_STAT_NV_STOPPED, 1)] id) := by
  unfold Meets; decide +kernel
theorem wit_recorderCommandsDo_6 (o : Obligations.RecorderCommandsDo) :
    Meets (o.2.2.2.2.2.2.1 op)
    (st .t [] id) := by
  unfold Meets; decide +kernel
theorem wit_recorderCommandsDo_7 (o : Obligations.RecorderCommandsDo) :
    Meets (o.2.2.2.2.2.2.2.1 op)
    (st .t [pg 0x4C 2] id) := by
  unfold Meets; decide +kernel
theorem wit_recorderCommandsDo_8 (o : Obligations.RecorderCommandsDo) :
    Meets (o.2.2.2.2.2.2.2.2.1 ((Hw.makeRoom ((padMul 64 (itemBytes ((st .t [pg 0x4C 2, (R.EVR_STAT_MIRROR_RUN, 1), (R.EVR_CFG_PACK, 0)]
      (fun h => { h with evr := { h.evr with ring := [ev0 true] } }))).hw.quiet.evr.gapBefore ((st .t [pg 0x4C 2, (R.EVR_STAT_MIRROR_RUN, 1), (R.EVR_CFG_PACK, 0)]
      (fun h => { h with evr := { h.evr with ring := [ev0 true] } }))).hw.quiet.nextItem)).length / 64) (((st .t [pg 0x4C 2, (R.EVR_STAT_MIRROR_RUN, 1), (R.EVR_CFG_PACK, 0)]
      (fun h => { h with evr := { h.evr with ring := [ev0 true] } }))).hw.quiet.evr.items.length + 1) ((st .t [pg 0x4C 2, (R.EVR_STAT_MIRROR_RUN, 1), (R.EVR_CFG_PACK, 0)]
      (fun h => { h with evr := { h.evr with ring := [ev0 true] } }))).hw.quiet).get (by decide +kernel)))
    (st .t [pg 0x4C 2, (R.EVR_STAT_MIRROR_RUN, 1), (R.EVR_CFG_PACK, 0)]
      (fun h => { h with evr := { h.evr with ring := [ev0 true] } })) := by
  unfold Meets; exact ⟨by decide +kernel, by decide +kernel, by decide +kernel, by decide +kernel, by decide +kernel, (Option.some_get _).symm⟩
theorem wit_recorderCommandsDo_9 (o : Obligations.RecorderCommandsDo) :
    Meets (o.2.2.2.2.2.2.2.2.2.1 (ev0 true) [])
    (st .t [pg 0x4C 2, (R.EVR_STAT_MIRROR_RUN, 1), (R.EVR_CFG_PACK, 1)]
      (fun h => { h with evr := { h.evr with ring := [ev0 true] } })) := by
  unfold Meets; decide +kernel
theorem wit_recorderCommandsDo_10 (o : Obligations.RecorderCommandsDo) :
    Meets (o.2.2.2.2.2.2.2.2.2.2.1)
    (st .t [pg 0x4C 2, (R.EVR_STAT_MIRROR_RUN, 1)] id) := by
  unfold Meets; decide +kernel
theorem wit_recorderCommandsDo_11 (o : Obligations.RecorderCommandsDo) :
    Meets (o.2.2.2.2.2.2.2.2.2.2.2.1 (nv0 1 false) [] rfl)
    (st .t []
      (fun h => { h with evr := { h.evr with nv := [nv0 1 false] } })) := by
  unfold Meets; decide +kernel
theorem wit_recorderCommandsDo_12 (o : Obligations.RecorderCommandsDo) :
    Meets (o.2.2.2.2.2.2.2.2.2.2.2.2.1 (nv0 1 false) [] rfl)
    (st .t []
      (fun h => { h with evr := { h.evr with nv := [nv0 1 false] } })) := by
  unfold Meets; decide +kernel
theorem wit_recorderCommandsDo_13 (o : Obligations.RecorderCommandsDo) :
    Meets (o.2.2.2.2.2.2.2.2.2.2.2.2.2.1 (nv0 1 true) [] rfl)
    (st .t []
      (fun h => { h with evr := { h.evr with nv := [nv0 1 true] } })) := by
  unfold Meets; decide +kernel
theorem wit_recorderCommandsDo_14 (o : Obligations.RecorderCommandsDo) :
    Meets (o.2.2.2.2.2.2.2.2.2.2.2.2.2.2.1 (nv0 1 false) [] rfl)
    (st .t []
      (fun h => { h with evr := { h.evr with nv := [nv0 1 false] } })) := by
  unfold Meets; decide +kernel
theorem wit_recorderCommandsDo_15 (o : Obligations.RecorderCommandsDo) :
    Meets (o.2.2.2.2.2.2.2.2.2.2.2.2.2.2.2.1 [] 7 [] [1])
    (st .t []
      (fun h => { h with evr := { h.evr with reads := [(7, 0)], sbRead := [[1]] } })) := by
  unfold Meets; decide +kernel
theorem wit_recorderCommandsDo_16 (o : Obligations.RecorderCommandsDo) :
    Meets (o.2.2.2.2.2.2.2.2.2.2.2.2.2.2.2.2.1 [] 7 [])
    (st .t []
      (fun h => { h with evr := { h.evr with reads := [(7, 0)] } })) := by
  unfold Meets; decide +kernel
theorem wit_recorderCommandsDo_17 (o : Obligations.RecorderCommandsDo) :
    Meets (o.2.2.2.2.2.2.2.2.2.2.2.2.2.2.2.2.2 true [] 7 [])
    (st .t []
      (fun h => { h with evr := { h.evr with reads := [(7, 1)] } })) := by
  unfold Meets; decide +kernel
theorem wit_mailboxCommandsDo_0 (o : Obligations.MailboxCommandsDo) :
    Meets (o.1 op 7 7 0 (by decide) (by decide))
    (st .t [] id) := by
  unfold Meets; decide +kernel
theorem wit_mailboxCommandsDo_1 (o : Obligations.MailboxCommandsDo) :
    Meets (o.2.1 op 7 7 0xF0 0 (by decide) (by decide) (by decide))
    (st .t [(R.MBX_STAT_FULL.at 7, 1)] id) := by
  unfold Meets; decide +kernel
theorem wit_mailboxCommandsDo_2 (o : Obligations.MailboxCommandsDo) :
    Meets (o.2.2.1 op 7 64 (by decide) (by decide) (by decide))
    (st .t [] id) := by
  unfold Meets; decide +kernel
theorem wit_mailboxCommandsDo_3 (o : Obligations.MailboxCommandsDo) :
    Meets (o.2.2.2.1 op 7 65 (by decide) (by decide))
    (st .t [] id) := by
  unfold Meets; decide +kernel
theorem wit_mailboxCommandsDo_4 (o : Obligations.MailboxCommandsDo) :
    Meets (o.2.2.2.2.1 op 7 (by decide))
    (st .t [(R.MBX_STAT_FULL.at 7, 1)] id) := by
  unfold Meets; decide +kernel
theorem wit_mailboxCommandsDo_5 (o : Obligations.MailboxCommandsDo) :
    Meets (o.2.2.2.2.2.1 op 8 (by decide) (by decide))
    (st .t [(R.MBX_STAT_FULL.at 8, 1)] id) := by
  unfold Meets; decide +kernel
theorem wit_mailboxCommandsDo_6 (o : Obligations.MailboxCommandsDo) :
    Meets (o.2.2.2.2.2.2.1 7 (by decide))
    (st .t [(R.PWR_START_BOOT, 1), (R.MBX_STAT_FULL.at 7, 1)] id) := by
  unfold Meets; decide +kernel
theorem wit_mailboxCommandsDo_7 (o : Obligations.MailboxCommandsDo) :
    Meets (o.2.2.2.2.2.2.2.1 8 [1] (by decide) (by decide) (by decide) (by decide))
    (st .t [(R.PWR_START_BOOT, 1)] id) := by
  unfold Meets; decide +kernel
theorem wit_mailboxCommandsDo_8 (o : Obligations.MailboxCommandsDo) :
    Meets (o.2.2.2.2.2.2.2.2.1 op 1 (by decide))
    (st .t [] id) := by
  unfold Meets; decide +kernel
theorem wit_mailboxCommandsDo_9 (o : Obligations.MailboxCommandsDo) :
    Meets (o.2.2.2.2.2.2.2.2.2.1 op 1 (by decide))
    (st .t [] id) := by
  unfold Meets; decide +kernel
theorem wit_mailboxCommandsDo_10 (o : Obligations.MailboxCommandsDo) :
    Meets (o.2.2.2.2.2.2.2.2.2.2.1 op 1 (by decide))
    (st .t [] id) := by
  unfold Meets; decide +kernel
theorem wit_mailboxCommandsDo_11 (o : Obligations.MailboxCommandsDo) :
    Meets (o.2.2.2.2.2.2.2.2.2.2.2.1 op 1 (by decide))
    (st .t [] id) := by
  unfold Meets; decide +kernel
theorem wit_mailboxCommandsDo_12 (o : Obligations.MailboxCommandsDo) :
    Meets (o.2.2.2.2.2.2.2.2.2.2.2.2.1 63 (by decide))
    (st .t [(R.PWR_START_BOOT, 1)] id) := by
  unfold Meets; decide +kernel
theorem wit_mailboxCommandsDo_13 (o : Obligations.MailboxCommandsDo) :
    Meets (o.2.2.2.2.2.2.2.2.2.2.2.2.2 63 (by decide))
    (st .t [(R.PWR_START_BOOT, 1)] id) := by
  unfold Meets; decide +kernel
theorem wit_contextCommandsDo_0 (o : Obligations.ContextCommandsDo) :
    Meets (o.1 op 3)
    (st .t [(R.CTX_CFG_WEIGHT.at 3, 1)] id) := by
  unfold Meets; decide +kernel
theorem wit_contextCommandsDo_1 (o : Obligations.ContextCommandsDo) :
    Meets (o.2.1 op 3)
    (st .t [(R.CTX_CFG_WEIGHT.at 3, 1), (R.CTX_CFG_EN.at 3, 1)] id) := by
  unfold Meets; decide +kernel
theorem wit_contextCommandsDo_2 (o : Obligations.ContextCommandsDo) :
    Meets (o.2.2.1 op 0)
    (st .t [(R.CTX_CFG_WEIGHT.at 0, 1), (R.SEC_STAT_BLOB, 1)] id) := by
  unfold Meets; decide +kernel
theorem wit_contextCommandsDo_3 (o : Obligations.ContextCommandsDo) :
    Meets (o.2.2.2.1 3)
    (st .t [(R.CTX_STAT_CLEARING.at 3, 1)] id) := by
  unfold Meets; decide +kernel
theorem wit_contextCommandsDo_4 (o : Obligations.ContextCommandsDo) :
    Meets (o.2.2.2.2.1 op 63 (by decide))
    (st .t [] id) := by
  unfold Meets; decide +kernel
theorem wit_contextCommandsDo_5 (o : Obligations.ContextCommandsDo) :
    Meets (o.2.2.2.2.2.1)
    (st .t [pg 0x50 2, (R.SEC_STAT_BLOB, 0)] id) := by
  unfold Meets; decide +kernel
theorem wit_contextCommandsDo_6 (o : Obligations.ContextCommandsDo) :
    Meets (o.2.2.2.2.2.2.1 op)
    (st .t [] id) := by
  unfold Meets; decide +kernel
theorem wit_contextCommandsDo_7 (o : Obligations.ContextCommandsDo) :
    Meets (o.2.2.2.2.2.2.2.1 1 true [] ⟨1, 0, .blob⟩)
    (st .t []
      (fun h => { h with sec := { h.sec with rot := [⟨1, 0, .blob⟩] } })) := by
  unfold Meets; decide +kernel
theorem wit_contextCommandsDo_8 (o : Obligations.ContextCommandsDo) :
    Meets (o.2.2.2.2.2.2.2.2 1 ⟨1, 0, .blob⟩)
    (st .t []
      (fun h => { h with sec := { h.sec with rot := [⟨1, 0, .blob⟩] } })) := by
  unfold Meets; decide +kernel
theorem wit_diagnosticCommandsDo_0 (o : Obligations.DiagnosticCommandsDo) :
    Meets (o.1 true)
    (st .t [] id) := by
  unfold Meets; decide +kernel
theorem wit_diagnosticCommandsDo_1 (o : Obligations.DiagnosticCommandsDo) :
    Meets (o.2.1)
    (st .t []
      (fun h => { h with saf := { h.saf with ctrlPaused := true } })) := by
  unfold Meets; decide +kernel
theorem wit_diagnosticCommandsDo_2 (o : Obligations.DiagnosticCommandsDo) :
    Meets (o.2.2.1 15 1 (by decide))
    (st .t [pg 0x20 2] id) := by
  unfold Meets; decide +kernel
theorem wit_diagnosticCommandsDo_3 (o : Obligations.DiagnosticCommandsDo) :
    Meets (o.2.2.2.1 15)
    (st .t [pg 0x20 2] id) := by
  unfold Meets; decide +kernel
theorem wit_diagnosticCommandsDo_4 (o : Obligations.DiagnosticCommandsDo) :
    Meets (o.2.2.2.2.1)
    (st .t [] id) := by
  unfold Meets; decide +kernel
theorem wit_diagnosticCommandsDo_5 (o : Obligations.DiagnosticCommandsDo) :
    Meets (o.2.2.2.2.2.1)
    (st .t [] id) := by
  unfold Meets; decide +kernel
theorem wit_diagnosticCommandsDo_6 (o : Obligations.DiagnosticCommandsDo) :
    Meets (o.2.2.2.2.2.2.1 1)
    (st .t [] id) := by
  unfold Meets; decide +kernel
theorem wit_diagnosticCommandsDo_7 (o : Obligations.DiagnosticCommandsDo) :
    Meets (o.2.2.2.2.2.2.2.1 [])
    (st .t [] id) := by
  unfold Meets; decide +kernel
theorem wit_diagnosticCommandsDo_8 (o : Obligations.DiagnosticCommandsDo) :
    Meets (o.2.2.2.2.2.2.2.2.1 0 1)
    (st .t [] id) := by
  unfold Meets; decide +kernel
theorem wit_diagnosticCommandsDo_9 (o : Obligations.DiagnosticCommandsDo) :
    Meets (o.2.2.2.2.2.2.2.2.2.1 op)
    (st .t [] id) := by
  unfold Meets; decide +kernel
theorem wit_diagnosticCommandsDo_10 (o : Obligations.DiagnosticCommandsDo) :
    Meets (o.2.2.2.2.2.2.2.2.2.2.1 op 17 0 (by decide) (by decide) (by decide))
    (st .t [] id) := by
  unfold Meets; decide +kernel
theorem wit_diagnosticCommandsDo_11 (o : Obligations.DiagnosticCommandsDo) :
    Meets (o.2.2.2.2.2.2.2.2.2.2.2.1 op 18 0 (by decide) (by decide))
    (st .t [] id) := by
  unfold Meets; decide +kernel
theorem wit_diagnosticCommandsDo_12 (o : Obligations.DiagnosticCommandsDo) :
    Meets (o.2.2.2.2.2.2.2.2.2.2.2.2 op 1 0 (by decide) (by decide) (by decide))
    (st .t []
      (fun h => { h with saf := { h.saf with inj := some (1, 0) } })) := by
  unfold Meets; decide +kernel
theorem wit_hazardCommandsDo_0 (o : Obligations.HazardCommandsDo) :
    Meets (o.1 0)
    (st .t [] id) := by
  unfold Meets; decide +kernel
theorem wit_hazardCommandsDo_1 (o : Obligations.HazardCommandsDo) :
    Meets (o.2.1 0)
    (st .t [] id) := by
  unfold Meets; decide +kernel
theorem wit_hazardCommandsDo_2 (o : Obligations.HazardCommandsDo) :
    Meets (o.2.2.1 5)
    (st .t [(R.SAF_CFG_CRC_CRC, 5)] id) := by
  unfold Meets; decide +kernel
theorem wit_hazardCommandsDo_3 (o : Obligations.HazardCommandsDo) :
    Meets (o.2.2.2.1 6)
    (st .t [(R.SAF_CFG_CRC_CRC, 5)] id) := by
  unfold Meets; decide +kernel
theorem wit_hazardCommandsDo_4 (o : Obligations.HazardCommandsDo) :
    Meets (o.2.2.2.2.1 0)
    (st .t [] id) := by
  unfold Meets; decide +kernel
theorem wit_hazardCommandsDo_5 (o : Obligations.HazardCommandsDo) :
    Meets (o.2.2.2.2.2.1)
    (st .t [] id) := by
  unfold Meets; decide +kernel
theorem wit_hazardCommandsDo_6 (o : Obligations.HazardCommandsDo) :
    Meets (o.2.2.2.2.2.2.1 7 (by decide))
    (st .t []
      (fun h => { h with saf := { h.saf with hzEn := 0xFF } })) := by
  unfold Meets; decide +kernel
theorem wit_hazardCommandsDo_7 (o : Obligations.HazardCommandsDo) :
    Meets (o.2.2.2.2.2.2.2.1 7 (by decide))
    (st .t []
      (fun h => { h with saf := { h.saf with hzIn := 0x80 } })) := by
  unfold Meets; decide +kernel
theorem wit_hazardCommandsDo_8 (o : Obligations.HazardCommandsDo) :
    Meets (o.2.2.2.2.2.2.2.2.1 0)
    (st .t [] id) := by
  unfold Meets; decide +kernel
theorem wit_hazardCommandsDo_9 (o : Obligations.HazardCommandsDo) :
    Meets (o.2.2.2.2.2.2.2.2.2.1)
    (st .t [] id) := by
  unfold Meets; decide +kernel
theorem wit_hazardCommandsDo_10 (o : Obligations.HazardCommandsDo) :
    Meets (o.2.2.2.2.2.2.2.2.2.2.1)
    (st .t []
      (fun h => { h with saf := { h.saf with testMode := true } })) := by
  unfold Meets; decide +kernel
theorem wit_hazardCommandsDo_11 (o : Obligations.HazardCommandsDo) :
    Meets (o.2.2.2.2.2.2.2.2.2.2.2.1)
    (st .t [] id) := by
  unfold Meets; decide +kernel
theorem wit_hazardCommandsDo_12 (o : Obligations.HazardCommandsDo) :
    Meets (o.2.2.2.2.2.2.2.2.2.2.2.2 0)
    (st .t []
      (fun h => { h with saf := { h.saf with inj := some (13, 0) } })) := by
  unfold Meets; decide +kernel
theorem wit_startAndUpdateCommandsDo_0 (o : Obligations.StartAndUpdateCommandsDo) :
    Meets (o.1)
    (st .t [(R.PWR_START_CORE, 1)] id) := by
  unfold Meets; decide +kernel
theorem wit_startAndUpdateCommandsDo_1 (o : Obligations.StartAndUpdateCommandsDo) :
    Meets (o.2.1)
    (st .t [(R.PWR_START_CORE, 1)] id) := by
  unfold Meets; decide +kernel
theorem wit_startAndUpdateCommandsDo_2 (o : Obligations.StartAndUpdateCommandsDo) :
    Meets (o.2.2.1 (testOk true))
    (st .t [(R.PWR_START_BLOB, 1)] id) := by
  unfold Meets; decide +kernel
theorem wit_startAndUpdateCommandsDo_3 (o : Obligations.StartAndUpdateCommandsDo) :
    Meets (o.2.2.2.1 (testOk false))
    (st .t [(R.PWR_START_BLOB, 1)] id) := by
  unfold Meets; decide +kernel
theorem wit_startAndUpdateCommandsDo_4 (o : Obligations.StartAndUpdateCommandsDo) :
    Meets (o.2.2.2.2.1)
    (st .t [(R.PWR_START_DONE, 1), (R.FLW_RESV_NEED, 0)] id) := by
  unfold Meets; decide +kernel
theorem wit_startAndUpdateCommandsDo_5 (o : Obligations.StartAndUpdateCommandsDo) :
    Meets (o.2.2.2.2.2.1 op)
    (st .t [pg 0x5C 2, (R.UPD_SEG_LEN_BYTES, 64), (R.UPD_IMG_SIZE_KIB, 1)] id) := by
  unfold Meets; decide +kernel
theorem wit_startAndUpdateCommandsDo_6 (o : Obligations.StartAndUpdateCommandsDo) :
    Meets (o.2.2.2.2.2.2.1 op)
    (st .t [pg 0x5C 2] id) := by
  unfold Meets; decide +kernel
theorem wit_startAndUpdateCommandsDo_7 (o : Obligations.StartAndUpdateCommandsDo) :
    Meets (o.2.2.2.2.2.2.2.1 op)
    (st .t [pg 0x5C 2, (R.UPD_STAT_STATE, 2)] id) := by
  unfold Meets; decide +kernel
theorem wit_startAndUpdateCommandsDo_8 (o : Obligations.StartAndUpdateCommandsDo) :
    Meets (o.2.2.2.2.2.2.2.2.1 op)
    (st .t [(R.UPD_STAT_STATE, 1)] id) := by
  unfold Meets; decide +kernel
theorem wit_startAndUpdateCommandsDo_9 (o : Obligations.StartAndUpdateCommandsDo) :
    Meets (o.2.2.2.2.2.2.2.2.2.1 op)
    (st .t [(R.UPD_STAT_STATE, 4)] id) := by
  unfold Meets; decide +kernel
theorem wit_startAndUpdateCommandsDo_10 (o : Obligations.StartAndUpdateCommandsDo) :
    Meets (o.2.2.2.2.2.2.2.2.2.2.1 op)
    (st .t [(R.UPD_STAT_STATE, 3)] id) := by
  unfold Meets; decide +kernel
theorem wit_startAndUpdateCommandsDo_11 (o : Obligations.StartAndUpdateCommandsDo) :
    Meets (o.2.2.2.2.2.2.2.2.2.2.2.1 op)
    (st .t [(R.UPD_STAT_STATE, 2)] id) := by
  unfold Meets; decide +kernel
theorem wit_startAndUpdateCommandsDo_12 (o : Obligations.StartAndUpdateCommandsDo) :
    Meets (o.2.2.2.2.2.2.2.2.2.2.2.2.1)
    (st .t [pg 0x5C 2, (R.UPD_STAT_STATE, 3)] id) := by
  unfold Meets; decide +kernel
theorem wit_startAndUpdateCommandsDo_13 (o : Obligations.StartAndUpdateCommandsDo) :
    Meets (o.2.2.2.2.2.2.2.2.2.2.2.2.2.1)
    (st .t []
      (fun h => { h with upd := { h.upd with awaiting := true } })) := by
  unfold Meets; decide +kernel
theorem wit_startAndUpdateCommandsDo_14 (o : Obligations.StartAndUpdateCommandsDo) :
    Meets (o.2.2.2.2.2.2.2.2.2.2.2.2.2.2)
    (st .t []
      (fun h => { h with upd := { h.upd with awaiting := true } })) := by
  unfold Meets; decide +kernel

end Sys2Proof.Tests
end

section
/-!
What a command can do to the state, said once for all commands, and the FRC (R113).
-/
namespace Sys2Proof.Machine

/-! ### What a command can do to the state -/

/-- A read response either finds no read that it answers or works on the block alone (R45). -/
theorem execDmaReadComplete_cases (id : Nat) (s : State) :
    execDmaReadComplete id s = .next s ∨ ∃ f, execDmaReadComplete id s = s.go f := by
  unfold execDmaReadComplete
  split
  · split
    · exact .inl rfl
    · exact .inr ⟨_, rfl⟩
  · exact .inl rfl

/-- An error response either finds no request that it answers or works on the block alone (R45). -/
theorem execDmaErrorResponse_cases (id : Nat) (s : State) :
    execDmaErrorResponse id s = .next s ∨ ∃ f, execDmaErrorResponse id s = s.go f := by
  unfold execDmaErrorResponse
  split
  · exact .inr ⟨_, rfl⟩
  · exact .inl rfl

/-- A write response either finds no write that it answers or works on the block and writes the request's bytes to memory (R45). -/
theorem execDmaWriteResponse_cases (id : Nat) (s : State) :
    execDmaWriteResponse id s = .next s ∨
    ∃ f a bs, execDmaWriteResponse id s = .next { s.on f with mem := Memory.writeBytes s.mem a bs } := by
  unfold execDmaWriteResponse
  split
  · split
    · exact .inl rfl
    · exact .inr ⟨_, _, _, rfl⟩
  · exact .inl rfl

/-- Every command but the two edges of PORST_N leaves the state as it is, or works on the block through `State.on`; a write response also writes
bytes to the memory behind the DMA port. -/
theorem exec_cases {c : Instr} (s : State) (hAssert : c ≠ .porstNAssert) (hRelease : c ≠ .porstNRelease) :
    exec c s = .next s ∨ (∃ f, exec c s = s.go f) ∨
    ∃ id f a bs, c = .dmaWriteResponse id ∧ exec c s = .next { s.on f with mem := Memory.writeBytes s.mem a bs } := by
  cases c with
  | porstNAssert => exact absurd rfl hAssert
  | porstNRelease => exact absurd rfl hRelease
  | dmaReadComplete id => exact (execDmaReadComplete_cases id s).imp_right .inl
  | dmaErrorResponse id => exact (execDmaErrorResponse_cases id s).imp_right .inl
  | dmaWriteResponse id =>
    exact (execDmaWriteResponse_cases id s).imp_right fun ⟨f, a, bs, e⟩ => .inr ⟨id, f, a, bs, rfl, e⟩
  | _ => exact .inr (.inl ⟨_, rfl⟩)

/-! ### The FRC -/

/-- While the always-on domain is powered the next TCLK cycle counts the FRC one on. -/
theorem Hw.nextFrc_of_aon {h : Hw} (ha : h.pwr.aon = true) : h.nextFrc = (h.frc + 1) % 2 ^ 64 := if_pos ha

/-- The block under PORST_N has the FRC at zero, in every profile. -/
@[simp] theorem Hw.resetFor_frc (p : Profile) : (Hw.resetFor p).frc = 0 := rfl

/-- PORST_N sets the FRC to zero. -/
theorem porstNAssert_frc (s : State) : Completes .porstNAssert s fun t => t.frc = 0 :=
  Completes.of_clocked _ rfl (Hw.resetFor_frc s.hw.prof)

/-- No command but an edge of PORST_N writes the FRC: what runs through `State.on` has it put back, and memory does not hold it. -/
theorem exec_frc {c : Instr} {s t : State} (hAssert : c ≠ .porstNAssert) (hRelease : c ≠ .porstNRelease) (ht : exec c s = .next t) :
    t.hw.frc = s.hw.frc := by
  obtain e | ⟨f, e⟩ | ⟨id, f, a, bs, -, e⟩ := exec_cases s hAssert hRelease
  · cases e.symm.trans ht
    rfl
  · cases e.symm.trans ht
    exact State.on_frc s f
  · cases e.symm.trans ht
    exact State.on_frc s f

/-- Settles O3: a tick counts by `Hw.nextFrc` alone, and by the inversion `exec_cases` no command but PORST_N's reaches the FRC. -/
theorem frcCounts : Obligations.FrcCounts :=
  ⟨fun h ha => (Hw.tick_frc h).trans (Hw.nextFrc_of_aon ha), porstNAssert_frc, fun _ _ _ hAssert hRelease ht => exec_frc hAssert hRelease ht⟩

end Sys2Proof.Machine
end

section
/-!
Rehoming and stepping of the encoding (R375, R376): what the four commands can change, and that none of it is an action on the fleet (R377).
-/
namespace Sys2Proof.Machine

/-! ### The record of a choice -/

/-- The registers that one choice under cause `c` may write (R281). -/
def choiceRegs (c : Nat) : List Field :=
  [R.ND_TOTAL_LO_COUNT, R.ND_TOTAL_HI_COUNT, R.ND_LAST_CAUSE, R.ND_LAST_FRC_LO_FRC, R.ND_LAST_FRC_HI_FRC, R.ND_CNT_COUNT.at c,
    R.PAGE_IRQ_STAT_FUNC_IRQ 0x13]

theorem Hw.choice_same (h : Hw) (c : Nat) : h.SameBut (h.choice c) (choiceRegs c) :=
  fun f hf => h.choice_g c f fun g hg => (hf g hg).symm

/-! ### The frame of rehoming and stepping -/

/-- The registers of rehoming and stepping: the home in use, the state bit of each, their interrupt bits and the record of the choice under
causes 11 and 12 (R281, R375, R376). -/
def healRegs : List Field :=
  [R.CUL_LEAF_ACTIVE, R.FLW_STAT_REHOMED, R.FRM_STAT_STEPPED_DOWN, R.PAGE_IRQ_STAT_FUNC_IRQ 0x30, R.PAGE_IRQ_STAT_FUNC_IRQ 0x13,
    R.ND_TOTAL_LO_COUNT, R.ND_TOTAL_HI_COUNT, R.ND_LAST_CAUSE, R.ND_LAST_FRC_LO_FRC, R.ND_LAST_FRC_HI_FRC, R.ND_CNT_COUNT.at 11, R.ND_CNT_COUNT.at 12]

/-- The block changes in what healing may change alone: its registers, the note of this cycle's sets (R11), the steps of the encoding and when
the last was taken. -/
structure Hw.Heals (h t : Hw) : Prop where
  rest : t = { h with regs := t.regs, sets := t.sets, cnt := { h.cnt with stepDown := t.cnt.stepDown, stepFrc := t.cnt.stepFrc } }
  regs : h.SameBut t healRegs

theorem Hw.Heals.refl (h : Hw) : h.Heals h := ⟨rfl, .refl h _⟩

theorem Hw.Heals.trans {a b c : Hw} (h : a.Heals b) (k : b.Heals c) : a.Heals c where
  rest := by rw [k.rest, h.rest]
  regs := h.regs.trans k.regs

theorem Hw.Heals.of_only {h t : Hw} (ho : h.OnlyRegs t) (hs : h.SameBut t healRegs) : h.Heals t where
  rest := by rw [ho]
  regs := hs

theorem Hw.Heals.ite {h t : Hw} {p : Prop} [Decidable p] (ht : h.Heals t) : h.Heals (if p then t else h) := by
  split
  · exact ht
  · exact .refl h

theorem Hw.s_heals (h : Hw) {f : Field} (v : Nat) (hf : f ∈ healRegs) : h.Heals (h.s f v) :=
  .of_only (.write h f v) ((Hw.SameBut.refl h _).write v hf)

theorem Hw.raise_heals (h : Hw) {p : Nat} (b : Nat) (hp : R.PAGE_IRQ_STAT_FUNC_IRQ p ∈ healRegs) : h.Heals (h.raise p b) :=
  .of_only (h.raise_only p b) (h.setBits_same _ _ hp)

theorem Hw.choice_heals (h : Hw) {c : Nat} (hc : ∀ e ∈ choiceRegs c, e ∈ healRegs) : h.Heals (h.choice c) :=
  .of_only (h.choice_eq c) ((h.choice_same c).mono hc)

theorem Hw.showSteps_heals (h : Hw) : h.Heals h.showSteps := h.s_heals _ (by simp [healRegs])

/-- Taking a step, its time and its record included (R376). -/
theorem Hw.setSteps_heals (h : Hw) (n : Nat) : h.Heals (h.setSteps n) :=
  have steps : h.Heals { h with cnt := { h.cnt with stepDown := n, stepFrc := h.frc } } := ⟨rfl, (Hw.SameBut.refl h _).of_regs rfl⟩
  (steps.trans (Hw.showSteps_heals _)).trans (Hw.choice_heals _ (by simp [choiceRegs, healRegs]))

/-! ### The four commands -/

/-- The answer `r` from `s` is an effect on the block within the frame of healing. -/
def State.Heals (s : State) (r : Result) : Prop := ∃ f : Hw → Hw, r = s.go f ∧ ∀ h : Hw, h.Heals (f h)

theorem execLeafRehome_heals (s : State) : s.Heals (execLeafRehome s) :=
  ⟨_, rfl, fun h => .ite <|
    have moved : h.Heals ((h.s R.CUL_LEAF_ACTIVE 2).s R.FLW_STAT_REHOMED 1) :=
      (h.s_heals 2 (by simp [healRegs])).trans (Hw.s_heals _ 1 (by simp [healRegs]))
    (moved.trans (Hw.raise_heals _ 23 (by simp [healRegs]))).trans (Hw.choice_heals _ (by simp [choiceRegs, healRegs]))⟩

theorem execLeafRehomeReturn_heals (s : State) : s.Heals (execLeafRehomeReturn s) :=
  ⟨_, rfl, fun h => .ite <| (h.s_heals 1 (by simp [healRegs])).trans (Hw.s_heals _ 0 (by simp [healRegs]))⟩

theorem execLeafEncStepDown_heals (s : State) : s.Heals (execLeafEncStepDown s) :=
  ⟨_, rfl, fun h => .ite (h.setSteps_heals _)⟩

theorem execLeafEncStepUp_heals (s : State) : s.Heals (execLeafEncStepUp s) :=
  ⟨_, rfl, fun h => .ite (h.setSteps_heals _)⟩

/-- The four commands of rehoming and stepping stay within the frame of healing. -/
theorem exec_heals {c : Instr} (hc : c ∈ [Instr.leafRehome, .leafRehomeReturn, .leafEncStepDown, .leafEncStepUp]) (s : State) :
    s.Heals (exec c s) := by
  simp only [List.mem_cons, List.not_mem_nil, or_false] at hc
  obtain rfl | rfl | rfl | rfl := hc
  · exact execLeafRehome_heals s
  · exact execLeafRehomeReturn_heals s
  · exact execLeafEncStepDown_heals s
  · exact execLeafEncStepUp_heals s

/-- `State.on` has no profile and no FRC to put back after an effect of healing. -/
theorem State.on_hw_of_heals (s : State) {f : Hw → Hw} (hf : ∀ h : Hw, h.Heals (f h)) : (s.on f).hw = f { s.hw with out := [] } := by
  unfold State.on
  rw [(hf _).rest]

/-- Settles O44: each of the four commands is an effect on the block within `Hw.Heals`, and memory is not the block's. That a step's and a
rehoming's own record is the choice record alone is log entry 155 (DEDUCED from R281, R372 and R493). -/
theorem healingIsNoAction : Obligations.HealingIsNoAction := by
  intro c hc s t ht
  obtain ⟨f, hgo, hf⟩ := exec_heals hc s
  cases hgo.symm.trans ht
  obtain ⟨rest, regs⟩ := hf { s.hw with out := [] }
  rw [State.on_hw_of_heals s hf]
  exact ⟨State.on_mem s f, rest, fun x hx => regs x fun g hg => (hx g hg).symm⟩

end Sys2Proof.Machine
end

section
/-!
Inbound mailboxes (R500, R501): what a write of MBX_DATA, PUSH and the firmware's pop come to, each told case by case, and what each leaves
as it was. Whether a mailbox is full and whether the page takes messages is asked of the registers, which the answer to the access leaves.
-/
namespace Sys2Proof.Machine

/-! ### A command's effect where its access reaches -/

/-- Two effects that agree on the block as the command finds it are one effect of the command. -/
theorem State.go_congr {s : State} {f g : Hw → Hw} (e : f s.hw.quiet = g s.hw.quiet) : s.go f = s.go g := by
  unfold Hw.quiet at e
  simp only [State.go, State.on, e]

/-- What a command that runs `f` completes with, where `f` comes to `t` and what is claimed does not look at the profile and the FRC. -/
theorem Completes.of_go_eq {c : Instr} {s : State} {P : Hw → Prop} {f : Hw → Hw} {t : Hw} (h : exec c s = s.go f) (e : f s.hw.quiet = t)
    (hk : ∀ k : Hw, P k → P { k with prof := s.hw.prof, frc := s.hw.frc }) (hp : P t) : Completes c s P :=
  Completes.of_go_keep f h hk (e ▸ hp)

/-- Answering an access writes no register. -/
theorem Hw.quiet_reply_same (h : Hw) (data : Nat) (l : List Field) : h.SameBut (h.quiet.reply data) l := fun _ _ => rfl

theorem Hw.MbxReach.quiet {h : Hw} {a : Acc} {m off : Nat} (hr : h.MbxReach a m off) : h.quiet.MbxReach a m off := hr

theorem exec_mbxDataWrite_reach {s : State} {a : Acc} {m i strb : Nat} (data : Nat) (hm : m < 8) (hi : i < 8)
    (hs : [0x0F, 0xF0, 0xFF].contains strb = true) (hr : s.hw.MbxReach a m (8 * i)) :
    exec (.mbxDataWrite a m i strb data) s = s.go fun h => (h.reply 0).mbxData m i strb data := by
  refine State.go_congr ((if_neg ?_).trans (Hw.access_mbx hr.quiet))
  simp only [hs, Bool.not_true, Bool.false_eq_true, or_false]
  omega

theorem exec_mbxPush_reach {s : State} {a : Acc} {m : Nat} (len : Nat) (hm : m < 8) (hr : s.hw.MbxReach a m 0x40) :
    exec (.mbxPush a m len) s = s.go fun h => (h.reply 0).mbxCtl m true false (len % 128) :=
  State.go_congr ((if_neg (by omega)).trans (Hw.access_mbx hr.quiet))

/-- The firmware's pop of a message that stands in an inbound mailbox (R501). -/
theorem exec_firmwareMbxPop_full {s : State} {m : Nat} (hm : m < 8) (hw : s.hw.firmware = true) (hf : s.hw.mbxFull m = true) :
    exec (.firmwareMbxPop m) s = s.go fun h => ((h.mbxEmpty m).s (R.MBX_STAT_TAKEN.at m) 1).raise 0x4D 17 :=
  State.go_congr (if_pos ⟨hw, hm, hf⟩)

/-! ### The status of a mailbox -/

/-- MBX_STAT of mailbox `m`. -/
def mbxStat (m : Nat) : List Field := [R.MBX_STAT_FULL.at m, R.MBX_STAT_TAKEN.at m, R.MBX_STAT_LEN.at m]

/-- The three fields of a mailbox's status lie at bits of their own. -/
theorem mbxStat_key_ne (m : Nat) :
    (R.MBX_STAT_TAKEN.at m).key ≠ (R.MBX_STAT_FULL.at m).key ∧ (R.MBX_STAT_LEN.at m).key ≠ (R.MBX_STAT_FULL.at m).key := by
  unfold Field.key Field.at R.MBX_STAT_TAKEN R.MBX_STAT_FULL R.MBX_STAT_LEN
  simp only
  omega

theorem mbxStat_fn {m : Nat} (hm : m < 16) : ∀ f ∈ mbxStat m, f.fn := by
  intro f hf
  simp only [mbxStat, List.mem_cons, List.not_mem_nil, or_false] at hf
  obtain rfl | rfl | rfl := hf <;>
    exact Field.fn_at (by simp [Field.fn, Field.ok, R.MBX_STAT_FULL, R.MBX_STAT_TAKEN, R.MBX_STAT_LEN]) (by omega)

theorem Hw.mbxPush_full (h : Hw) (m len : Nat) : (h.mbxPush m len).g (R.MBX_STAT_FULL.at m) = 1 := by
  obtain ⟨htaken, hlen⟩ := mbxStat_key_ne m
  unfold Hw.mbxPush
  rw [Hw.g_s_ne _ _ hlen, Hw.g_s_ne _ _ htaken, Hw.g_s_self]
  rfl

theorem Hw.mbxPush_len (h : Hw) (m : Nat) {len : Nat} (hl : len < 128) : (h.mbxPush m len).g (R.MBX_STAT_LEN.at m) = len :=
  (Hw.g_s_self _ _ _).trans (Nat.mod_eq_of_lt hl)

theorem Hw.mbxPush_same (h : Hw) (m len : Nat) : h.SameBut (h.mbxPush m len) (mbxStat m) :=
  ((Hw.SameBut.refl h _ |>.write 1 (by simp [mbxStat])).write 0 (by simp [mbxStat])).write len (by simp [mbxStat])

/-- A mailbox whose message is taken is not full. -/
theorem Hw.mbxTaken_full (h : Hw) (m : Nat) : ((h.mbxEmpty m).s (R.MBX_STAT_TAKEN.at m) 1).g (R.MBX_STAT_FULL.at m) = 0 := by
  obtain ⟨htaken, hlen⟩ := mbxStat_key_ne m
  unfold Hw.mbxEmpty
  rw [Hw.g_s_ne _ _ htaken, Hw.g_s_ne _ _ hlen, Hw.g_s_self]
  rfl

theorem Hw.mbxTaken_same (h : Hw) (m : Nat) : h.SameBut ((h.mbxEmpty m).s (R.MBX_STAT_TAKEN.at m) 1) (mbxStat m) :=
  ((Hw.SameBut.refl h _ |>.write 0 (by simp [mbxStat])).write 0 (by simp [mbxStat])).write 1 (by simp [mbxStat])

/-- The cause bits of a page stand where only function registers change (R80). -/
theorem Hw.SameBut.g_irq {h t : Hw} {l : List Field} (hs : h.SameBut t l) (hl : ∀ f ∈ l, f.fn) (p : Nat) :
    t.g (R.PAGE_IRQ_STAT_FUNC_IRQ p) = h.g (R.PAGE_IRQ_STAT_FUNC_IRQ p) :=
  hs _ fun f hf => (Field.irq_key_ne (hl f hf) p).symm

/-! ### The rules of MBX_DATA and PUSH, case by case (R501) -/

section
variable {h : Hw} {m : Nat} (hm : m < 8)
include hm

theorem Hw.mbxData_full (i strb data : Nat) (hf : h.mbxFull m = true) : h.mbxData m i strb data = h.mbxDeny E.mbxFull :=
  (if_neg (by omega)).trans (if_pos hf)

/-- A write of all eight bytes to a mailbox that is not full stores the word and is accepted. -/
theorem Hw.mbxData_whole (i data : Nat) (hf : h.mbxFull m = false) :
    h.mbxData m i 0xFF data = (h.s (R.MBX_DATA_DATA.at (8 * m + i)) data).accepted 0x4D :=
  (if_neg (by omega)).trans (if_neg (by simp [hf]))

theorem Hw.mbxCtl_push_full (len : Nat) (hf : h.mbxFull m = true) : h.mbxCtl m true false len = h.mbxDeny E.mbxFull :=
  (if_neg (by omega)).trans (if_pos (by simp [hf]))

theorem Hw.mbxCtl_push_badLen {len : Nat} (hf : h.mbxFull m = false) (hl : len = 0 ∨ 64 < len) :
    h.mbxCtl m true false len = h.refuse 0x4D E.badValue :=
  (if_neg (by omega)).trans <| (if_neg (by simp [hf])).trans (if_pos (by simpa using hl))

theorem Hw.mbxCtl_push_ok {len : Nat} (hf : h.mbxFull m = false) (hl : 1 ≤ len ∧ len ≤ 64) (ht : h.mbxTakes = true) :
    h.mbxCtl m true false len = (h.mbxPush m len).accepted 0x4D := by
  have hlen : ¬ (len = 0 ∨ 64 < len) := by omega
  exact (if_neg (by omega)).trans <| (if_neg (by simp [hf])).trans <| (if_neg (by simpa using hlen)).trans (if_neg (by simp [ht]))

end

/-! ### The commands -/

/-- MBX_DATA of a mailbox that is not full takes the word written, and PAGE_SEQ counts the write. -/
theorem mbxDataWrite_stores {s : State} {a : Acc} {m i : Nat} (data : Nat) (hm : m < 8) (hi : i < 8) (hr : s.hw.MbxReach a m (8 * i))
    (hf : s.hw.mbxFull m = false) :
    Completes (.mbxDataWrite a m i 0xFF data) s fun t => t.g (R.MBX_DATA_DATA.at (8 * m + i)) = data % 2 ^ 64 ∧ t.rsp = ⟨0, false⟩ ∧
      s.hw.SameBut t [R.MBX_DATA_DATA.at (8 * m + i), R.PAGE_SEQ_SEQ 0x4D] := by
  refine Completes.of_go_eq (exec_mbxDataWrite_reach data hm hi (by decide) hr) (Hw.mbxData_whole hm i data hf) (fun _ hk => hk) ?_
  have hfn : (R.MBX_DATA_DATA.at (8 * m + i)).fn := Field.fn_at (by simp [Field.fn, Field.ok, R.MBX_DATA_DATA]) (by omega)
  exact ⟨(Hw.g_accepted _ _ hfn).trans (Hw.g_s_self _ _ _), rfl,
    ((s.hw.quiet_reply_same 0 _).write data (by simp)).trans ((Hw.accepted_same _ _).mono (by simp))⟩

/-- PUSH of 1 to 64 bytes sets FULL and LEN of a mailbox that is not full, where the page takes messages (log entry 68). -/
theorem mbxPush_sends {s : State} {a : Acc} {m len : Nat} (hm : m < 8) (hl : 1 ≤ len ∧ len ≤ 64) (hr : s.hw.MbxReach a m 0x40)
    (hf : s.hw.mbxFull m = false) (ht : s.hw.mbxTakes = true) :
    Completes (.mbxPush a m len) s fun t => t.g (R.MBX_STAT_FULL.at m) = 1 ∧ t.g (R.MBX_STAT_LEN.at m) = len ∧ t.rsp = ⟨0, false⟩ ∧
      s.hw.SameBut t [R.MBX_STAT_FULL.at m, R.MBX_STAT_TAKEN.at m, R.MBX_STAT_LEN.at m, R.PAGE_SEQ_SEQ 0x4D] := by
  have hgo := exec_mbxPush_reach len hm hr
  rw [Nat.mod_eq_of_lt (by omega : len < 128)] at hgo
  refine Completes.of_go_eq hgo (Hw.mbxCtl_push_ok hm hf hl ht) (fun _ hk => hk) ?_
  have hfn := mbxStat_fn (m := m) (by omega)
  refine ⟨(Hw.g_accepted _ _ (hfn _ (by simp [mbxStat]))).trans (Hw.mbxPush_full _ _ _),
    (Hw.g_accepted _ _ (hfn _ (by simp [mbxStat]))).trans (Hw.mbxPush_len _ _ (by omega)), rfl, ?_⟩
  have hs := (s.hw.quiet_reply_same 0 _).trans (Hw.mbxPush_same _ m len)
  exact (hs.mono (by simp [mbxStat])).trans ((Hw.accepted_same _ _).mono (by simp))

/-- The firmware's pop clears FULL and raises SPACE, bit 17 of PAGE_IRQ_STAT. -/
theorem firmwareMbxPop_takes {s : State} {m : Nat} (hm : m < 8) (hw : s.hw.firmware = true) (hf : s.hw.mbxFull m = true) :
    Completes (.firmwareMbxPop m) s fun t => t.g (R.MBX_STAT_FULL.at m) = 0 ∧
      t.g (R.PAGE_IRQ_STAT_FUNC_IRQ 0x4D) = (s.hw.g (R.PAGE_IRQ_STAT_FUNC_IRQ 0x4D) ||| 2) % 2 ^ 16 ∧
      s.hw.SameBut t [R.MBX_STAT_FULL.at m, R.MBX_STAT_TAKEN.at m, R.MBX_STAT_LEN.at m, R.PAGE_IRQ_STAT_FUNC_IRQ 0x4D] := by
  refine Completes.of_go_eq (exec_firmwareMbxPop_full hm hw hf) rfl (fun _ hk => hk) ?_
  have hfn := mbxStat_fn (m := m) (by omega)
  have hs : s.hw.SameBut ((s.hw.quiet.mbxEmpty m).s (R.MBX_STAT_TAKEN.at m) 1) (mbxStat m) := Hw.mbxTaken_same s.hw.quiet m
  refine ⟨(Hw.g_raise _ _ _ (hfn _ (by simp [mbxStat]))).trans (Hw.mbxTaken_full _ _), ?_,
    (hs.mono (by simp [mbxStat])).trans ((Hw.raise_same _ _ _).mono (by simp))⟩
  rw [← hs.g_irq hfn]
  exact Hw.g_setBits_self _ _ _

/-- Settles O15: the positive cases are the three lemmas above; while FULL is set both kinds of write come to `Hw.mbxDeny`, and a length out of
range to `Hw.refuse`. -/
theorem inboundMailboxes : Obligations.InboundMailboxes := by
  refine ⟨?stores, ?sends, ?dataFull, ?pushFull, ?pops, ?badLen⟩
  case stores => exact fun s a m i data hm hi hr hf => mbxDataWrite_stores data hm hi hr hf
  case sends => exact fun s a m len hm h1 h64 hr hf ht => mbxPush_sends hm ⟨h1, h64⟩ hr hf ht
  case dataFull =>
    exact fun s a m i strb data hm hi hs hr hf =>
      Completes.of_deny (by decide) (exec_mbxDataWrite_reach data hm hi hs hr) (Hw.mbxData_full hm i strb data hf)
  case pushFull =>
    exact fun s a m len hm hr hf => Completes.of_deny (by decide) (exec_mbxPush_reach len hm hr) (Hw.mbxCtl_push_full hm _ hf)
  case pops => exact fun s m hm hw hf => firmwareMbxPop_takes hm hw hf
  case badLen =>
    exact fun s a m len hm hl hr hf =>
      Completes.of_refuse (by decide) (exec_mbxPush_reach len hm hr) (Hw.mbxCtl_push_badLen hm hf (by omega))

end Sys2Proof.Machine
end

section
/-!
The latched values of the requesters (R511): `Kp w key v h` says that requester `w` holds `v` latched under `key`. A host read of requester `a`
keeps it for every `w` but `a` itself, since of all that a read comes to `Hw.latchRead` alone writes latches, and only under `a`'s own name.
-/
namespace Sys2Proof.Machine

/-! ### What of a read writes no latch -/

@[simp] theorem Hw.reply_latches (h : Hw) (data : Nat) : (h.reply data).latches = h.latches := rfl
@[simp] theorem Hw.busError_latches (h : Hw) : h.busError.latches = h.latches := rfl
@[simp] theorem Hw.dropBits_latches (h : Hw) (f : Field) (m : Nat) : (h.dropBits f m).latches = h.latches := rfl
@[simp] theorem Hw.errRead_latches (h : Hw) (p : Nat) : (h.errRead p).latches = h.latches := rfl
@[simp] theorem Hw.rdTrace_latches (h : Hw) : h.rdTrace.latches = h.latches := rfl

@[simp] theorem Hw.readRing_latches (h : Hw) : h.readRing.latches = h.latches := by
  unfold Hw.readRing
  simp only [Hw.reply_latches, Hw.s_latches]
  split <;> rfl

@[simp] theorem Hw.mbxPop_latches (h : Hw) (m : Nat) : (h.mbxPop m).latches = h.latches := by
  unfold Hw.mbxPop
  split <;> rfl

/-- Clearing what reading clears (R9) writes registers, not latches. -/
@[simp] theorem Hw.clearRead_latches (h : Hw) (p off : Nat) : (h.clearRead p off).latches = h.latches := by
  unfold Hw.clearRead
  have cleared : ∀ l : List (Row × Nat), (h.each l fun h x => h.s (x.1.f.at (h.elem x.1 p x.2)) 0).latches = h.latches :=
    fun l => Hw.each_keeps (fun k => k.latches = h.latches) _ (fun k _ e => (k.s_latches _ 0).trans e) l h rfl
  split
  · exact cleared _
  · exact cleared _

/-! ### A read keeps what another requester holds -/

section
variable {w key : Nat} {v : Option Latch} {h : Hw}

theorem Kp.of_latches {t : Hw} (hk : Kp w key v h) (e : t.latches = h.latches) : Kp w key v t := by
  unfold Kp at *
  rw [e, hk]

/-- A latch under one requester's name leaves what is found under another's, also where it displaces an older one. -/
theorem find_latch_of_who_ne (ls : List Latch) (l : Latch) (hw : l.who ≠ w) (k : Nat) :
    (l :: ls.filter fun m => !(m.who == l.who && m.key == k)).find? (fun m => m.who == w && m.key == key) =
      ls.find? fun m => m.who == w && m.key == key := by
  rw [List.find?_cons_of_neg (by simp [hw]), List.find?_filter]
  congr 1
  funext m
  by_cases hm : m.who = w
  · simp [hm, hw.symm, beq_eq_decide]
  · simp [hm]

/-- The latches that a read makes are its requester's own (R511). -/
theorem Kp.latchRead {a : Acc} (hw : whoOf a ≠ w) (hk : Kp w key v h) (p off : Nat) : Kp w key v (h.latchRead a p off) := by
  refine Hw.each_keeps (Kp w key v) _ (fun h x hk => Hw.each_keeps (Kp w key v) _ (fun h f hk => ?_) _ _ hk) _ _ hk
  exact (find_latch_of_who_ne h.latches ⟨whoOf a, _, _⟩ hw _).trans hk

/-- An access keeps the latch where its effect does: the ways in which it does not reach its register write none. -/
theorem Kp.access (hk : Kp w key v h) (a : Acc) (p off : Nat) (also : Bool) {f : Hw → Hw} (hf : ∀ k, Kp w key v k → Kp w key v (f k)) :
    Kp w key v (h.access a p off also f) := by
  unfold Hw.access
  split
  case isTrue => exact hk.of_latches rfl
  split
  case isTrue => exact hk.of_latches rfl
  split
  case isTrue => split <;> exact hk.of_latches rfl
  split
  case isTrue => exact hf _ (hk.of_latches rfl)
  case isFalse => exact hk.of_latches (by simp)

section
variable {a : Acc} (hw : whoOf a ≠ w)
include hw

/-- Of a function register's read the last branch alone, that of a plain word, latches. -/
theorem Kp.funcRead (hk : Kp w key v h) (p off : Nat) : Kp w key v (h.funcRead a p off) := by
  unfold Hw.funcRead
  repeat' split
  case isFalse => exact (hk.latchRead hw p off).of_latches (by simp)
  all_goals exact hk.of_latches (by simp)

theorem Kp.readWord (hk : Kp w key v h) (p off : Nat) : Kp w key v (h.readWord a p off) := by
  refine hk.access a p off _ fun k hk => ?_
  split
  · exact hk.of_latches (by simp)
  · split
    · exact hk.of_latches (by simp)
    · exact hk.funcRead hw p off

/-- A host read of either width keeps what another requester holds: a wide one reads two words in turn (R42). -/
theorem Kp.busRead (hk : Kp w key v h) (addr : Nat) (wide : Bool) : Kp w key v (h.busRead a addr wide) := by
  unfold Hw.busRead
  have lower := hk.readWord hw (addr % 2 ^ 20 / 4096) (addr % 4096)
  have both := lower.readWord hw (addr % 2 ^ 20 / 4096) (addr % 4096 + 4)
  simp only
  split
  · split
    · exact lower
    · exact hk.of_latches rfl
  · split
    · exact hk.of_latches rfl
    · split
      · exact both.of_latches rfl
      · split
        · exact both
        · exact both.of_latches rfl

end

end

/-! ### The commands -/

/-- A command keeps what `w` holds where its effect does: the profile and the FRC, put back, are no latches. -/
theorem Completes.of_go_kp {c : Instr} {s : State} {f : Hw → Hw} {w key : Nat} (hgo : exec c s = s.go f)
    (hf : ∀ {v}, Kp w key v s.hw.quiet → Kp w key v (f s.hw.quiet)) :
    Completes c s (Kp w key (s.hw.latches.find? fun l => l.who == w && l.key == key)) :=
  Completes.of_go_keep f hgo (fun _ hk => hk) (hf rfl)

/-- Settles O17: each of the three reads comes to `Kp.readWord` or `Kp.busRead`. -/
theorem latchesArePrivate : Obligations.LatchesArePrivate := by
  intro s a b addr key hab
  refine ⟨?latching, ?narrow, ?wide⟩
  case latching =>
    refine Completes.of_go_kp (w := whoOf b) rfl fun hk => ?_
    split
    · exact hk.readWord hab _ _
    · exact hk.of_latches rfl
  case narrow => exact Completes.of_go_kp (w := whoOf b) rfl fun hk => hk.busRead hab addr false
  case wide => exact Completes.of_go_kp (w := whoOf b) rfl fun hk => hk.busRead hab addr true

end Sys2Proof.Machine
end

section
/-!
The machine as a whole: the queue of commands, the invariant of every step, the reset state, and what a DMA write leaves in memory (R1, R10, R45, R46).
-/
namespace Sys2Proof.Machine

/-! ### Steps -/

theorem step_of_pending {s : State} {c : Instr} {rest : List Instr} (hp : s.pending = c :: rest) :
    step s = exec c { s with pending := rest } := by
  unfold step
  rw [hp]

theorem step_of_empty {s : State} (hp : s.pending = []) : step s = .next (s.clocked Hw.tick) := by
  unfold step
  rw [hp]
  exact State.idle_eq s

/-- While the always-on domain is not powered the FRC stands. -/
theorem Hw.nextFrc_of_off {h : Hw} (ha : h.pwr.aon = false) : h.nextFrc = h.frc := if_neg (by simp [ha])

theorem State.clocked_frc (s : State) (f : Hw → Hw) : (s.clocked f).hw.frc = (f { s.hw with out := [] }).frc := rfl

theorem clocked_tick_frc (s : State) : (s.clocked Hw.tick).hw.frc = s.hw.nextFrc := by
  rw [State.clocked_frc, Hw.tick_frc]
  rfl

/-- A tick has neither memory nor profile to change. -/
theorem clocked_keeps_inv {p : Profile} {s : State} (f : Hw → Hw) (hs : s.Inv p) : (s.clocked f).Inv p := by
  unfold State.Inv State.memOk
  rw [State.clocked_mem, State.clocked_prof]
  exact hs

/-- Settles O1: it is the equation of `step` at a queue that is not empty. -/
theorem stepRunsTheFront : Obligations.StepRunsTheFront := fun c rest s => step_cons s c rest

/-- Settles O2: the step is `State.idle`, and the FRC counts by `Hw.nextFrc`. That an empty queue lets one TCLK cycle pass is log entry 4. -/
theorem emptyQueueTicks : Obligations.EmptyQueueTicks := by
  intro s hp
  refine ⟨s.clocked Hw.tick, step_of_empty hp, State.clocked_mem s _, (State.clocked_pending s _).trans hp, State.clocked_hw s _, fun ha => ?on, fun ha => ?off⟩
  case on => exact (clocked_tick_frc s).trans (Hw.nextFrc_of_aon ha)
  case off => exact (clocked_tick_frc s).trans (Hw.nextFrc_of_off ha)

/-! ### What every command keeps -/

/-- Settles O4: by the inversion `exec_cases`; PORST_N's two commands work on the block alone. That no command stops the model is log entry 132, and
that memory changes by the response to a write alone is log entries 7 and 102. -/
theorem everyCommandCompletes : Obligations.EveryCommandCompletes := by
  intro c s
  by_cases hAssert : c = .porstNAssert
  · subst hAssert
    exact ⟨_, rfl, rfl, rfl, fun _ => rfl⟩
  by_cases hRelease : c = .porstNRelease
  · subst hRelease
    exact ⟨_, rfl, rfl, rfl, fun _ => rfl⟩
  obtain e | ⟨f, e⟩ | ⟨id, f, a, bs, hc, e⟩ := exec_cases s hAssert hRelease
  · exact ⟨s, e, rfl, rfl, fun _ => rfl⟩
  · exact ⟨s.on f, e, rfl, rfl, fun _ => rfl⟩
  · exact ⟨_, e, rfl, rfl, fun hne => absurd hc (hne id)⟩

/-- A command keeps the memory behind the DMA port in its canonical form: a write response writes bytes, and nothing else reaches it. -/
theorem exec_keeps_memOk {c : Instr} {s t : State} (hm : s.memOk) (ht : exec c s = .next t) : t.memOk := by
  by_cases hw : ∃ id, c = .dmaWriteResponse id
  · obtain ⟨id, rfl⟩ := hw
    obtain e | ⟨f, a, bs, e⟩ := execDmaWriteResponse_cases id s
    · cases e.symm.trans ht
      exact hm
    · cases e.symm.trans ht
      exact Memory.wf_writeBytes bs a hm
  · obtain ⟨u, hu, -, -, hmem⟩ := everyCommandCompletes c s
    cases hu.symm.trans ht
    unfold State.memOk
    rw [hmem fun id h => hw ⟨id, h⟩]
    exact hm

theorem exec_keeps_prof {c : Instr} {s t : State} (ht : exec c s = .next t) : t.hw.prof = s.hw.prof := by
  obtain ⟨u, hu, -, hprof, -⟩ := everyCommandCompletes c s
  cases hu.symm.trans ht
  exact hprof

theorem exec_keeps_inv {p : Profile} {c : Instr} {s t : State} (hs : s.Inv p) (ht : exec c s = .next t) : t.Inv p :=
  ⟨exec_keeps_memOk hs.1 ht, (exec_keeps_prof ht).trans hs.2⟩

/-- Settles O7: a step is a tick or a command. -/
theorem everyStepKeepsInvariant : Obligations.EveryStepKeepsInvariant := by
  intro p s t hs ht
  cases hq : s.pending with
  | nil =>
    cases (step_of_empty hq).symm.trans ht
    exact clocked_keeps_inv _ hs
  | cons c rest => exact exec_keeps_inv (s := { s with pending := rest }) hs ((step_of_pending hq).symm.trans ht)

/-! ### The reset state -/

/-- Settles O5. That the machine right after reset is a Boldal T is log entry 1. -/
theorem resetMeetsInvariant : Obligations.ResetMeetsInvariant := ⟨reset_memory_wf, rfl⟩

/-- Settles O6: each of the three register files holds the values of the Reset column. -/
theorem resetColumn : Obligations.ResetColumn := by
  intro p
  cases p with
  | l => decide +kernel
  | t => decide +kernel
  | g => decide +kernel

/-! ### A DMA write in memory -/

/-- A write response that is awaited writes the bytes of the bursts sent (R45; log entries 102 and 103). -/
theorem exec_dmaWriteResponse {s : State} {id : Nat} {r : DmaReq} (hr : s.hw.dmaReq id = some r) (hw : r.write = true) :
    exec (.dmaWriteResponse id) s = .next
      { s.on fun h => if r.whole then (h.dmaEnd id).writeDone r else h.dmaBack id with
        mem := Memory.writeBytes s.mem r.addr (r.bytes.take r.reached) } := by
  show execDmaWriteResponse id s = _
  unfold execDmaWriteResponse
  simp only [hr, hw, Bool.not_true, Bool.false_eq_true, if_false]

/-- The bursts of a transfer add up to its length (R45). -/
theorem DmaReq.total_bursts (r : DmaReq) : total (r.bursts.map fun b => b.2) = r.len :=
  Machine.total_bursts _ _ _ (Nat.mod_lt _ (by decide)) (by omega) (by omega)

/-- A transfer all of whose bursts are sent has been reached whole. -/
theorem DmaReq.reached_of_whole {r : DmaReq} (hw : r.whole = true) : r.reached = r.len := by
  unfold DmaReq.reached
  rw [List.take_of_length_le (by simpa [DmaReq.whole] using hw)]
  exact r.total_bursts

/-- Settles O8: memory after the response is `Memory.writeBytes` of the bytes that the bursts sent reach. That the bytes stand at the response, as far
as the bursts sent reach, is log entries 7, 102 and 103. -/
theorem writtenBytesStand : Obligations.WrittenBytesStand := by
  refine ⟨fun s id r hm hr hw hl => ⟨_, exec_dmaWriteResponse hr hw, rfl, fun i hi hreach => ?inside, fun x hx => ?outside⟩,
    fun r hw => DmaReq.reached_of_whole hw⟩
  case inside =>
    have hlen : (r.bytes.take r.reached).length ≤ r.bytes.length := List.length_take_le' _ _
    rw [← nth_take (l := r.bytes) hreach]
    exact Memory.writeBytes_in _ r.addr i hm (by simp; omega) (hlen.trans hl)
  case outside =>
    refine Memory.writeBytes_out _ r.addr x hm fun i hi => hx i ?_ ?_ <;> simp at hi <;> omega

end Sys2Proof.Machine
end

section
/-!
Frames of the fabric: the link header's bytes read back, and other bytes are no frame (R323, R324, R335).
-/
namespace Sys2Proof.Machine

/-- The 16 bytes of a frame's link header (R323). -/
def Frame.header (f : Frame) : List Nat :=
  [1 + 16 * f.kind, f.cls + 8 * b2n f.replay + 16 * b2n f.routed] ++ le 2 f.src ++ le 2 f.dst ++ le 2 f.payload.length ++ le 4 f.hseq ++ le 4 0

theorem Frame.bytes_eq (f : Frame) : f.bytes = f.header ++ (f.pfx ++ f.payload) := by simp [Frame.bytes, Frame.header]

theorem Frame.header_length (f : Frame) : f.header.length = 16 := rfl

/-! ### The parts of a list of bytes -/

/-- A number read past a prefix of its offset is read at the start of what follows. -/
theorem slice_append {l t : List Nat} {off n : Nat} (hl : l.length = off) : slice (l ++ t) off n = t.take n := by
  unfold slice
  rw [List.drop_left' hl]

/-- The byte of CLASS, REPLAY and ROUTED holds the three apart (R323). -/
theorem classByte_parts {cls : Nat} (hc : cls < 8) (replay routed : Bool) :
    (cls + 8 * b2n replay + 16 * b2n routed) % 8 = cls ∧ bit (cls + 8 * b2n replay + 16 * b2n routed) 3 = replay ∧
      bit (cls + 8 * b2n replay + 16 * b2n routed) 4 = routed ∧ cls + 8 * b2n replay + 16 * b2n routed < 32 := by
  have hb : ∀ c, c < 8 → ∀ p r : Bool, (c + 8 * b2n p + 16 * b2n r) % 8 = c ∧ bit (c + 8 * b2n p + 16 * b2n r) 3 = p ∧
      bit (c + 8 * b2n p + 16 * b2n r) 4 = r ∧ c + 8 * b2n p + 16 * b2n r < 32 := by decide
  exact hb cls hc replay routed

/-! ### The fields of the link header -/

section
variable (f : Frame) (t : List Nat)

theorem Frame.header_kind : nth (f.header ++ t) 0 = 1 + 16 * f.kind := rfl
theorem Frame.header_class : nth (f.header ++ t) 1 = f.cls + 8 * b2n f.replay + 16 * b2n f.routed := rfl
theorem Frame.header_src (h : f.src < 2 ^ 12) : fld (f.header ++ t) 2 2 = f.src := ofLe_le 2 f.src (by omega)
theorem Frame.header_dst (h : f.dst < 2 ^ 12) : fld (f.header ++ t) 4 2 = f.dst := ofLe_le 2 f.dst (by omega)
theorem Frame.header_len (h : f.payload.length < 2 ^ 16) : fld (f.header ++ t) 6 2 = f.payload.length := ofLe_le 2 f.payload.length (by omega)
theorem Frame.header_hseq (h : f.hseq < 2 ^ 32) : fld (f.header ++ t) 8 4 = f.hseq := ofLe_le 4 f.hseq (by omega)
theorem Frame.header_reserved : fld (f.header ++ t) 12 4 = 0 := rfl

end

/-- Settles O9: each field of the header is read from its own bytes, and prefix and payload are the two parts that follow it. -/
theorem frameReadsBack : Obligations.FrameReadsBack := by
  intro f rest hkind hcls hsrc hdst hseq hlen hpfx
  obtain ⟨hclass, hreplay, hrouted, hsmall⟩ := classByte_parts hcls f.replay f.routed
  have hbytes : f.bytes ++ rest = f.header ++ (f.pfx ++ (f.payload ++ rest)) := by simp [Frame.bytes_eq]
  have hsplit : f.header ++ (f.pfx ++ (f.payload ++ rest)) = (f.header ++ f.pfx) ++ (f.payload ++ rest) := (List.append_assoc _ _ _).symm
  have hprefix : slice (f.header ++ (f.pfx ++ (f.payload ++ rest))) 16 (if f.routed then 34 else 0) = f.pfx := by
    rw [slice_append f.header_length, List.take_left' hpfx]
  have hpayload : slice (f.header ++ (f.pfx ++ (f.payload ++ rest))) (16 + if f.routed then 34 else 0) f.payload.length = f.payload := by
    rw [hsplit, slice_append (by rw [List.length_append, f.header_length, hpfx]), List.take_left' rfl]
  have hwhole : (f.header ++ (f.pfx ++ (f.payload ++ rest))).length = 16 + f.pfx.length + f.payload.length + rest.length := by
    simp only [List.length_append, f.header_length]
    omega
  unfold parseFrame
  rw [hbytes]
  simp only [f.header_kind, f.header_class, f.header_src _ hsrc, f.header_dst _ hdst, f.header_len _ hlen, f.header_hseq _ hseq,
    f.header_reserved, hclass, hreplay, hrouted, hprefix, hpayload, hwhole]
  rw [if_neg (by omega), show (1 + 16 * f.kind) / 16 = f.kind by omega]

/-- Settles O10: each of the six is a condition of `parseFrame`. -/
theorem otherFramesAreNone : Obligations.OtherFramesAreNone := by
  intro bs h
  unfold parseFrame
  exact if_pos (by omega)

end Sys2Proof.Machine
end

section
/-!
Host accesses: the rule of each kind of access that reaches its register, and what a refused access leaves (R37, R43, R78, R83, R112, R510).
-/
namespace Sys2Proof.Machine

/-! ### Accesses that reach their register -/

section
variable {h k : Hw} {a : Acc} {p off code : Nat}

theorem Hw.refuse_eq (h : Hw) (p : Nat) (hc : code < 0x10000) : h.refuse p code = h.err p code := if_pos hc

/-- An operator's write that its rule takes is accepted (R83). -/
theorem Hw.operWrite_ok {f : Hw → Tried} (hr : h.Reach a p off) (e : f (h.reply 0) = .ok k) : h.operWrite a p off f = k.accepted p := by
  rw [Hw.operWrite_reach hr, e]
  rfl

/-- An operator's write that its rule refuses records the code (R83, R112). -/
theorem Hw.operWrite_err {f : Hw → Tried} (hr : h.Reach a p off) (e : f (h.reply 0) = .error code) (hc : code < 0x10000 := by decide) :
    h.operWrite a p off f = (h.reply 0).err p code := by
  rw [Hw.operWrite_reach hr, e]
  exact Hw.refuse_eq _ _ hc

theorem Hw.hostWrite_ok {also : Bool} {f : Hw → Tried} (hr : h.Reach a p off) (e : f (h.reply 0) = .ok k) :
    h.hostWrite a p off also f = k.accepted p := by
  rw [Hw.hostWrite_reach hr, e]
  rfl

theorem Hw.hostWrite_err {also : Bool} {f : Hw → Tried} (hr : h.Reach a p off) (e : f (h.reply 0) = .error code) (hc : code < 0x10000 := by decide) :
    h.hostWrite a p off also f = (h.reply 0).err p code := by
  rw [Hw.hostWrite_reach hr, e]
  exact Hw.refuse_eq _ _ hc

theorem Hw.queueAccess_ok {q : Nat} {also : Bool} {f : Hw → Tried} (hr : QueueReach h a q off) (e : f (h.reply 0) = .ok k) :
    h.queueAccess a q off also f = k.accepted (quePage q) := by
  rw [Hw.queueAccess_reach hr, e]

theorem Hw.queueAccess_err {q : Nat} {also : Bool} {f : Hw → Tried} (hr : QueueReach h a q off) (e : f (h.reply 0) = .error code) :
    h.queueAccess a q off also f = (h.reply 0).queueErr q code := by
  rw [Hw.queueAccess_reach hr, e]

end

/-! ### Accesses that do not reach it -/

section
variable {h : Hw} {a : Acc} {p off : Nat} (f : Hw → Hw)

/-- An access while the page's domain is off (R37). -/
theorem Hw.operAccess_unpowered (hp : h.powered p off = false) : h.operAccess a p off f = h.busError := if_pos (by simp [hp])

/-- The operator's access to a page that the profile does not implement (R78). -/
theorem Hw.operAccess_absent (ho : a.oper = true) (hp : h.powered p off = true) (hq : h.present p = false) : h.operAccess a p off f = h.reply 0 := by
  simp [Hw.operAccess, Hw.admits, ho, hp, hq]

/-- A tenant's access to a register of the operator alone (R43, R510). -/
theorem Hw.operAccess_tenant (ho : a.oper = false) (hp : h.powered p off = true) (ha : h.admits a = true) (hq : h.present p = true) :
    h.operAccess a p off f = (h.err p E.accessDenied).busError := by
  simp [Hw.operAccess, ho, hp, ha, hq]

end

/-! ### The answer to an access -/

section
variable (h : Hw) (data : Nat)

@[simp] theorem Hw.reply_g (f : Field) : (h.reply data).g f = h.g f := rfl
@[simp] theorem Hw.reply_on (f : Field) : (h.reply data).on f = h.on f := rfl
@[simp] theorem Hw.reply_state (p : Nat) : (h.reply data).state p = h.state p := rfl
@[simp] theorem Hw.reply_running (p : Nat) : (h.reply data).running p = h.running p := rfl
@[simp] theorem Hw.reply_off (p : Nat) : (h.reply data).off p = h.off p := rfl
@[simp] theorem Hw.reply_updState : (h.reply data).updState = h.updState := rfl
@[simp] theorem Hw.quiet_updState : h.quiet.updState = h.updState := rfl

theorem Hw.incSat_reply (f : Field) : (h.reply data).incSat f = (h.incSat f).reply data := by
  unfold Hw.incSat
  rw [Hw.reply_g]
  split <;> rfl

/-- Recording an error does not look at the answer to the access. -/
theorem Hw.err_reply (p code : Nat) : (h.reply data).err p code = (h.err p code).reply data := by
  unfold Hw.err
  rw [Hw.reply_g]
  split
  · exact congrArg (Hw.setBits · _ 1) (Hw.incSat_reply (h.s (R.PAGE_ERR_FIRST p) code) data _)
  · exact congrArg (Hw.setBits · _ 1) (Hw.incSat_reply h data _)

end

/-! ### What the operator's commands come to -/

/-- A command of the operator runs under the operator check of its register, whatever the state. -/
theorem exec_operAt {c : Instr} {a : Acc} {p off : Nat} (hc : operAt c = some (a, p, off)) (s : State) :
    ∃ f : Hw → Hw, exec c s = s.go fun h => h.operAccess a p off f :=
  (operAt_go c a p off hc).imp fun _ hf => hf s

/-- Settles O11: the access ends at the operator check, which records ACCESS_DENIED. -/
theorem tenantsAreRefused : Obligations.TenantsAreRefused := by
  intro c a p off s hc ho hp ha hq
  obtain ⟨f, hf⟩ := exec_operAt hc s
  refine Completes.of_deny (by decide) hf ?_
  have hbus : ((s.hw.quiet.reply 0).err p E.accessDenied).busError = (s.hw.quiet.err p E.accessDenied).busError := by
    rw [Hw.err_reply]
    rfl
  exact (Hw.operAccess_tenant (h := s.hw.quiet) f ho hp ha hq).trans hbus.symm

/-- Settles O12: the access ends at the power check. That a domain held in reset counts as off is log entry 156. -/
theorem unpoweredAccessesDoNothing : Obligations.UnpoweredAccessesDoNothing := by
  intro c a p off s hc hp
  obtain ⟨f, hf⟩ := exec_operAt hc s
  refine Completes.of_go _ hf ?_
  rw [Hw.operAccess_unpowered (h := { s.hw with out := [] }) f hp]
  rfl

/-- Settles O13: the access ends at the check that the page exists. -/
theorem absentPagesIgnoreWrites : Obligations.AbsentPagesIgnoreWrites := by
  intro c a p off s hc ho hp hq
  obtain ⟨f, hf⟩ := exec_operAt hc s
  refine Completes.of_go _ hf ?_
  rw [Hw.operAccess_absent (h := { s.hw with out := [] }) f ho hp hq]
  rfl

/-! ### Refused writes -/

theorem Hw.onEntry_some {h : Hw} {n : Nat} {e : VEntry} (he : h.vEntry n = some e) (f : VEntry → Tried) : h.onEntry n f = f e := by
  unfold Hw.onEntry
  rw [he]

theorem Hw.evrFormat_running {h : Hw} (hr : h.running 0x4C = true) : h.evrFormat = .error E.badState := if_pos hr

/-- Settles O14: each of the ten comes to the branch of its command's rule that answers with the code. The codes for a slot of 32 or more, for HOLD on a
final entry and for ARCHIVE while the channel is off are log entries 36 and 29. -/
theorem refusedWritesOnlyRecord : Obligations.RefusedWritesOnlyRecord := by
  refine ⟨?format, ?inject, ?handover, ?commit, ?discard, ?rearm, ?hold, ?authorise, ?archive, ?revoke⟩
  case format =>
    exact fun s a hr hrun => Completes.of_refuse (by decide) rfl (Hw.operWrite_err (h := s.hw.quiet) hr (Hw.evrFormat_running hrun))
  case inject =>
    intro s a d i hd hi hbad hr
    refine Completes.of_refuse (by decide) rfl (Hw.operWrite_err (h := s.hw.quiet) hr (if_pos ?_))
    rw [Nat.mod_eq_of_lt hd]
    rcases hbad with rfl | hbig <;> simp [*]
  case handover =>
    exact fun s a hr hst => Completes.of_refuse (by decide) rfl (Hw.operWrite_err (h := s.hw.quiet) hr (if_pos (by simpa using .inr hst)))
  case commit =>
    exact fun s a hr hst => Completes.of_refuse (by decide) rfl (Hw.operWrite_err (h := s.hw.quiet) hr (if_pos (by simpa using hst)))
  case discard =>
    exact fun s a hr hst => Completes.of_refuse (by decide) rfl (Hw.operWrite_err (h := s.hw.quiet) hr (if_pos (by simpa using hst)))
  case rearm =>
    exact fun s a hr hfill => Completes.of_refuse (by decide) rfl (Hw.hostWrite_err (h := s.hw.quiet) hr (if_pos hfill))
  case hold =>
    exact fun s a n e hr he hfin => Completes.of_refuse (by decide) rfl
      (Hw.operWrite_err (h := s.hw.quiet) hr ((Hw.onEntry_some (h := s.hw.quiet.reply 0) he _).trans (if_pos hfin)))
  case authorise =>
    exact fun s a n e hr he hkind => Completes.of_refuse (by decide) rfl
      (Hw.operWrite_err (h := s.hw.quiet) hr ((Hw.onEntry_some (h := s.hw.quiet.reply 0) he _).trans (if_pos hkind)))
  case archive =>
    exact fun s a hr hoff => Completes.of_refuse (by decide) rfl (Hw.operWrite_err (h := s.hw.quiet) hr (if_pos (by
      show (!s.hw.chanOn 1 || _) = true
      simp [hoff])))
  case revoke =>
    exact fun s a slot hbig hr => Completes.of_refuse (by decide) rfl (Hw.operWrite_err (h := s.hw.quiet) hr (if_pos hbig))

end Sys2Proof.Machine
end

section
/-!
Outbound mailboxes and doorbells (R502, R504), and the HOLD of a verdict entry (R448).
-/
namespace Sys2Proof.Machine

/-! ### Outbound mailboxes -/

section
variable {s : State} {a : Acc} {m : Nat}

/-- The firmware's send into a mailbox that it may fill: the bytes, then the status, then the interrupt (R502). -/
theorem Hw.firmwareSend_eq {h : Hw} {bytes : List Nat} (hm : 8 ≤ m ∧ m < 16) (hb : 0 < bytes.length ∧ bytes.length ≤ 64) (hw : h.firmware = true)
    (hf : h.mbxFull m = false) (ht : h.mbxTakes = true) (t e : Hw) :
    (if h.firmware ∧ 8 ≤ m ∧ m < 16 ∧ !h.mbxFull m ∧ 0 < bytes.length ∧ bytes.length ≤ 64 ∧ h.mbxTakes then t else e) = t :=
  if_pos ⟨hw, hm.1, hm.2, by simp [hf], hb.1, hb.2, ht⟩

theorem firmwareMbxSend_sends {bytes : List Nat} (hm : 8 ≤ m ∧ m < 16) (hb : 0 < bytes.length ∧ bytes.length ≤ 64) (hw : s.hw.firmware = true)
    (hf : s.hw.mbxFull m = false) (ht : s.hw.mbxTakes = true) :
    Completes (.firmwareMbxSend m bytes) s fun t => t.g (R.MBX_STAT_FULL.at m) = 1 ∧ t.g (R.MBX_STAT_LEN.at m) = bytes.length := by
  refine Completes.of_go_eq rfl (Hw.firmwareSend_eq (h := s.hw.quiet) hm hb hw hf ht _ _) (fun _ hk => hk) ?_
  have hfn := mbxStat_fn (m := m) hm.2
  exact ⟨(Hw.g_raise _ _ _ (hfn _ (by simp [mbxStat]))).trans (Hw.mbxPush_full _ _ _),
    (Hw.g_raise _ _ _ (hfn _ (by simp [mbxStat]))).trans (Hw.mbxPush_len _ _ (by omega))⟩

theorem Hw.reply_rsp (h : Hw) (data : Nat) : (h.reply data).rsp = ⟨data, false⟩ := rfl

theorem Hw.mbxPop_full {h : Hw} (hm : 8 ≤ m) (hf : h.mbxFull m = true) :
    h.mbxPop m = ((h.mbxEmpty m).s (R.MBX_STAT_TAKEN.at m) 1).reply (h.g (R.MBX_STAT_LEN.at m)) := if_pos ⟨hm, hf⟩

theorem Hw.mbxPop_empty {h : Hw} (hf : h.mbxFull m = false) : h.mbxPop m = h.reply 0 := if_neg (by simp [hf])

theorem exec_mbxPopRead_reach (hm : m < 16) (hr : s.hw.MbxReach a m 0x48) :
    exec (.mbxPopRead a m) s = s.go fun h => (h.reply 0).mbxPop m :=
  State.go_congr ((if_neg (by omega)).trans (Hw.access_mbx hr.quiet))

/-- A read of MBX_POP answers the length and takes the message (R502). -/
theorem mbxPopRead_takes (hm : 8 ≤ m ∧ m < 16) (hr : s.hw.MbxReach a m 0x48) (hf : s.hw.mbxFull m = true) :
    Completes (.mbxPopRead a m) s fun t => t.rsp = ⟨s.hw.g (R.MBX_STAT_LEN.at m), false⟩ ∧ t.g (R.MBX_STAT_FULL.at m) = 0 ∧
      s.hw.SameBut t [R.MBX_STAT_FULL.at m, R.MBX_STAT_TAKEN.at m, R.MBX_STAT_LEN.at m] :=
  Completes.of_go_eq (exec_mbxPopRead_reach hm.2 hr) (Hw.mbxPop_full (h := s.hw.quiet.reply 0) hm.1 hf) (fun _ hk => hk)
    ⟨Hw.reply_rsp _ _, (Hw.reply_g _ _ _).trans (Hw.mbxTaken_full _ _), ((s.hw.quiet_reply_same 0 _).trans (Hw.mbxTaken_same _ m)).of_regs rfl⟩

/-- A write to the data of an outbound mailbox is denied (R502). -/
theorem mbxDataWrite_denied {i strb : Nat} (data : Nat) (hm : 8 ≤ m ∧ m < 16) (hi : i < 8) (hs : [0x0F, 0xF0, 0xFF].contains strb = true)
    (hr : s.hw.MbxReach a m (8 * i)) :
    Completes (.mbxDataWrite a m i strb data) s fun t =>
      s.hw.Recorded t 0x4D E.accessDenied ∧ t = { s.hw.quiet with regs := t.regs, sets := t.sets, rsp := ⟨0, true⟩ } := by
  refine Completes.of_deny (by decide) rfl ?_
  refine (if_neg ?_).trans <| (Hw.access_mbx hr.quiet).trans (if_pos hm.1)
  simp only [hs, Bool.not_true, Bool.false_eq_true, or_false]
  omega

end

/-! ### Doorbells -/

section
variable {s : State} {a : Acc} {v : Nat}

/-- A field whose bits a doorbell write changes, with PAGE_SEQ, is a function register. -/
theorem dbFields_fn : R.DB_IN_LO_BITS.fn ∧ R.DB_OUT_LO_BITS.fn := by simp [Field.fn, Field.ok, R.DB_IN_LO_BITS, R.DB_OUT_LO_BITS]

theorem dbInSet_sets (hv : v < 2 ^ 32) (hr : s.hw.Reach a 0x4D 0x80) : Completes (.dbInSet a 0 v) s fun t =>
    t.g R.DB_IN_LO_BITS = (s.hw.g R.DB_IN_LO_BITS ||| v) % 2 ^ 32 ∧ s.hw.SameBut t [R.DB_IN_LO_BITS, R.PAGE_SEQ_SEQ 0x4D] := by
  refine Completes.of_go_eq rfl ((if_pos rfl).trans <| Hw.bellWrite_oper (h := s.hw.quiet) hr hv) (fun _ hk => hk) ?_
  rw [Nat.mod_eq_of_lt hv]
  exact ⟨(Hw.g_accepted _ _ dbFields_fn.1).trans (Hw.g_setBits_self _ _ _),
    ((s.hw.quiet_reply_same 0 _).trans (Hw.setBits_same _ _ _ (by simp))).trans ((Hw.accepted_same _ _).mono (by simp))⟩

/-- Clearing bits leaves those set in the same cycle (R11). -/
theorem Hw.g_clrBits_self (h : Hw) (f : Field) (m : Nat) :
    (h.clrBits f m).g f = (h.g f - (h.g f &&& (m - (m &&& h.setNow f)))) % 2 ^ f.width := Hw.g_s_self _ _ _

theorem Hw.clrBits_same (h : Hw) (f : Field) (m : Nat) {l : List Field} (hf : f ∈ l) : h.SameBut (h.clrBits f m) l :=
  (Hw.SameBut.refl h l).write _ hf

theorem dbOutClear_clears (hv : v < 2 ^ 32) (hr : s.hw.Reach a 0x4D 0x88) : Completes (.dbOutClear a 0 v) s fun t =>
    t.g R.DB_OUT_LO_BITS = (s.hw.g R.DB_OUT_LO_BITS - (s.hw.g R.DB_OUT_LO_BITS &&& (v - (v &&& s.hw.setNow R.DB_OUT_LO_BITS)))) % 2 ^ 32 ∧
      s.hw.SameBut t [R.DB_OUT_LO_BITS, R.PAGE_SEQ_SEQ 0x4D] := by
  refine Completes.of_go_eq rfl ((if_pos rfl).trans <| Hw.bellWrite_oper (h := s.hw.quiet) hr hv) (fun _ hk => hk) ?_
  rw [Nat.mod_eq_of_lt hv]
  exact ⟨(Hw.g_accepted _ _ dbFields_fn.2).trans (Hw.g_clrBits_self _ _ _),
    ((s.hw.quiet_reply_same 0 _).trans (Hw.clrBits_same _ _ _ (by simp))).trans ((Hw.accepted_same _ _).mono (by simp))⟩

/-- A doorbell that the firmware rings in the lower half sets its bit and raises DOORBELL (R504). -/
theorem Hw.firmwareBell_eq {h : Hw} {n : Nat} (hn : n < 32) (hw : h.firmware = true) (e k : Hw) :
    (if !h.firmware ∨ 64 ≤ n then e else if true then
      (h.setBits (if n < 32 then R.DB_OUT_LO_BITS else R.DB_OUT_HI_BITS) (2 ^ (n % 32))).raise 0x4D 18 else k) =
    (h.setBits R.DB_OUT_LO_BITS (2 ^ n)).raise 0x4D 18 := by
  rw [if_neg (by simp [hw]; omega), if_pos rfl, if_pos hn, Nat.mod_eq_of_lt hn]

theorem firmwareDoorbell_rings {n : Nat} (hn : n < 32) (hw : s.hw.firmware = true) : Completes (.firmwareDoorbell true n) s fun t =>
    t.g R.DB_OUT_LO_BITS = (s.hw.g R.DB_OUT_LO_BITS ||| 2 ^ n) % 2 ^ 32 ∧
    t.g (R.PAGE_IRQ_STAT_FUNC_IRQ 0x4D) = (s.hw.g (R.PAGE_IRQ_STAT_FUNC_IRQ 0x4D) ||| 4) % 2 ^ 16 ∧
    s.hw.SameBut t [R.DB_OUT_LO_BITS, R.PAGE_IRQ_STAT_FUNC_IRQ 0x4D] := by
  refine Completes.of_go_eq rfl (Hw.firmwareBell_eq (h := s.hw.quiet) hn hw _ _) (fun _ hk => hk) ?_
  refine ⟨(Hw.g_raise _ _ _ dbFields_fn.2).trans (Hw.g_setBits_self _ _ _), ?_,
    (Hw.setBits_same s.hw.quiet _ _ (by simp)).trans ((Hw.raise_same _ _ _).mono (by simp))⟩
  have hirq : (s.hw.quiet.setBits R.DB_OUT_LO_BITS (2 ^ n)).g (R.PAGE_IRQ_STAT_FUNC_IRQ 0x4D) = s.hw.g (R.PAGE_IRQ_STAT_FUNC_IRQ 0x4D) :=
    Hw.g_setBits_ne _ _ (Field.irq_key_ne dbFields_fn.2 _).symm
  exact (Hw.g_setBits_self _ _ _).trans (by rw [hirq]; rfl)

end

/-- Settles O16, clause by clause. -/
theorem outboundMailboxesAndDoorbells : Obligations.OutboundMailboxesAndDoorbells := by
  refine ⟨?sends, ?pops, ?popsEmpty, ?denied, ?sets, ?clears, ?rings⟩
  case sends => exact fun s m bytes h8 h16 h0 h64 hw hf ht => firmwareMbxSend_sends ⟨h8, h16⟩ ⟨h0, h64⟩ hw hf ht
  case pops => exact fun s a m h8 h16 hr hf => mbxPopRead_takes ⟨h8, h16⟩ hr hf
  case popsEmpty =>
    intro s a m hm hr hf
    refine Completes.of_go _ (exec_mbxPopRead_reach hm hr) ?_
    rw [Hw.mbxPop_empty (h := Hw.reply { s.hw with out := [] } 0) hf]
    rfl
  case denied => exact fun s a m i strb data h8 h16 hi hs hr => mbxDataWrite_denied data ⟨h8, h16⟩ hi hs hr
  case sets => exact fun s a v hv hr => dbInSet_sets hv hr
  case clears => exact fun s a v hv hr => dbOutClear_clears hv hr
  case rings => exact fun s n hn hw => firmwareDoorbell_rings hn hw

/-! ### HOLD -/

theorem Hw.vEntry_num {h : Hw} {n : Nat} {e : VEntry} (he : h.vEntry n = some e) : e.num = n := by
  simpa using List.find?_some he

/-- Storing an entry stores it under its number. -/
theorem Hw.putEntry_vEntry_self (h : Hw) (e : VEntry) : (h.putEntry e).vEntry e.num = some e := by
  show (e :: h.vrd.entries.filter fun x => x.num != e.num).find? (fun x => x.num == e.num) = some e
  simp

/-- Storing an entry leaves the others. -/
theorem Hw.putEntry_vEntry_ne (h : Hw) {e : VEntry} {m : Nat} (hm : m ≠ e.num) : (h.putEntry e).vEntry m = h.vEntry m := by
  show (e :: h.vrd.entries.filter fun x => x.num != e.num).find? (fun x => x.num == m) = h.vrd.entries.find? fun x => x.num == m
  have hfilter : ∀ l : List VEntry, (l.filter fun x => x.num != e.num).find? (fun x => x.num == m) = l.find? fun x => x.num == m := by
    intro l
    rw [List.find?_filter]
    congr 1
    funext x
    by_cases hx : x.num = m <;> simp [hx, hm]
  rw [List.find?_cons_of_neg (by simp [Ne.symm hm]), hfilter]

theorem Hw.accepted_vEntry (h : Hw) (p n : Nat) : (h.accepted p).vEntry n = h.vEntry n := rfl

@[simp] theorem Hw.putEntry_dma (h : Hw) (e : VEntry) : (h.putEntry e).dma = h.dma := by simp [Hw.putEntry]

/-- HOLD marks an entry that is not final. -/
theorem Hw.holdCmd_ok {h : Hw} {n : Nat} {e : VEntry} (he : h.vEntry n = some e) (hfin : finalState e.state = false) :
    h.holdCmd n = .ok (h.putEntry { e with held := true }) :=
  (Hw.onEntry_some he _).trans (if_neg (by simp [hfin]))

/-- Settles O19: the write comes to `Hw.putEntry` of the entry, held. -/
theorem holdMarksOneEntry : Obligations.HoldMarksOneEntry := by
  intro s a n e hr he hfin
  obtain rfl := Hw.vEntry_num he
  refine Completes.of_go_eq rfl (Hw.operWrite_ok (h := s.hw.quiet) hr (Hw.holdCmd_ok (h := s.hw.quiet.reply 0) he hfin)) (fun _ hk => hk) ?_
  refine ⟨(Hw.accepted_vEntry _ _ _).trans (Hw.putEntry_vEntry_self _ { e with held := true }),
    fun m hm => (Hw.accepted_vEntry _ _ _).trans (Hw.putEntry_vEntry_ne _ (e := { e with held := true }) hm),
    (Hw.accepted_dma _ _).trans (Hw.putEntry_dma _ _), ?_⟩
  have stored := (s.hw.quiet_reply_same 0 _).trans (Hw.putEntry_same (s.hw.quiet.reply 0) { e with held := true })
  exact stored.write _ (by simp)

end Sys2Proof.Machine
end

section
/-!
The resets, the power domains and the wake sequencer (R35, R36, R38, R557–R560, R565–R569): what their commands come to.
-/
namespace Sys2Proof.Machine

/-! ### Switching the domains -/

section
variable {h : Hw}

theorem Hw.coreUp_of_off (he : h.pwr.coreEn = false) :
    h.coreUp = Hw.s { h with pwr := { h.pwr with coreEn := true, coreEnFrc := h.frc } } R.PWR_DOM_CORE_ST 3 := if_neg (by simp [he])

/-- GAR_ON = 1 while the core domain is up (R559). -/
theorem Hw.pwrDom_garnetOn (hc : h.pwr.core = true) : h.pwrDom none none (some 1) none = .ok (Hw.garnetUp (h.s R.PWR_DOM_GAR_ON 1)) := by
  simp [Hw.pwrDom, hc]

/-- CORE_ON = 1 while PORST_N is released (R559). -/
theorem Hw.pwrDom_coreOn (hp : h.pwr.porst = false) : h.pwrDom none none none (some 1) = .ok (Hw.coreUp (h.s R.PWR_DOM_CORE_ON 1)) := by
  simp [Hw.pwrDom, hp]

/-- GAR_ON = 0 while the pages of the Garnet domain are OFF (R559). -/
theorem Hw.pwrDom_garnetOff (h10 : h.off 0x10 = true) (h14 : h.off 0x14 = true) :
    h.pwrDom none none (some 0) none = .ok (Hw.garnetDown (h.s R.PWR_DOM_GAR_ON 0)) := by
  simp [Hw.pwrDom, garnetPages, h10, h14]

/-- CORE_ON = 0 while every page but those of the always-on domain is OFF (R559). -/
theorem Hw.pwrDom_coreOff (ho : h.allOff [0x00, 0x54, 0x58] = true) :
    h.pwrDom none none none (some 0) = .ok (Hw.coreDown (h.s R.PWR_DOM_CORE_ON 0)) := by
  simp [Hw.pwrDom, ho]

end

/-- Settles O21, command by command. -/
theorem resetAndPowerCommandsDo : Obligations.ResetAndPowerCommandsDo := by
  refine ⟨?porstAssert, ?porstRelease, ?autoPowerUp, ?coreRst, ?coreRelease, ?garRst, ?group, ?garRelease, ?garTimeout, ?coreTimeout, ?garFault, ?coreFault,
    ?garOn, ?coreOn, ?garOff, ?coreOff, ?testMode⟩
  case porstAssert => exact fun s => rfl
  case porstRelease =>
    intro s hp
    show Host.Outcome.next (s.clocked fun h => if !h.pwr.porst then h else _) = _
    simp only [State.clocked, hp]
    rfl
  case autoPowerUp =>
    exact Does.of_go _ (fun _ => rfl) fun h ⟨ha, hd, he, ht, hauto⟩ => (if_pos (by simp [ha, hd, ht, hauto])).trans (Hw.coreUp_of_off (h := { h with pwr := { h.pwr with autoDone := true } }) he)
  case coreRst => exact Does.of_go _ (fun _ => rfl) fun h ha => if_pos ha
  case coreRelease => exact Does.of_go _ (fun _ => rfl) fun h ⟨hp, he, hc⟩ => if_neg (by simp [hp, he, hc])
  case garRst => exact Does.of_go _ (fun _ => rfl) fun h hc => if_pos hc
  case group => exact Does.of_go _ (fun _ => rfl) fun h ⟨he, hg, ht⟩ => if_pos (by simpa [he, hg] using ht)
  case garRelease => exact Does.of_go _ (fun _ => rfl) fun h ⟨hc, he, hgar, hg, ht⟩ => if_pos (by simp [hc, he, hgar, hg, ht])
  case garTimeout => exact Does.of_go _ (fun _ => rfl) fun h ⟨he, hst, ht⟩ => (if_pos rfl).trans (if_pos (by simp [he, hst, ht]))
  case coreTimeout => exact Does.of_go _ (fun _ => rfl) fun h ⟨he, hst, ht⟩ => (if_neg (by simp)).trans (if_pos (by simp [he, hst, ht]))
  case garFault => exact Does.of_go _ (fun _ => rfl) fun h he => (if_pos rfl).trans (if_pos he)
  case coreFault => exact Does.of_go _ (fun _ => rfl) fun h he => (if_neg (by simp)).trans (if_pos he)
  case garOn => exact fun a => Does.of_go _ (fun _ => rfl) fun h ⟨hr, hc⟩ => Hw.operWrite_ok hr (Hw.pwrDom_garnetOn (h := h.reply 0) hc)
  case coreOn => exact fun a => Does.of_go _ (fun _ => rfl) fun h ⟨hr, hp⟩ => Hw.operWrite_ok hr (Hw.pwrDom_coreOn (h := h.reply 0) hp)
  case garOff => exact fun a => Does.of_go _ (fun _ => rfl) fun h ⟨hr, h10, h14⟩ => Hw.operWrite_ok hr (Hw.pwrDom_garnetOff (h := h.reply 0) h10 h14)
  case coreOff => exact fun a => Does.of_go _ (fun _ => rfl) fun h ⟨hr, ho⟩ => Hw.operWrite_ok hr (Hw.pwrDom_coreOff (h := h.reply 0) ho)
  case testMode =>
    rintro high
    refine Does.of_go _ (fun _ => rfl) fun h ⟨ha, hhigh⟩ => ?_
    subst hhigh
    exact if_pos ha

end Sys2Proof.Machine
end

section
/-!
What the resets and the switching of the domains clear and what they keep (R35, R36, R557–R560).
-/
namespace Sys2Proof.Machine

/-- What a command does is what it completes with, where what is claimed does not look at the profile and the FRC that are put back. -/
theorem Does.completes {c : Instr} {s : State} {H : Hw → Prop} {F : Hw → Hw} {P : Hw → Prop} (hd : Does c H F) (hs : H s.hw.quiet)
    (hk : ∀ k : Hw, P k → P { k with prof := s.hw.prof, frc := s.hw.frc }) (hp : P (F s.hw.quiet)) : Completes c s P :=
  Completes.of_go_keep F (hd s hs) hk hp

/-! ### PORST_N -/

/-- FIRST_STEP_DONE reads 0 after reset. -/
theorem Hw.resetFor_firstStep (p : Profile) : (Hw.resetFor p).g R.TIM_STATUS_FIRST_STEP_DONE = 0 := by
  cases p with
  | l => decide +kernel
  | t => decide +kernel
  | g => decide +kernel

/-- PORST_N puts every part but the pin strapping, the free values and TEST_MODE back (R35, R69). -/
theorem porstNAssert_resets (s : State) : Completes .porstNAssert s fun t =>
    t.frc = 0 ∧ t.pwr = { Pwr.reset with tied := s.hw.pwr.tied } ∧ t.evr = Evr.reset ∧ t.g R.TIM_STATUS_FIRST_STEP_DONE = 0 ∧ t.flw = Flw.reset ∧
    t.fab = Fab.reset ∧ (∀ f : Field, f.key ≠ R.SAF_STAT_HAZARD.key → t.g f = (Hw.resetFor s.hw.prof).g f) := by
  have kept : ∀ (h : Hw) (f : Field), f.key ≠ R.SAF_STAT_HAZARD.key → h.regs = (Hw.resetFor s.hw.prof).regs →
      (h.s R.SAF_STAT_HAZARD (b2n s.hw.saf.testMode)).g f = (Hw.resetFor s.hw.prof).g f := by
    intro h f hf hr
    rw [Hw.g_s_ne _ _ hf.symm]
    exact congrArg (RegFile.read · f) hr
  exact Completes.of_clocked _ rfl ⟨rfl, rfl, rfl, (kept _ _ (by decide) rfl).trans (Hw.resetFor_firstStep _), rfl, rfl, fun f hf => kept _ f hf rfl⟩

theorem porstNRelease_starts (s : State) (hp : s.hw.pwr.porst = true) : Completes .porstNRelease s fun t =>
    t.frc = 0 ∧ t.pwr.porst = false ∧ t.pwr.aon = true ∧ t.g R.PWR_START_AON = 1 ∧ t.evr = s.hw.evr ∧ s.hw.SameBut t [R.PWR_START_AON] := by
  obtain ⟨-, hrelease, -⟩ := resetAndPowerCommandsDo
  refine ⟨_, hrelease s hp, ⟨rfl, rfl, rfl, Hw.g_s_self _ _ _, rfl, ?_⟩, rfl, rfl⟩
  exact fun f hf => Hw.g_s_ne _ _ (hf _ (by simp))

/-! ### CORE_RST_N -/

/-- The SHUTDOWN entry that a core reset writes first, where the domain is up, touches the log alone (R554). -/
theorem Hw.shutdownEvent_only (h : Hw) (payload : List Nat) : h.OnlyLog (if h.pwr.core then h.event 0x0002 1 payload else h) := by
  split
  · exact h.event_only _ _ _
  · rfl

/-- A core reset as a whole (R35, R554, R560): what its parts are apart from the registers, with some roles of the macros. -/
theorem Hw.coreReset_parts (h : Hw) :
    h.coreReset.frc = h.frc ∧ h.coreReset.tim.rate = h.tim.rate ∧
    h.coreReset.pwr = { h.pwr with core := false, coreRst := true, gar := false, garRst := true, coreSince := h.frc } ∧
    h.coreReset.gar.accounts = [] ∧ h.coreReset.queues = [] ∧ h.coreReset.claims = (h.claims.filter fun c => alwaysOnPage c.2) ∧
    h.coreReset.fab.lsdb = [] ∧ h.coreReset.sec = Sec.reset ∧ h.coreReset.prof = h.prof := by
  have hlog := h.shutdownEvent_only (le 2 h.mbxMask)
  unfold Hw.coreReset
  generalize (if h.pwr.core then h.event 0x0002 1 (le 2 h.mbxMask) else h) = k at hlog ⊢
  simp only
  generalize hc : Hw.resetRegs _ coreGone = c
  obtain ⟨ps, ord, e⟩ := c.assignPools_only
  rw [e, ← hc, hlog]
  exact ⟨rfl, rfl, rfl, rfl, rfl, rfl, rfl, rfl, rfl⟩

/-- A register that a core reset clears, and that does not show the pools, reads as after reset. -/
theorem Hw.coreReset_gone (h : Hw) {f : Field} (hf : coreGone f.key = true) (hp : ∀ e ∈ poolFields, e.key ≠ f.key) :
    h.coreReset.g f = (Hw.resetFor h.prof).g f := by
  have hlog := h.shutdownEvent_only (le 2 h.mbxMask)
  unfold Hw.coreReset
  generalize (if h.pwr.core then h.event 0x0002 1 (le 2 h.mbxMask) else h) = k at hlog ⊢
  simp only
  rw [Hw.assignPools_same _ f hp, Hw.resetRegs_gone _ _ hf, hlog]
  rfl

/-- A register outside those that a core reset clears reads as before, where the log and the pools do not show there. -/
theorem Hw.coreReset_keep (h : Hw) {f : Field} (hf : coreGone f.key = false) (hl : ∀ e ∈ logFields, e.key ≠ f.key)
    (hp : ∀ e ∈ poolFields, e.key ≠ f.key) : h.coreReset.g f = h.g f := by
  have hsame : (if h.pwr.core then h.event 0x0002 1 (le 2 h.mbxMask) else h).g f = h.g f := by
    split
    · exact h.event_same _ _ _ f hl
    · rfl
  unfold Hw.coreReset
  generalize (if h.pwr.core then h.event 0x0002 1 (le 2 h.mbxMask) else h) = k at hsame ⊢
  simp only
  rw [Hw.assignPools_same _ f hp, Hw.resetRegs_keep _ _ hf]
  exact hsame

theorem coreRstNAssert_clears (s : State) (ha : s.hw.pwr.aon = true) : Completes .coreRstNAssert s fun t =>
    t.frc = s.hw.frc ∧ t.tim.rate = s.hw.tim.rate ∧ t.pwr.core = false ∧ t.pwr.gar = false ∧ t.pwr.aon = true ∧ t.gar.accounts = [] ∧ t.queues = [] ∧
    t.claims = (s.hw.claims.filter fun c => alwaysOnPage c.2) ∧ t.fab.lsdb = [] ∧ t.sec = Sec.reset ∧ t.state 0x30 = 0 ∧
    t.g R.TIM_STATUS_FIRST_STEP_DONE = s.hw.g R.TIM_STATUS_FIRST_STEP_DONE := by
  obtain ⟨hfrc, hrate, hpwr, hacc, hqueues, hclaims, hlsdb, hsec, hprof⟩ := Hw.coreReset_parts s.hw.quiet
  have hoff : ∀ p : Profile, (Hw.resetFor p).g (R.PAGE_STATE_STATE 0x30) = 0 := fun p => by
    cases p with
    | l => decide +kernel
    | t => decide +kernel
    | g => decide +kernel
  obtain ⟨-, -, -, hdoes, -⟩ := resetAndPowerCommandsDo
  refine hdoes.completes ha (fun _ hk => ?_)
    ⟨hfrc, hrate, ?_, ?_, ?_, hacc, hqueues, hclaims, hlsdb, hsec, ?_, ?_⟩
  · obtain ⟨-, hk⟩ := hk
    exact ⟨rfl, hk⟩
  · rw [hpwr]
  · rw [hpwr]
  · rw [hpwr]
    exact ha
  · exact (Hw.coreReset_gone _ (by decide) (by decide)).trans (hoff _)
  · exact Hw.coreReset_keep s.hw.quiet (by decide) (by decide) (by decide)

/-! ### The domains come up -/

/-- Switching the Garnet domain on where GAR_AUTO says so touches its enable and PWR_DOM GAR_ST alone (R36, R558). -/
theorem Hw.garnetAuto_parts (h : Hw) {t : Hw} (ht : t = if h.on R.PWR_DOM_GAR_AUTO then h.garnetUp else h) :
    t.pwr.core = h.pwr.core ∧ t.pwr.isoCore = h.pwr.isoCore ∧ t.frc = h.frc ∧ (h.on R.PWR_DOM_GAR_AUTO = true → t.pwr.garEn = true) ∧
      h.SameBut t [R.PWR_DOM_GAR_ST] := by
  subst ht
  split
  · unfold Hw.garnetUp
    split
    · next he => exact ⟨rfl, rfl, rfl, fun _ => he, .refl _ _⟩
    · exact ⟨rfl, rfl, rfl, fun _ => rfl, ((Hw.SameBut.refl h _).of_regs rfl).write _ (by simp)⟩
  · next hauto => exact ⟨rfl, rfl, rfl, fun hs => absurd hs hauto, .refl _ _⟩

theorem coreDomainResetRelease_starts (s : State) (hp : s.hw.pwr.porst = false) (he : s.hw.pwr.coreEn = true) (hc : s.hw.pwr.core = false) :
    Completes .coreDomainResetRelease s fun t =>
      t.pwr.core = true ∧ t.pwr.isoCore = false ∧ t.g R.PWR_DOM_CORE_ST = 1 ∧ t.g R.PWR_START_CORE = 1 ∧ t.frc = s.hw.frc ∧
      (s.hw.on R.PWR_DOM_GAR_AUTO = true → t.pwr.garEn = true) := by
  obtain ⟨-, -, -, -, hdoes, -⟩ := resetAndPowerCommandsDo
  refine hdoes.completes ⟨hp, he, hc⟩ (fun k ⟨hcore, hiso, hst, hstart, _, hgar⟩ => ⟨hcore, hiso, hst, hstart, rfl, hgar⟩) ?_
  have hauto : (s.hw.quiet.resetRegs coreGone).g R.PWR_DOM_GAR_AUTO = s.hw.g R.PWR_DOM_GAR_AUTO := Hw.resetRegs_keep _ _ (by decide)
  obtain ⟨hcore, hiso, hfrc, hgar, hsame⟩ := Hw.garnetAuto_parts _ rfl
  refine ⟨hcore, hiso, (hsame _ (by decide)).trans ?_, (hsame _ (by decide)).trans (Hw.g_s_self _ _ _), hfrc, fun hs => hgar ?_⟩
  · exact (Hw.g_s_ne _ _ (by decide)).trans (Hw.g_s_self _ _ _)
  · unfold Hw.on at hs ⊢
    rw [Hw.g_s_ne _ _ (by decide), Hw.g_s_ne _ _ (by decide)]
    exact (congrArg (· != 0) hauto).trans hs

theorem coreAutoPowerUp_enables (s : State) (ha : s.hw.pwr.aon = true) (hd : s.hw.pwr.autoDone = false) (ht : s.hw.pwr.releaseFrc + 10000 ≤ s.hw.frc)
    (hauto : s.hw.on R.PWR_DOM_CORE_AUTO = true) : Completes .coreAutoPowerUp s fun t => t.pwr.coreEn = true ∧ t.pwr.autoDone = true := by
  have hup : ∀ h : Hw, h.coreUp.pwr.coreEn = true ∧ h.coreUp.pwr.autoDone = h.pwr.autoDone := by
    intro h
    unfold Hw.coreUp
    split
    · next he => exact ⟨he, rfl⟩
    · exact ⟨rfl, rfl⟩
  refine Completes.of_go_eq rfl (if_pos ?_) (fun _ hk => hk) (hup _)
  have hauto' : s.hw.quiet.on R.PWR_DOM_CORE_AUTO = true := hauto
  rw [hauto']
  simp [Hw.quiet, ha, hd, ht]

/-- Settles O20, command by command. -/
theorem resetsAndDomains : Obligations.ResetsAndDomains := by
  refine ⟨porstNAssert_resets, porstNRelease_starts, coreRstNAssert_clears, coreDomainResetRelease_starts, ?group, coreAutoPowerUp_enables⟩
  case group =>
    intro s he hg ht
    obtain ⟨-, -, -, -, -, -, hdoes, -⟩ := resetAndPowerCommandsDo
    exact hdoes.completes ⟨he, hg, ht⟩ (fun _ hk => hk) ⟨rfl, rfl, .refl _ _⟩

end Sys2Proof.Machine
end

section
/-!
The wake sequencer (R565–R569, R576): what its commands come to on a Boldal T.
-/
namespace Sys2Proof.Machine

section
variable {h k : Hw} {a : Acc} {off code : Nat} {f : Hw → Tried}

/-- A write of a wake register of a Boldal T that its rule takes (R576). -/
theorem Hw.wakeWrite_ok (ht : h.prof = .t) (hr : h.Reach a 0x58 off) (e : f (h.reply 0) = .ok k) : h.wakeWrite a off f = k.accepted 0x58 :=
  (if_pos ht).trans (Hw.operWrite_ok hr e)

theorem Hw.wakeWrite_err (ht : h.prof = .t) (hr : h.Reach a 0x58 off) (e : f (h.reply 0) = .error code) (hc : code < 0x10000 := by decide) :
    h.wakeWrite a off f = (h.reply 0).err 0x58 code :=
  (if_pos ht).trans (Hw.operWrite_err hr e hc)

end

/-- PWR_WAKE_REQ samples SEG_ALERT first, and its rule is asked at the mask register and the bits written. -/
theorem exec_pwrWakeReq (a : Acc) {i bits : Nat} (alert : Nat) (hi : i < 4) (hb : bits < 2 ^ 32) (s : State) :
    exec (.pwrWakeReq a i bits alert) s = s.go fun h =>
      (if h.prof = .t then h.sampleAlert (alert % 256) else h).wakeWrite a (0x100 + 4 * i) fun h => h.wakeReq i bits := by
  show execPwrWakeReq a i bits alert s = _
  unfold execPwrWakeReq
  rw [Nat.mod_eq_of_lt hi, Nat.mod_eq_of_lt hb]

theorem exec_pwrWakeOff (a : Acc) {i bits : Nat} (hi : i < 4) (hb : bits < 2 ^ 32) (s : State) :
    exec (.pwrWakeOff a i bits) s = s.go fun h => h.wakeWrite a (0x110 + 4 * i) fun h => .ok (h.wakeOff i bits) := by
  show execPwrWakeOff a i bits s = _
  unfold execPwrWakeOff
  rw [Nat.mod_eq_of_lt hi, Nat.mod_eq_of_lt hb]

theorem exec_pgoodFailClear (a : Acc) {i bits : Nat} (hi : i < 4) (hb : bits < 2 ^ 32) (s : State) :
    exec (.pgoodFailClear a i bits) s = s.go fun h => h.wakeWrite a (0x150 + 4 * i) fun h => .ok (h.clrBits (R.PWR_PGOOD_FAIL_FAIL.at i) bits) := by
  show execPgoodFailClear a i bits s = _
  unfold execPgoodFailClear
  rw [Nat.mod_eq_of_lt hi, Nat.mod_eq_of_lt hb]

/-- Settles O22, command by command. -/
theorem wakeCommandsDo : Obligations.WakeCommandsDo := by
  refine ⟨?request, ?badStep, ?interval, ?off, ?timeout, ?fall, ?clear⟩
  case request =>
    refine fun a i bits alert hi hb => Does.of_go _ (exec_pwrWakeReq a alert hi hb) fun h ⟨ht, hr, hok⟩ => ?_
    have ht' : (h.sampleAlert (alert % 256)).prof = .t := (h.sampleAlert_prof _).trans ht
    rw [if_pos ht]
    split
    · next k e => exact Hw.wakeWrite_ok ht' hr e
    · next e => simp [e, Except.isOk, Except.toBool] at hok
  case badStep =>
    refine fun a i bits alert hi hb => Does.of_go _ (exec_pwrWakeReq a alert hi hb) fun h ⟨ht, hr, hzero⟩ => ?_
    rw [if_pos ht]
    exact Hw.wakeWrite_err ((h.sampleAlert_prof _).trans ht) hr (if_pos hzero)
  case interval => exact fun alert pgood => Does.of_go _ (fun _ => rfl) fun h ⟨ht, ha, hdue⟩ => if_neg (by simp [ht, ha]; omega)
  case off => exact fun a i bits hi hb => Does.of_go _ (exec_pwrWakeOff a hi hb) fun h ⟨ht, hr⟩ => Hw.wakeWrite_ok ht hr rfl
  case timeout => exact fun d => Does.of_go _ (fun _ => rfl) fun h ⟨ha, hw⟩ => if_pos (by simpa [ha] using hw)
  case fall =>
    exact fun d hd => Does.of_go _ (fun _ => rfl) fun h ⟨ht, ha, hwas, hhigh⟩ => (if_pos ⟨ht, ha, hd⟩).trans (if_pos (by simp [hwas, hhigh]))
  case clear => exact fun a i bits hi hb => Does.of_go _ (exec_pgoodFailClear a hi hb) fun h ⟨ht, hr⟩ => Hw.wakeWrite_ok ht hr rfl

end Sys2Proof.Machine
end

section
/-!
The states of the pages (R81, R84, R85, R87, R89–R92, R98, R112): what their commands come to.
-/
namespace Sys2Proof.Machine

/-! ### Writes of PAGE_CTL -/

section
variable {h : Hw} {a : Acc} {p : Nat} (men : Bool)

/-- A write of PAGE_CTL that reaches a page with an enable of its own: IRQ_MEN first, then ABORT, or ENABLE (R85, R92). -/
theorem Hw.ctlAccess_reach (enable abort : Bool) (hr : h.Reach a p 8) (hn : noEnable p = false) :
    h.ctlAccess a p enable abort men =
      if abort then (afterMen h p men).pageAbort p else if enable then (afterMen h p men).pageEnable p else (afterMen h p men).pageDisable p :=
  (Hw.access_reach hr).trans (if_neg (by simp [hn]))

theorem Hw.ctlAccess_enable (hr : h.Reach a p 8) (hn : noEnable p = false) : h.ctlAccess a p true false men = (afterMen h p men).pageEnable p :=
  Hw.ctlAccess_reach men true false hr hn

theorem Hw.ctlAccess_disable (hr : h.Reach a p 8) (hn : noEnable p = false) : h.ctlAccess a p false false men = (afterMen h p men).pageDisable p :=
  Hw.ctlAccess_reach men false false hr hn

theorem Hw.ctlAccess_abort (hr : h.Reach a p 8) (hn : noEnable p = false) : h.ctlAccess a p false true men = (afterMen h p men).pageAbort p :=
  Hw.ctlAccess_reach men false true hr hn

end

/-! ### The page's state machine (R85) -/

section
variable {h : Hw} {p : Nat}

theorem Hw.pageEnable_off (hs : h.state p = 0) : h.pageEnable p = h.pageClaim p := by simp only [Hw.pageEnable, hs]

/-- An enable that finds all its resources starts the page. -/
theorem Hw.pageClaim_takes {k : Hw} (hr : h.enableRefused p = none) (hc : h.cannotHave p = none)
    (hk : h.claim p (h.needs p) (h.needTimers p) = .ok k) : h.pageClaim p = ((k.setState p 1).onStart p).showNeed := by
  simp only [Hw.pageClaim, hr, hc, hk]

theorem Hw.pageEnable_draining (hs : h.state p = 3) : h.pageEnable p = h.setState p 6 := by simp only [Hw.pageEnable, hs]

theorem Hw.pageEnable_refused (hs : h.state p = 4 ∨ h.state p = 5) : h.pageEnable p = h.err p E.badState := by
  rcases hs with hs | hs <;> simp only [Hw.pageEnable, hs]

theorem Hw.pageDisable_active (hs : h.state p = 1 ∨ h.state p = 2) : h.pageDisable p = ((h.setState p 3).onDrain p).showWaits p := by
  rcases hs with hs | hs <;> simp only [Hw.pageDisable, hs]

/-- An abort of a page that no consumer has lost yet: STARTING or FAULTED. -/
theorem Hw.pageAbort_idle (hs : h.state p = 1 ∨ h.state p = 5) (hk : h.stuck p = false) :
    h.pageAbort p = Hw.showWaits { (h.onAbort p).setState p 4 with
      aborts := (p, ((h.onAbort p).setState p 4).frc) :: ((h.onAbort p).setState p 4).aborts.filter fun x => x.1 != p } p := by
  unfold Hw.pageAbort
  rcases hs with hs | hs <;> simp [hs, hk]

theorem Hw.pageAbort_stuck (hk : h.stuck p = true) : h.pageAbort p = h := by
  unfold Hw.pageAbort
  exact if_pos (.inr (.inr hk))

/-- The block's drain of a page that keeps no slots, back to OFF. -/
theorem Hw.drainEnds_off (hp : p ≠ 0x48) (hd : h.drained p = true) (hs : (h.onDrained p).state p = 3) : h.drainEnds p = (h.onDrained p).pageOff p := by
  simp [Hw.drainEnds, hp, hd, hs]

end

/-- Two verdict copies that differ are the safety monitor's dangerous fault as well as the page's own. -/
theorem Hw.ownFault_verdict {h : Hw} : h.ownFault 0x44 E.diagMismatch =
    (h.fresh.2.dangerous false 16 3 (h.fresh.1 % 2 ^ 16) (h.fresh.1 / 2 ^ 16 % 2 ^ 32)).fault 0x44 E.diagMismatch :=
  (if_pos ⟨rfl, rfl⟩).trans rfl

/-! ### Owners, interrupts and the clock -/

section
variable {h : Hw}

/-- A page outside the sketch array takes its owner while it is OFF (R81). -/
theorem Hw.ownerWrite_ok {p v : Nat} (h10 : p ≠ 0x10) (h11 : p ≠ 0x11) (h12 : p ≠ 0x12) (h13 : p ≠ 0x13) (ho : h.off p = true)
    (hv : v < h.contexts ∨ v = 0xFF) : h.ownerWrite p v = (h.s (R.PAGE_OWNER_OWNER p) v).accepted p := by
  have hctx : ¬ (h.contexts ≤ v ∧ v ≠ 0xFF) := by omega
  unfold Hw.ownerWrite
  simp [h10, h11, h12, h13, ho, hctx]

/-- A write of ones clears every cause of a page that is no QUE page (R84). -/
theorem Hw.irqClear_all {p : Nat} (h2 : p ≠ 2) (h3 : p ≠ 3) :
    h.irqClear p 0xFFFFFFFF = ((((h.clrBits (R.PAGE_IRQ_STAT_STATE_CHG p) 1).clrBits (R.PAGE_IRQ_STAT_ERROR p) 1).clrBits
      (R.PAGE_IRQ_STAT_ABORT_DONE p) 1).clrBits (R.PAGE_IRQ_STAT_CLAIM_FAIL p) 1).clrBits (R.PAGE_IRQ_STAT_FUNC_IRQ p) 0xFFFF := by
  simp [Hw.irqClear, h2, h3, bit]

variable {mhz : Nat} (hlo : 200 ≤ mhz) (hhi : mhz ≤ 1500)
include hlo hhi

/-- A write that leaves the frequency changes nothing (R83). -/
theorem Hw.cclkWrite_same (he : h.g R.BLK_CCLK_MHZ = mhz) : h.cclkWrite (mhz % 2 ^ 16) = .ok h := by
  rw [Nat.mod_eq_of_lt (by omega)]
  exact (if_neg (by omega)).trans (if_pos (by simp [he]))

theorem Hw.cclkWrite_changes (hoff : h.pwr.core = false ∨ h.allOff offCclk = true) (hne : h.g R.BLK_CCLK_MHZ ≠ mhz) :
    h.cclkWrite (mhz % 2 ^ 16) = .ok ((h.s R.BLK_CCLK_MHZ mhz).showWidth.liveUpdate 6 0 mhz (h.g R.BLK_CCLK_MHZ)) := by
  rw [Nat.mod_eq_of_lt (by omega)]
  exact (if_neg (by omega)).trans <| (if_neg (by simp [hne])).trans (if_neg (by rcases hoff with hoff | hoff <;> simp [hoff]))

end

/-- Settles O23, command by command. That an abort which has overrun its bound twice does nothing more is log entries 17 and 196. -/
theorem pageCommandsDo : Obligations.PageCommandsDo := by
  refine ⟨?enable, ?enableDraining, ?enableRefused, ?disable, ?abort, ?abortStuck, ?starts, ?drains, ?aborts, ?overruns, ?fault, ?verdictFault, ?ecc,
    ?reserve, ?owner, ?irq, ?query, ?clockSame, ?clock, ?errRead⟩
  case enable =>
    refine fun a p men => Does.of_go _ (fun _ => rfl) fun h ⟨hr, hn, hs, href, hcan, hok⟩ => ?_
    cases e : (afterMen h p men).claim p ((afterMen h p men).needs p) ((afterMen h p men).needTimers p) with
    | ok k => rw [Hw.ctlAccess_enable men hr hn, Hw.pageEnable_off hs, Hw.pageClaim_takes href hcan e]
    | error q => simp [e, Except.isOk, Except.toBool] at hok
  case enableDraining =>
    exact fun a p men => Does.of_go _ (fun _ => rfl) fun h ⟨hr, hn, hs⟩ => (Hw.ctlAccess_enable men hr hn).trans (Hw.pageEnable_draining hs)
  case enableRefused =>
    exact fun a p men => Does.of_go _ (fun _ => rfl) fun h ⟨hr, hn, hs⟩ => (Hw.ctlAccess_enable men hr hn).trans (Hw.pageEnable_refused hs)
  case disable =>
    exact fun a p men => Does.of_go _ (fun _ => rfl) fun h ⟨hr, hn, hs⟩ => (Hw.ctlAccess_disable men hr hn).trans (Hw.pageDisable_active hs)
  case abort =>
    exact fun a p men => Does.of_go _ (fun _ => rfl) fun h ⟨hr, hn, hs, hk⟩ => (Hw.ctlAccess_abort men hr hn).trans (Hw.pageAbort_idle hs hk)
  case abortStuck =>
    exact fun a p men => Does.of_go _ (fun _ => rfl) fun h ⟨hr, hn, hk⟩ => (Hw.ctlAccess_abort men hr hn).trans (Hw.pageAbort_stuck hk)
  case starts => exact fun p => Does.of_go _ (fun _ => rfl) fun h ⟨hp, hpr, hs, hn, hm⟩ => if_pos ⟨hp, hpr, hs, by simp [hn], hm⟩
  case drains =>
    exact fun p => Does.of_go _ (fun _ => rfl) fun h ⟨hp, hpr, hn, hs, hd, ho⟩ => (if_pos ⟨hpr, by simp [hn], .inl hs⟩).trans (Hw.drainEnds_off hp hd ho)
  case aborts => exact fun p => Does.of_go _ (fun _ => rfl) fun h ⟨hpr, hn, hs, ha⟩ => if_pos ⟨hpr, by simp [hn], hs, ha⟩
  case overruns =>
    refine fun p since => Does.of_go _ (fun _ => rfl) fun h ⟨hfind, hs, ht⟩ => ?_
    simp only [hfind]
    exact if_pos ⟨hs, ht⟩
  case fault =>
    refine fun p code hc hne => Does.of_go _ (fun _ => rfl) fun h ⟨hpr, hn, hs⟩ => (if_pos ⟨hpr, by simp [hn], hc, hs⟩).trans ?_
    exact congrArg (Hw.showWaits · p) (if_neg (by rintro ⟨h44, hd⟩; exact hne.elim (· h44) (· hd)))
  case verdictFault =>
    exact Does.of_go _ (fun _ => rfl) fun h ⟨hpr, hs⟩ => by
      show (if _ then _ else _) = _
      rw [if_pos ⟨hpr, by decide, by decide, hs⟩, Hw.ownFault_verdict]
  case ecc => exact fun p x y => Does.of_go _ (fun _ => rfl) fun h ⟨hc, hpr, hn⟩ => (if_neg (by simp [hc])).trans (if_pos ⟨hpr, by simp [hn]⟩)
  case reserve => exact fun p x y => Does.of_go _ (fun _ => rfl) fun h hc => if_neg (by simp [hc])
  case owner =>
    refine fun a p v hv h10 h11 h12 h13 => Does.of_go _ (fun _ => rfl) fun h ⟨hr, ho, hctx⟩ => (Hw.operAccess_reach hr).trans ?_
    rw [Nat.mod_eq_of_lt hv]
    exact Hw.ownerWrite_ok (h := h.reply 0) h10 h11 h12 h13 ho hctx
  case irq => exact fun a p => Does.of_go _ (fun _ => rfl) fun h ⟨hr, h2, h3⟩ => (Hw.access_reach hr).trans (Hw.irqClear_all h2 h3)
  case query =>
    refine fun a r hlt => Does.of_go _ (fun _ => rfl) fun h hr => ?_
    rw [Nat.mod_eq_of_lt hlt]
    exact Hw.operWrite_ok (f := fun h => .ok (h.claimQuery r)) hr rfl
  case clockSame =>
    exact fun a mhz hlo hhi => Does.of_go _ (fun _ => rfl) fun h ⟨hr, he⟩ => Hw.operWrite_ok hr (Hw.cclkWrite_same (h := h.reply 0) hlo hhi he)
  case clock =>
    exact fun a mhz hlo hhi => Does.of_go _ (fun _ => rfl) fun h ⟨hr, ho, hne⟩ =>
      Hw.operWrite_ok hr (Hw.cclkWrite_changes (h := h.reply 0) hlo hhi ho hne)
  case errRead => exact fun a p => Does.of_go _ (fun _ => rfl) fun h hr => Hw.access_reach hr

end Sys2Proof.Machine
end

section
/-!
Queues and the DMA port (R45, R46, R101–R110): what their commands come to.
-/
namespace Sys2Proof.Machine

/-! ### The states of a queue (R101) -/

section
variable {h : Hw} {q : Nat}

theorem Hw.queueAble_of (hp : h.running (quePage q) = true) (hc : h.ctxOn (h.qCtx q) = true) : h.queueAble q = true := by
  simp [Hw.queueAble, hp, hc]

theorem Hw.queueEnable_off (hs : h.qState q = 0) (ha : h.queueAble q = true) : h.queueEnable q = .ok (h.queueStart q) := by
  simp only [Hw.queueEnable, hs]
  exact if_pos ha

theorem Hw.queueEnable_draining (hs : h.qState q = 3) (ha : h.queueAble q = true) : h.queueEnable q = .ok (h.setQState q 6) := by
  simp only [Hw.queueEnable, hs]
  exact if_pos ha

theorem Hw.queueEnable_unable (hs : h.qState q = 0 ∨ h.qState q = 3) (ha : ¬ h.queueAble q = true) : h.queueEnable q = .error E.badState := by
  rcases hs with hs | hs <;> simp only [Hw.queueEnable, hs] <;> exact if_neg ha

theorem Hw.queueDisable_active (hs : h.qState q = 1 ∨ h.qState q = 2) :
    h.queueDisable q = ((h.putQueue { h.queue q with drainTo := h.g (R.Q_TAIL_TAIL.at q) }).setQState q 3).queueSettle q := by
  rcases hs with hs | hs <;> simp only [Hw.queueDisable, hs]

theorem Hw.queueAbort_active (hs : h.qState q = 1 ∨ h.qState q = 2 ∨ h.qState q = 3 ∨ h.qState q = 6) :
    h.queueAbort q = ((h.putQueue { h.queue q with runs := endRuns E.aborted (h.queue q).runs }).setQState q 4).queueSettle q := by
  rcases hs with hs | hs | hs | hs <;> simp only [Hw.queueAbort, hs]

/-- A doorbell of a queue that takes entries, in range and not behind the last one, moves the tail (R103). -/
theorem Hw.doorbell_active {tail : Nat} (ht : tail < 65536) (hs : h.qState q = 1 ∨ h.qState q = 2 ∨ h.qState q = 6)
    (hroom : (tail + 65536 - h.g (R.Q_HEAD_HEAD.at q)) % 65536 ≤ 2 ^ h.g (R.Q_CFG_SQ_LOG.at q))
    (hfwd : (h.g (R.Q_TAIL_TAIL.at q) + 65536 - h.g (R.Q_HEAD_HEAD.at q)) % 65536 ≤ (tail + 65536 - h.g (R.Q_HEAD_HEAD.at q)) % 65536) :
    h.doorbell q tail = .ok (h.s (R.Q_TAIL_TAIL.at q) tail) := by
  have hin : ¬ (2 ^ h.g (R.Q_CFG_SQ_LOG.at q) < (tail + 65536 - h.g (R.Q_HEAD_HEAD.at q)) % 65536 ∨
      (tail + 65536 - h.g (R.Q_HEAD_HEAD.at q)) % 65536 < (h.g (R.Q_TAIL_TAIL.at q) + 65536 - h.g (R.Q_HEAD_HEAD.at q)) % 65536) := by omega
  rcases hs with hs | hs | hs <;> simp [Hw.doorbell, hs, Nat.mod_eq_of_lt ht, hin]

theorem Hw.doorbell_refused (tail : Nat) (hs : h.qState q = 3 ∨ h.qState q = 4 ∨ h.qState q = 5) : h.doorbell q tail = .error E.badState := by
  rcases hs with hs | hs | hs <;> simp only [Hw.doorbell, hs]

theorem Hw.cqHead_ok {head : Nat} (hu : (head % 65536 + 65536 - h.g (R.CQ_HEAD_HEAD.at q)) % 65536 ≤ h.cqUsed q) :
    h.cqHead q head = .ok ((h.s (R.CQ_HEAD_HEAD.at q) head).setWait q) := if_neg (by omega)

end

/-- The operator reaches every bit of a queue register. -/
theorem Hw.ownBits_reach {h : Hw} {a : Acc} {p off : Nat} (hr : h.Reach a p off) (k : Hw) (i v : Nat) : k.ownBits a i v = v := if_pos hr.1

/-- Settles O24, command by command. -/
theorem queueCommandsDo : Obligations.QueueCommandsDo := by
  refine ⟨?enable, ?enableDraining, ?enableRefused, ?starts, ?disable, ?abort, ?bell, ?bellRefused, ?head, ?sum, ?pend, ?completion⟩
  case enable =>
    exact fun a q => Does.of_go _ (fun _ => rfl) fun h ⟨hr, hs, hp, hc⟩ =>
      Hw.queueAccess_ok hr (Hw.queueEnable_off (h := h.reply 0) hs (Hw.queueAble_of (h := h.reply 0) hp hc))
  case enableDraining =>
    exact fun a q => Does.of_go _ (fun _ => rfl) fun h ⟨hr, hs, hp, hc⟩ =>
      Hw.queueAccess_ok hr (Hw.queueEnable_draining (h := h.reply 0) hs (Hw.queueAble_of (h := h.reply 0) hp hc))
  case enableRefused =>
    refine fun a q => Does.of_go _ (fun _ => rfl) fun h ⟨hr, hs, hn⟩ => Hw.queueAccess_err hr (Hw.queueEnable_unable (h := h.reply 0) hs fun hable => hn ?_)
    rwa [← Bool.and_eq_true]
  case starts => exact fun q => Does.of_go _ (fun _ => rfl) fun h hs => if_pos hs
  case disable =>
    exact fun a q => Does.of_go _ (fun _ => rfl) fun h ⟨hr, hs⟩ =>
      Hw.queueAccess_ok hr (congrArg Except.ok (Hw.queueDisable_active (h := h.reply 0) hs))
  case abort =>
    exact fun a q => Does.of_go _ (fun _ => rfl) fun h ⟨hr, hs⟩ =>
      Hw.queueAccess_ok hr (congrArg Except.ok (Hw.queueAbort_active (h := h.reply 0) hs))
  case bell =>
    exact fun a q tail ht => Does.of_go _ (fun _ => rfl) fun h ⟨hr, hs, hroom, hfwd⟩ =>
      Hw.queueAccess_ok hr (Hw.doorbell_active (h := h.reply 0) ht hs hroom hfwd)
  case bellRefused =>
    exact fun a q tail => Does.of_go _ (fun _ => rfl) fun h ⟨hr, hs⟩ => Hw.queueAccess_err hr (Hw.doorbell_refused (h := h.reply 0) tail hs)
  case head => exact fun a q head => Does.of_go _ (fun _ => rfl) fun h ⟨hr, hu⟩ => Hw.queueAccess_ok hr (Hw.cqHead_ok (h := h.reply 0) hu)
  case sum =>
    refine fun a n => Does.of_go _ (fun _ => rfl) fun h hr => (Hw.access_reach hr).trans ?_
    simp only [Hw.ownBits_reach hr, Hw.reply_g]
  case pend =>
    refine fun a n bits hb => Does.of_go _ (fun _ => rfl) fun h hr => (Hw.access_reach hr).trans ?_
    rw [Hw.ownBits_reach hr, Nat.mod_eq_of_lt hb]
  case completion => exact fun a n => Does.of_go _ (fun _ => rfl) fun h ⟨hr, hz⟩ => (Hw.access_reach hr).trans (if_pos hz)

/-! ### The work of a queue (R104–R110) -/

section
variable {h : Hw} {q : Nat} {r : EntryRun}

/-- An engine that runs and has a lane free starts the descriptor that is next in turn (R105, R516). -/
theorem Hw.startDesc_picked {e charge c : Nat} (hp : h.running (enginePage e) = true) (hb : h.engineBusy e < h.engineLanes e)
    (hn : (h.noteReady e).pickNext e = some (c, q, r)) : h.startDesc e charge = (h.noteReady e).startOne e charge c q r := by
  unfold Hw.startDesc
  have hs : h.state (enginePage e) = 2 := by simpa [Hw.running] using hp
  simp only [hs, hn]
  exact if_neg (by simp [hb])

end

/-- Settles O25, command by command. -/
theorem queueWorkDoes : Obligations.QueueWorkDoes := by
  refine ⟨?fetch, ?chain, ?complete, ?coal, ?start⟩
  case fetch => exact fun q => Does.of_go _ (fun _ => rfl) fun h hm => if_pos hm
  case chain =>
    refine fun q a n => Does.of_go _ (fun _ => rfl) fun h ⟨r, hf, hc⟩ => ?_
    simp only [Hw.chainList, hf, hc]
  case complete =>
    refine fun q r rest => Does.of_go _ (fun _ => rfl) fun h ⟨hruns, hend, hroom⟩ => ?_
    simp only [Hw.completeEntry, hruns]
    exact if_neg (by simp [hend, hroom])
  case coal => exact fun q => Does.of_go _ (fun _ => rfl) fun h hdue => if_pos hdue
  case start => exact fun e charge c q r => Does.of_go _ (fun _ => rfl) fun h ⟨hp, hb, hn⟩ => Hw.startDesc_picked hp hb hn

/-! ### The DMA port (R45, R46) -/

theorem exec_dmaErrorResponse {s : State} {id : Nat} {r : DmaReq} (hr : s.hw.dmaReq id = some r) :
    exec (.dmaErrorResponse id) s = s.go fun h => (h.dmaEnd id).dmaFailed r := by
  show execDmaErrorResponse id s = _
  simp only [execDmaErrorResponse, hr]

theorem exec_dmaReadComplete {s : State} {id : Nat} {r : DmaReq} (hr : s.hw.dmaReq id = some r) (hw : r.write = false) :
    exec (.dmaReadComplete id) s =
      s.go fun h => if r.whole then (h.dmaEnd id).readDone r (Memory.readBytes s.mem r.addr r.len) else h.dmaBack id := by
  show execDmaReadComplete id s = _
  simp only [execDmaReadComplete, hr, hw, Bool.false_eq_true, if_false]

/-- Settles O26, command by command. What a response does to memory and to the work that issued it, burst by burst, is log entries 7, 102 and 103. -/
theorem dmaResponsesDo : Obligations.DmaResponsesDo := by
  refine ⟨?write, ?error, ?read, ?elsewhere⟩
  case write => exact fun s id r hr hw => exec_dmaWriteResponse hr hw
  case error => exact fun s id r hr => exec_dmaErrorResponse hr
  case read => exact fun s id r hr hw => exec_dmaReadComplete hr hw
  case elsewhere =>
    refine fun s id r hm hr hw => ⟨_, exec_dmaWriteResponse hr hw, fun x hx => Memory.writeBytes_out _ r.addr x hm fun i hi => hx i ?_⟩
    exact hi.trans_le (List.length_take_le' _ _)

end Sys2Proof.Machine
end

section
/-!
Host accesses by address (R9, R42, R80, R365, R511): what the write or the read of one word comes to.
-/
namespace Sys2Proof.Machine

/-! ### Writes -/

/-- A write of PAGE_IRQ_EN reaches its page's mask (R80). -/
theorem Hw.writeWord_irqEn {h : Hw} {a : Acc} {p : Nat} (v : Nat) (hr : h.Reach a p 0x18) : h.writeWord a p 0x18 v = (h.reply 0).s (R.PAGE_IRQ_EN_EN p) v :=
  (if_pos (by decide)).trans (Hw.access_reach (f := fun h => h.s (R.PAGE_IRQ_EN_EN p) v) hr)

/-- The two fields of FLW_LEVEE. -/
theorem Hw.covers_levee (h : Hw) (v : Nat) : h.covers 0x30 0x48 v =
    [(⟨R.FLW_LEVEE_HIGH, .rw, .pageOff, .none, 1, 0, 255, 1, 7⟩, R.FLW_LEVEE_HIGH, bits v 0 8),
     (⟨R.FLW_LEVEE_LOW, .rw, .pageOff, .none, 1, 0, 255, 1, 7⟩, R.FLW_LEVEE_LOW, bits v 8 8)] := by
  rw [Hw.covers_of_rows h 0x30 0x48 v (l := [⟨R.FLW_LEVEE_HIGH, .rw, .pageOff, .none, 1, 0, 255, 1, 7⟩,
    ⟨R.FLW_LEVEE_LOW, .rw, .pageOff, .none, 1, 0, 255, 1, 7⟩]) (by decide +kernel)]
  cases h.prof <;> rfl

section
variable {h : Hw} {low high : Nat} (hlt : low < high) (hmax : high < 256)
include hlt hmax

/-- Both levees are taken while the page is OFF and the low one lies below the high one (R365). -/
theorem Hw.setWord_levee (ho : h.off 0x30 = true) :
    h.setWord 0x30 0x48 (high + 256 * low) = .ok ((h.s R.FLW_LEVEE_HIGH high).s R.FLW_LEVEE_LOW low) := by
  have hh : bits (high + 256 * low) 0 8 = high := by simp only [bits]; omega
  have hl : bits (high + 256 * low) 8 8 = low := by simp only [bits]; omega
  have hhigh : ((h.s R.FLW_LEVEE_HIGH high).s R.FLW_LEVEE_LOW low).g R.FLW_LEVEE_HIGH = high :=
    (Hw.g_s_ne _ _ (by decide)).trans ((Hw.g_s_self _ _ _).trans (Nat.mod_eq_of_lt hmax))
  have hlow : ((h.s R.FLW_LEVEE_HIGH high).s R.FLW_LEVEE_LOW low).g R.FLW_LEVEE_LOW = low :=
    (Hw.g_s_self _ _ _).trans (Nat.mod_eq_of_lt (hlt.trans hmax))
  unfold Hw.setWord
  rw [Hw.covers_levee, hh, hl]
  have hfree : (h.g R.FLW_LEVEE_HIGH != high && !h.mayChange 0x30 .pageOff R.FLW_LEVEE_HIGH ||
      h.g R.FLW_LEVEE_LOW != low && !h.mayChange 0x30 .pageOff R.FLW_LEVEE_LOW) = false := by simp [Hw.mayChange, ho]
  have hv : ((h.s R.FLW_LEVEE_HIGH high).s R.FLW_LEVEE_LOW low).verdictOn 0x30 0x48 = none := by
    simp [Hw.verdictOn, hhigh, hlow, hlt]
  simp only [List.any_cons, List.any_nil, Bool.or_false, hfree, Bool.false_eq_true, if_false, Hw.each, List.foldl_cons, List.foldl_nil, hv]
  exact if_neg (by simp [Hw.illegalWord, Nat.mod_one]; omega)

end

theorem Hw.writeWord_levee {h : Hw} {a : Acc} {low high : Nat} (hlt : low < high) (hmax : high < 256) (hr : h.Reach a 0x30 0x48)
    (ho : h.off 0x30 = true) : h.writeWord a 0x30 0x48 (high + 256 * low) = (((h.reply 0).s R.FLW_LEVEE_HIGH high).s R.FLW_LEVEE_LOW low).accepted 0x30 := by
  have hreg : h.isReg 0x30 0x48 = true := Hw.isReg_of_covers (v := high + 256 * low) (by rw [Hw.covers_levee]; exact List.cons_ne_nil _ _)
  have e : h.writeWord a 0x30 0x48 (high + 256 * low) = h.hostWrite a 0x30 0x48 false fun h => h.setWord 0x30 0x48 (high + 256 * low) := by
    simp [Hw.writeWord, operOnly, hreg]
    rfl
  rw [e]
  exact Hw.hostWrite_ok hr (Hw.setWord_levee (h := h.reply 0) hlt hmax ho)

/-! ### Reads -/

/-- A read of a function register answers what its rows show, latches what it latches and clears what it clears (R83, R511). -/
theorem Hw.readWord_reach {h : Hw} {a : Acc} {p off : Nat} (hr : h.Reach a p off) (hf : 0x40 ≤ off) : h.readWord a p off = (h.reply 0).funcRead a p off :=
  (Hw.access_reach hr).trans ((if_neg (by omega)).trans (if_neg (by omega)))

theorem Hw.busRead_word (h : Hw) (a : Acc) {addr p off : Nat} (e1 : addr % 2 ^ 20 / 4096 = p) (e2 : addr % 4096 = off) (e3 : off % 4 = 0) :
    h.busRead a addr false = h.readWord a p off := by
  unfold Hw.busRead
  simp only [e1, e2, e3, Bool.not_false, if_true]

/-- A word that one field fills shows that field. -/
theorem Hw.wordFor_one {h : Hw} (a : Acc) {p off i : Nat} {r : Row} (hr : h.rowsAt p off = [(r, i)]) (hw : r.f.width ≤ 32) (hlo : r.f.lo = 0) :
    h.wordFor a p off = h.seen a r p i % 2 ^ 32 := by
  have hn : ¬ 32 < r.f.width := by omega
  simp [Hw.wordFor, hr, hn, hlo, total]

theorem Hw.rowsAt_nt0 (h : Hw) : h.rowsAt 0x04 0x50 = [(⟨R.TIM_NT0_NT, .ro, .free, .none, 1, 0, 4294967295, 1, 7⟩, 0)] := by
  rw [Hw.rowsAt_of_rows h 0x04 0x50 (l := [⟨R.TIM_NT0_NT, .ro, .free, .none, 1, 0, 4294967295, 1, 7⟩]) (by decide +kernel)]
  cases h.prof <;> rfl

theorem Hw.rowsAt_rollbacks (h : Hw) : h.rowsAt 0x5C 0x68 = [(⟨R.UPD_ROLLBACKS_COUNT, .rc, .free, .none, 1, 0, 4294967295, 1, 7⟩, 0)] := by
  rw [Hw.rowsAt_of_rows h 0x5C 0x68 (l := [⟨R.UPD_ROLLBACKS_COUNT, .rc, .free, .none, 1, 0, 4294967295, 1, 7⟩]) (by decide +kernel)]
  cases h.prof <;> rfl

/-- TIM_NT0 shows the low word of the network time. -/
theorem Hw.funcRead_nt0 (h : Hw) (a : Acc) : h.funcRead a 0x04 0x50 = (h.latchRead a 0x04 0x50).reply (h.nt % 2 ^ 32) := by
  have hv : h.wordFor a 0x04 0x50 = h.nt % 2 ^ 32 := by
    have hs : h.seen a ⟨R.TIM_NT0_NT, .ro, .free, .none, 1, 0, 4294967295, 1, 7⟩ 0x04 0 = bits h.nt 0 32 := rfl
    rw [Hw.wordFor_one a (Hw.rowsAt_nt0 h) (by decide) (by decide), hs, bits, Nat.mod_mod, Nat.pow_zero, Nat.div_one]
  have hc (k : Hw) : k.clearRead 0x04 0x50 = k := by
    unfold Hw.clearRead
    rw [Hw.rowsAt_nt0]
    rfl
  have e : h.funcRead a 0x04 0x50 = ((h.latchRead a 0x04 0x50).clearRead 0x04 0x50).reply (h.wordFor a 0x04 0x50) := by
    simp [Hw.funcRead, Hw.accountHidden]
  rw [e, hc, hv]

theorem Hw.funcRead_rollbacks (h : Hw) (a : Acc) :
    h.funcRead a 0x5C 0x68 = (h.s R.UPD_ROLLBACKS_COUNT 0).reply (h.g R.UPD_ROLLBACKS_COUNT % 2 ^ 32) := by
  have hs : h.seen a ⟨R.UPD_ROLLBACKS_COUNT, .rc, .free, .none, 1, 0, 4294967295, 1, 7⟩ 0x5C 0 = h.g R.UPD_ROLLBACKS_COUNT := rfl
  have hl : h.latchRead a 0x5C 0x68 = h := by
    unfold Hw.latchRead
    rw [Hw.rowsAt_rollbacks]
    rfl
  have hc : h.clearRead 0x5C 0x68 = h.s R.UPD_ROLLBACKS_COUNT 0 := by
    unfold Hw.clearRead
    rw [Hw.rowsAt_rollbacks]
    rfl
  have e : h.funcRead a 0x5C 0x68 = ((h.latchRead a 0x5C 0x68).clearRead 0x5C 0x68).reply (h.wordFor a 0x5C 0x68) := by
    simp [Hw.funcRead, Hw.accountHidden]
  rw [e, hl, hc, Hw.wordFor_one a (Hw.rowsAt_rollbacks h) (by decide) (by decide), hs]

/-- Settles O27, command by command. -/
theorem hostAccessesDo : Obligations.HostAccessesDo := by
  refine ⟨?irqEn, ?levee, ?strobes, ?clears, ?latches⟩
  case irqEn =>
    refine fun a p v hp hv => Does.of_go _ (fun _ => rfl) fun h hr => ?_
    rw [Nat.mod_eq_of_lt (show v < 2 ^ 64 by omega), Hw.busWrite_low h a (p := p) (off := 0x18) (by omega) (by omega) rfl, Nat.mod_eq_of_lt hv]
    exact Hw.writeWord_irqEn v hr
  case levee =>
    refine fun a low high hlt hmax => Does.of_go _ (fun _ => rfl) fun h ⟨hr, ho⟩ => ?_
    rw [Nat.mod_eq_of_lt (show high + 256 * low < 2 ^ 64 by omega), Hw.busWrite_low h a (p := 0x30) (off := 0x48) rfl rfl rfl,
      Nat.mod_eq_of_lt (by omega)]
    exact Hw.writeWord_levee hlt hmax hr ho
  case strobes =>
    refine fun a addr strb data h1 h2 h3 => Does.of_go _ (fun _ => rfl) fun h _ => ?_
    unfold Hw.busWrite
    split
    · contradiction
    · contradiction
    · contradiction
    · rfl
  case clears =>
    refine fun a => Does.of_go _ (fun _ => rfl) fun h hr => ?_
    rw [Hw.busRead_word h a (p := 0x5C) (off := 0x68) rfl rfl rfl, Hw.readWord_reach hr (by decide), Hw.funcRead_rollbacks]
    rfl
  case latches =>
    refine fun a => Does.of_go _ (fun _ => rfl) fun h hr => (if_pos (by decide)).trans ((Hw.readWord_reach hr (by decide)).trans ?_)
    rw [Hw.funcRead_nt0]
    rfl

end Sys2Proof.Machine
end

section
/-!
Network time (R115, R120, R122–R125, R138–R140, R366): what its commands and its instants come to.
-/
namespace Sys2Proof.Machine

/-! ### TIM_CMD (R120) -/

section
variable {h : Hw}

theorem Hw.timCmd_step (hs : h.g R.TIM_CFG_SOURCE ≠ 3) (hv : h.g R.TIM_STATUS_SERVO = 2 ∨ h.g R.TIM_STATUS_SERVO = 3) :
    h.timCmd true false = .ok { h with tim := { h.tim with stepPending := true } } :=
  if_neg (by rcases hv with hv | hv <;> simp [hs, hv])

theorem Hw.timCmd_step_refused (hv : h.g R.TIM_CFG_SOURCE = 3 ∨ h.g R.TIM_STATUS_SERVO = 0 ∨ h.g R.TIM_STATUS_SERVO = 1 ∨ h.g R.TIM_STATUS_SERVO = 4) :
    h.timCmd true false = .error E.badState :=
  if_pos (by rcases hv with hv | hv | hv | hv <;> simp [hv])

theorem Hw.timCmd_set (hp : h.running 0x04 = true) (hs : h.g R.TIM_CFG_SOURCE = 3) :
    h.timCmd false true = .ok { h with tim := { h.tim with setDue := h.tim.setDue ++
      [(h.g (R.TIM_SET_NT_NT.at 0) + 2 ^ 32 * h.g (R.TIM_SET_NT_NT.at 1) + 2 ^ 64 * (h.g (R.TIM_SET_NT_NT.at 2) % 2 ^ 16)) * 2 ^ 32] } } :=
  if_neg (by simp [hp, hs])

theorem Hw.timCmd_set_refused (hv : h.running 0x04 = false ∨ h.g R.TIM_CFG_SOURCE ≠ 3) : h.timCmd false true = .error E.badState :=
  if_pos (by rcases hv with hv | hv <;> simp [hv])

end

/-! ### Time probes (R124) -/

section
variable {h : Hw} {p : Nat}

theorem Hw.probes_culvert (hc : isCulvert p = true) : h.probes p = true := by simp [Hw.probes, hc]

theorem Hw.arrivedAt_culvert (hc : isCulvert p = true) : h.arrivedAt p = some (h.probeAt p) := if_pos hc

theorem Hw.arrivedAt_fabric (hc : isCulvert p = false) {t : Nat} (ht : (h.takeStamp p).1 = some t) : h.arrivedAt p = some (t : Int) := by
  simp [Hw.arrivedAt, hc, ht]

/-- What a culvert's probe tells of its peer: its servo, TIME_LOST, and on a leaf the pressure of its home (R124, R366). -/
def Hw.peerTold (h : Hw) (p servo : Nat) (lost press head : Bool) (t : Int) : Hw :=
  let h := h.putLink { h.link p with peerServo := servo % 8, peerLost := lost, probeRx := some t.toNat }
  let h := if lost then { h with flw := { h.flw with lflags := h.flw.lflags ||| 4 } } else h
  let h := match h.prof with | .l => h.homeShows p press head | _ => h
  h.pickCulvert

theorem Hw.probed_eq (h : Hw) (p servo : Nat) (lost press head : Bool) :
    h.probed p servo lost press head = (h.heard p).peerTold p servo lost press head (h.probeAt p) := by
  unfold Hw.probed
  rw [← Hw.heard_prof h p]
  cases lost <;> rfl

/-- The exchange that a probe ends, once one of this node's own probes has been answered: delay, and offset on a leaf that follows the port (R124). -/
def Hw.exchangeEnds (h : Hw) (p servo : Nat) (lost : Bool) (t1 t2 : Int) : Option Nat → Option Nat → Hw
  | some t3, some t4 =>
    let m := twoWay t1 t2 t3 t4
    let h := (h.onLink p fun k => { k with delayNs := (m.1 / 65536).toNat }).triggerCond
    if h.prof = .l ∧ h.g R.TIM_CFG_SOURCE = 1 ∧ h.g R.TIM_STATUS_SRC_USED = p + 1 ∧ servo = 3 ∧ !lost then h.measure m.2 else h
  | _, _ => h

end

/-- Network time is lost once: the record, the flag of the ledgers and the breach of the guarantee (R122). -/
theorem Hw.loseTime_held {h : Hw} (v : Int) (hl : h.on R.TIM_STATUS_TIME_LOST = false) :
    h.loseTime v true =
      (let k := ((h.s R.TIM_STATUS_TIME_LOST 1).err 0x04 E.timeLost).raise 0x04 17
      let k := k.event 0x0011 2 (le 8 (unsigned 64 v) ++ [1])
      Hw.breach { k with flw := { k.flw with lflags := k.flw.lflags ||| 4 } } 6 0x08 0) := by
  simp only [Hw.loseTime, hl, Bool.false_eq_true, if_false, b2n, if_true]

/-- A node that is no leaf leaves the transient with its bound still widened (R125). -/
theorem Hw.leaveTransient_node {h : Hw} (ho : h.on R.TIM_STATUS_TRANSIENT = true) (hp : h.prof ≠ .l) :
    h.leaveTransient = (Hw.s { h with tim := { h.tim with widenUntil := h.frc + 3 * logNs h.ptp.syncLog } } R.TIM_STATUS_TRANSIENT 0).restore 6 0x0A := by
  unfold Hw.leaveTransient
  rw [if_neg (by simp [ho])]
  cases hq : h.prof with
  | l => exact absurd hq hp
  | g => rfl
  | t => rfl

/-- Settles O28, command by command. -/
theorem timeCommandsDo : Obligations.TimeCommandsDo := by
  refine ⟨?step, ?stepRefused, ?set, ?setDue, ?setRefused, ?probeTx, ?probeFirst, ?probeNext, ?probeHop, ?limit, ?bound, ?settled, ?transientLeaf,
    ?transient, ?timer⟩
  case step => exact fun a => Does.of_go _ (fun _ => rfl) fun h ⟨hr, hs, hv⟩ => Hw.operWrite_ok hr (Hw.timCmd_step (h := h.reply 0) hs hv)
  case stepRefused => exact fun a => Does.of_go _ (fun _ => rfl) fun h ⟨hr, hv⟩ => Hw.operWrite_err hr (Hw.timCmd_step_refused (h := h.reply 0) hv)
  case set => exact fun a => Does.of_go _ (fun _ => rfl) fun h ⟨hr, hp, hs⟩ => Hw.operWrite_ok hr (Hw.timCmd_set (h := h.reply 0) hp hs)
  case setDue =>
    intro h t hd
    rw [Hw.stepDue, hd]
    rfl
  case setRefused => exact fun a => Does.of_go _ (fun _ => rfl) fun h ⟨hr, hv⟩ => Hw.operWrite_err hr (Hw.timCmd_set_refused (h := h.reply 0) hv)
  case probeTx => exact fun p => Does.of_go _ (fun _ => rfl) fun h ⟨hp, hu, hi, ht⟩ => if_pos (by simp [hp, hu, hi, ht])
  case probeFirst =>
    refine fun p hdr servo lost press head t1 f => Does.of_go _ (fun _ => rfl) fun h ⟨hc, hh⟩ => ?_
    refine (if_neg (by simp [Hw.probes_culvert hc])).trans ((Hw.receive_hears hh _).trans ?_)
    rw [Hw.probed_eq, Hw.arrivedAt_culvert hc]
    refine (if_neg (by simp [hc])).trans ?_
    show ((h.heard p).peerTold p servo lost press head (h.probeAt p)).exchangeEnds p servo lost t1 (h.probeAt p) ((h.heard p).link p).probeT none = _
    cases ((h.heard p).link p).probeT <;> rfl
  case probeNext =>
    refine fun p hdr servo lost press head t1 t3 t4 f => Does.of_go _ (fun _ => rfl) fun h ⟨hc, hh, hs⟩ => ?_
    refine (if_neg (by simp [Hw.probes_culvert hc])).trans ((Hw.receive_hears hh _).trans ?_)
    rw [Hw.probed_eq, Hw.arrivedAt_culvert hc]
    refine (if_neg (by simp [hc])).trans ?_
    show ((h.heard p).peerTold p servo lost press head (h.probeAt p)).exchangeEnds p servo lost t1 (h.probeAt p) ((h.heard p).link p).probeT
      (some t4) = _
    rw [hs]
    rfl
  case probeHop =>
    refine fun p hdr servo lost press head stamps t2 f => Does.of_go _ (fun _ => rfl) fun h ⟨hc, hg, hl, hh, ht⟩ => ?_
    refine (if_neg (by simp [Hw.probes, hg, hl])).trans ((Hw.receive_hears hh _).trans ?_)
    simp only [Hw.arrivedAt_fabric hc ht]
    exact if_pos (by simp [hc])
  case limit =>
    exact Does.of_go _ (fun _ => rfl) fun h ⟨hf, hs, hl, ht⟩ => (if_neg (by simp [hf])).trans (if_pos ⟨hs, by simp [hl], ht⟩)
  case bound =>
    refine Does.of_go _ (fun _ => rfl) fun h ⟨hf, hs, hb, ht, hl⟩ => ?_
    show (if h.faulted 0x04 = true then h else if _ then h.loseTime ((h.timBound * 65536 : Nat) : Int) true else h) = _
    rw [if_neg (by simp [hf]), if_pos ⟨hs, hb, ht⟩, Hw.loseTime_held _ hl]
  case settled => exact Does.of_go _ (fun _ => rfl) fun h ⟨hf, hs⟩ => (if_neg (by simp [hf])).trans (if_pos hs)
  case transientLeaf =>
    refine fun t => Does.of_go _ (fun _ => rfl) fun h ⟨hf, hb, ht, ho, hp⟩ => (if_neg (by simp [hf])).trans ?_
    simp only [hb]
    refine (if_pos ht).trans ((if_neg (by simp [ho])).trans ?_)
    simp only [hp]
  case transient =>
    refine fun t => Does.of_go _ (fun _ => rfl) fun h ⟨hf, hb, ht, ho, hp⟩ => (if_neg (by simp [hf])).trans ?_
    conv_lhs => simp only [hb]
    exact (if_pos ht).trans (Hw.leaveTransient_node ho hp)
  case timer =>
    refine fun t x => Does.of_go _ (fun _ => rfl) fun h ⟨hx, hn, hl, hfirst⟩ => ?_
    have hnone : h.tim.timers.any (fun y => decide (y.next ≤ h.ns) && decide (y.num < t)) = false := by
      rw [List.any_eq_false]
      intro y hy
      have := hfirst y hy
      simp only [Bool.and_eq_true, decide_eq_true_eq, not_and, not_lt]
      exact this
    simp only [hx]
    refine (if_neg (by simp [hnone]; omega)).trans ?_
    simp only [hl, Bool.false_eq_true, if_false]

end Sys2Proof.Machine
end

section
/-!
PTP (R53–R55, R126, R127, R130, R135): what its frames, pulses and instants come to.
-/
namespace Sys2Proof.Machine

/-- Settles O29, command by command. The bytes of the Announce message are log entry 63, and the record of a long-haul hop without an exchange
log entry 166. -/
theorem ptpCommandsDo : Obligations.PtpCommandsDo := by
  refine ⟨?bad, ?off, ?foreign, ?taken, ?forwarded, ?rxPulse, ?txPredicted, ?txFollowUp, ?sync, ?delayReq, ?announce, ?backup, ?silent, ?hop, ?hopStamps⟩
  case bad =>
    exact fun i bs bad => Does.of_go _ (fun _ => rfl) fun h ⟨hi, hb⟩ =>
      (if_neg (by omega)).trans (if_pos (by rcases hb with hb | hb <;> simp [hb]))
  case off =>
    exact fun i bs => Does.of_go _ (fun _ => rfl) fun h ⟨hi, hr, hl⟩ =>
      (if_neg (by omega)).trans ((if_neg (by simp; omega)).trans (if_pos (by simp [hr])))
  case foreign =>
    refine fun i bs => Does.of_go _ (fun _ => rfl) fun h ⟨hi, hr, hl, hn⟩ =>
      (if_neg (by omega)).trans ((if_neg (by simp; omega)).trans ((if_neg (by simp [hr])).trans ?_))
    simp only [hn]
  case taken =>
    refine fun i bs m => Does.of_go _ (fun _ => rfl) fun h ⟨hi, hr, hl, hm, h2, h3, h10, ho⟩ =>
      (if_neg (by omega)).trans ((if_neg (by simp; omega)).trans ((if_neg (by simp [hr])).trans ?_))
    simp only [hm]
    refine (if_neg (by simp [h2, h3, h10])).trans ?_
    simp only [ho, if_true, Bool.not_true, Bool.false_and, Bool.false_eq_true, if_false]
  case forwarded =>
    refine fun i bs m => Does.of_go _ (fun _ => rfl) fun h ⟨hi, hr, hl, hm, h2, h3, h10, ho, hs, hout⟩ =>
      (if_neg (by omega)).trans ((if_neg (by simp; omega)).trans ((if_neg (by simp [hr])).trans ?_))
    simp only [hm]
    refine (if_neg (by simp [h2, h3, h10])).trans ?_
    have hgo : ¬ (m.typ < 2 ∧ (h.takeStamp (0x200 + i)).1.isNone = true ∨ 4608 < wireBytes 0 bs.length) := by
      rintro (⟨hlt, hnone⟩ | hlong)
      · rcases hs with hs | hs
        · omega
        · simp_all
      · omega
    simp only [ho, hgo, if_false, Bool.false_eq_true]
    exact if_neg (by simp [hout])
  case rxPulse => exact fun i => Does.of_go _ (fun _ => rfl) fun h hp => if_neg (by simp [hp])
  case txPredicted =>
    refine fun i predicted seq l => Does.of_go _ (fun _ => rfl) fun h ⟨hp, hs⟩ => (if_neg (by simp [hp])).trans ?_
    simp only [hs]
  case txFollowUp =>
    refine fun i predicted seq l => Does.of_go _ (fun _ => rfl) fun h ⟨hp, hs⟩ => (if_neg (by simp [hp])).trans ?_
    simp only [hs]
  case sync => exact fun i => Does.of_go _ (fun _ => rfl) fun h ⟨hp, hm, he⟩ => if_pos (by simp [hp, hm, he])
  case delayReq => exact Does.of_go _ (fun _ => rfl) fun h ⟨hp, hs, ha, he⟩ => if_pos (by simp [hp, hs, ha, he])
  case announce => exact fun i => Does.of_go _ (fun _ => rfl) fun h ⟨hp, hm, he⟩ => if_pos (by simp [hp, hm, he])
  case backup =>
    exact Does.of_go _ (fun _ => rfl) fun h ⟨hr, hs, ha, ht, hb, he⟩ =>
      (if_neg (by simp [hr, hs, ha]; omega)).trans (if_pos (by simp [hb, he]))
  case silent =>
    exact Does.of_go _ (fun _ => rfl) fun h ⟨hr, hs, ha, ht, hb⟩ =>
      (if_neg (by simp [hr, hs, ha]; omega)).trans (if_neg (by rcases hb with hb | hb <;> simp [hb]))
  case hop =>
    refine fun i m t1 t2 t3 t4 => Does.of_go _ (fun _ => rfl) fun h ⟨hg, hp, hl, he, hm⟩ => (if_neg (by simp [hg, hp, hl, he])).trans ?_
    simp only [hm]
  case hopStamps =>
    refine fun i t1 t2 t3 t4 => Does.of_go _ (fun _ => rfl) fun h ⟨hg, hp, hl, he, hm, h2, h3⟩ => (if_neg (by simp [hg, hp, hl, he])).trans ?_
    simp only [hm]
    exact if_neg (by omega)

end Sys2Proof.Machine
end

section
/-!
The step trackers (R64, R65, R146, R150–R166): what their marks, time-outs and commands come to.
-/
namespace Sys2Proof.Machine

/-! ### Phase marks of one tick act in the order of their inputs (R150) -/

theorem flatMap_mark (j n : Nat) : ((List.range n).flatMap fun m => [j].filter (· == m)) = if j < n then [j] else [] := by
  induction n with
  | zero => rfl
  | succ n ih =>
    rw [List.range_succ, List.flatMap_append, ih]
    rcases Nat.lt_trichotomy j n with hlt | rfl | hgt
    · simp [hlt, hlt.ne, Nat.lt_succ_of_lt hlt]
    · simp
    · simp [hgt.ne', show ¬ j < n by omega, show ¬ j < n + 1 by omega]

theorem flatMap_marks {i j : Nat} (hij : i < j) (n : Nat) :
    ((List.range n).flatMap fun m => [j, i].filter (· == m)) = (if i < n then [i] else []) ++ if j < n then [j] else [] := by
  induction n with
  | zero => rfl
  | succ n ih =>
    rw [List.range_succ, List.flatMap_append, ih]
    by_cases hi : i = n
    · subst hi
      simp [hij.ne', show ¬ j < i by omega, show ¬ j < i + 1 by omega]
    · by_cases hj : j = n
      · subst hj
        simp [hij, hij.ne, Nat.lt_succ_of_lt hij]
      · simp [hi, hj, show i < n + 1 ↔ i < n by omega, show j < n + 1 ↔ j < n by omega]

/-! ### The entry that is due (R150) -/

section
variable {h : Hw} {t a : Nat} {e : SchEntry} {missing : Bool} {l : List (Nat × SchEntry × Bool)}

theorem Hw.dueEntry_of_unfired (hu : h.unfired t = (a, e, missing) :: l) (hs : h.trkState t ≠ 4) (ha : a ≤ h.angleOf (h.trackerOf t)) :
    h.dueEntry t = some (a, e, missing) := by
  simp only [Hw.dueEntry, hu]
  exact if_neg (by simp [hs]; omega)

/-- What is due of a tracker is the first entry not fired. -/
theorem Hw.eq_of_dueEntry {x : Nat × SchEntry × Bool} (hu : h.unfired t = (a, e, missing) :: l) (hd : h.dueEntry t = some x) : x = (a, e, missing) := by
  simp only [Hw.dueEntry, hu] at hd
  split at hd
  · contradiction
  · exact (Option.some.inj hd).symm

theorem Hw.laterThan_false {x : Nat × SchEntry × Bool}
    (hfirst : ∀ u, u < h.trackerCount → ∀ y ∈ h.dueEntry u, ¬ (y.1 < x.1 ∨ (y.1 = x.1 ∧ y.2.1.num < x.2.1.num))) : h.laterThan x = false := by
  rw [Hw.laterThan, List.any_eq_false]
  intro u hu
  cases hy : h.dueEntry u with
  | none => simp
  | some y => simpa using hfirst u (List.mem_range.1 hu) y hy

theorem Hw.laterThan_true {x y : Nat × SchEntry × Bool} {u : Nat} (hu : u < h.trackerCount) (hy : h.dueEntry u = some y)
    (hlt : y.1 < x.1 ∨ (y.1 = x.1 ∧ y.2.1.num < x.2.1.num)) : h.laterThan x = true := by
  rw [Hw.laterThan, List.any_eq_true]
  exact ⟨u, List.mem_range.2 hu, by simpa [hy] using hlt⟩

theorem Hw.pointReady_entry (hd : h.dueEntry t = some (a, e, missing)) (hl : h.laterThan (a, e, missing) = false) :
    h.pointReady (.entry t missing) = true := by
  simp [Hw.pointReady, hd, hl]

/-- An entry waits while another tracker's entry is due before it. -/
theorem Hw.pointReady_waits {u : Nat} {y : Nat × SchEntry × Bool} (hunf : h.unfired t = (a, e, missing) :: l) (hu : u < h.trackerCount)
    (hy : h.dueEntry u = some y) (hlt : y.1 < a ∨ (y.1 = a ∧ y.2.1.num < e.num)) (m : Bool) : h.pointReady (.entry t m) = false := by
  cases hd : h.dueEntry t with
  | none => simp [Hw.pointReady, hd]
  | some x =>
    obtain rfl := Hw.eq_of_dueEntry hunf hd
    have hl : h.laterThan (a, e, missing) = true := Hw.laterThan_true hu hy hlt
    simp [Hw.pointReady, hd, hl]

/-- The entry that is due and first fires. -/
theorem Hw.fireNext_due (hd : h.dueEntry t = some (a, e, missing)) (hl : h.laterThan (a, e, missing) = false) :
    h.fireNext t missing = ((if missing then h.inc (R.PH_MISS_COUNT.at e.phase) else h).putTracker
      { h.trackerOf t with fired := e.num :: (h.trackerOf t).fired }).act e (some t) 0 := by
  simp only [Hw.fireNext, hd]
  exact if_neg (by simp [hl])

/-- A tick that has reached the entry due first, and nothing else, fires it. -/
theorem Hw.tickSteps_fires (hr : h.running 0x06 = true) (hm : h.stp.marks = []) (hp : h.stp.points = [.entry t missing])
    (hu : h.unfired t = (a, e, missing) :: l) (hs : h.trkState t ≠ 4) (ha : a ≤ h.angleOf (h.trackerOf t))
    (hfirst : ∀ u, u < h.trackerCount → ∀ y ∈ h.dueEntry u, ¬ (y.1 < a ∨ (y.1 = a ∧ y.2.1.num < e.num))) :
    h.tickSteps = Hw.fireNext { h with stp := { h.stp with marks := [], points := [] } } t missing :=
  Hw.tickSteps_one hr hm hp (Hw.pointReady_entry (Hw.dueEntry_of_unfired hu hs ha) (Hw.laterThan_false hfirst)) rfl

end

/-! ### STP_CMD and STP_TRK_EN (R151, R158) -/

section
variable {h : Hw} {t : Nat}

theorem Hw.stpCmd_swap (h : Hw) (t : Nat) : h.stpCmd true false t = h.stpSwap t := by
  unfold Hw.stpCmd
  simp only [if_true]
  cases h.stpSwap t <;> rfl

theorem Hw.stpSwap_off (ht : t < h.trackerCount) (ho : h.off 0x06 = true) (hl : h.shadowTable.all h.entryLegal = true) :
    h.stpSwap t = .ok { h with stp := { h.stp with table := h.shadowTable, pending := none } } := by
  refine (if_neg (by omega)).trans ((if_neg (by simp [ho])).trans ((if_neg (by simp only [hl]; decide)).trans (if_pos ho)))

theorem Hw.stpSwap_running {k : Hw} (ht : t < h.trackerCount) (ho : h.off 0x06 = false) (hr : h.running 0x06 = true)
    (hl : h.shadowTable.all h.entryLegal = true) (hk : h.claim 0x06 (schPins h.shadowTable) (schTimers h.shadowTable) = .ok k) :
    h.stpSwap t = .ok (Hw.s { k with stp := { k.stp with pending := some (h.shadowTable, t) } } R.STP_SCHED_STAT_SWAP_PENDING 1) := by
  refine (if_neg (by omega)).trans ((if_neg (by simp [hr])).trans ((if_neg (by simp only [hl]; decide)).trans ((if_neg (by simp [ho])).trans ?_)))
  simp only [hk]

theorem Hw.stpSwap_illegal (ht : t < h.trackerCount) (hs : h.off 0x06 = true ∨ h.running 0x06 = true) (hl : h.shadowTable.all h.entryLegal = false) :
    h.stpSwap t = .error E.badValue := by
  refine (if_neg (by omega)).trans ((if_neg ?_).trans (if_pos (by simp only [hl]; decide)))
  rcases hs with hs | hs <;> simp [hs]

theorem Hw.setIndex_ok (ht : t < h.trackerCount) (hv : h.g R.STP_INDEX_SET_LO_INDEX + 2 ^ 32 * h.g R.STP_INDEX_SET_HI_INDEX ≠ 2 ^ 48 - 1) :
    h.setIndex t = .ok (h.putTracker { h.trackerOf t with
      loadIndex := some (h.g R.STP_INDEX_SET_LO_INDEX + 2 ^ 32 * h.g R.STP_INDEX_SET_HI_INDEX) }) :=
  if_neg (by rintro (hle | he); exact absurd hle (by omega); exact hv he)

/-- A leaf's one tracker is the one bit of STP_TRK_EN. -/
theorem Hw.trkEnWrite_leaf {v : Nat} (hv : v < 2) (hl : h.prof = .l) :
    h.trkEnWrite 0 v = .ok ((h.s (R.STP_TRK_EN_EN.at 0) v).each (List.range 32) fun h t =>
      if bit v (t % 32) then (if h.trkState t = 0 && h.running 0x06 then h.trackerIdle t else h)
      else if h.trkState t = 0 then h
      else ((h.s (R.TRK_STAT_REASON.at t) 3).stepRecord t 0 3 0 h.frc).trackerOff t) := by
  have hand : v &&& 1 = v := by rw [Nat.and_one_is_mod]; omega
  have hmap : (List.range 32).map (32 * 0 + ·) = List.range 32 := by simp
  unfold Hw.trkEnWrite
  simp only [hl, Nat.mod_eq_of_lt (show v < 2 ^ 32 by omega), if_true, hand, hmap]
  exact if_neg (by simp)

theorem Hw.trkEnWrite_refused {i v : Nat} (hv : v < 2 ^ 32) (hl : h.prof ≠ .l) (hm : v &&& h.g (R.STP_IN_MASK_MASK.at i) ≠ v) :
    h.trkEnWrite i v = .error E.badValue := by
  unfold Hw.trkEnWrite
  simp only [Nat.mod_eq_of_lt hv]
  cases hp : h.prof with
  | l => exact absurd hp hl
  | g => exact if_pos hm
  | t => exact if_pos hm

end

/-- Settles O30, command by command. That SET_INDEX takes its value at the command is log entry 174. -/
theorem trackerCommandsDo : Obligations.TrackerCommandsDo := by
  refine ⟨?leafMark, ?stepIn, ?phaseMark, ?oneMark, ?twoMarks, ?late, ?stall, ?acquire, ?angle, ?missing, ?angleOff, ?missingOff, ?fires, ?waits,
    ?firesMissing, ?timed, ?swapOff, ?swap, ?swapIllegal, ?setIndex, ?enable, ?enableRefused⟩
  case leafMark => exact Does.of_go _ (fun _ => rfl) fun h ⟨hl, hc⟩ => (if_neg (by simp [hl, hc])).trans (if_pos rfl)
  case stepIn =>
    exact fun t high hh => Does.of_go _ (fun _ => rfl) fun h ⟨hp, hc, hm, hf⟩ =>
      (if_neg (by simp [hp, hc, hm]; omega)).trans (if_pos (by simpa using hh))
  case phaseMark =>
    exact fun j hj => Does.of_go _ (fun _ => rfl) fun h ⟨hl, hc⟩ => (if_neg (by simp [hl, hc]; omega)).trans (if_pos rfl)
  case oneMark =>
    intro h j hj hm
    rw [Hw.tickMarks, hm, flatMap_mark, if_pos hj]
    rfl
  case twoMarks =>
    intro h i j hij hj hm
    rw [Hw.tickMarks, hm, flatMap_marks hij, if_pos (hij.trans hj), if_pos hj]
    rfl
  case late => exact fun t => Does.of_go _ (fun _ => rfl) fun h ⟨hr, hs, ha⟩ => if_pos (by simp [hr, hs, ha])
  case stall => exact fun t => Does.of_go _ (fun _ => rfl) fun h ⟨hr, hs, ht⟩ => if_pos (by simpa [hr, hs] using ht)
  case acquire => exact fun t => Does.of_go _ (fun _ => rfl) fun h ⟨hr, hs, ht⟩ => if_pos (by simpa [hr, hs] using ht)
  case angle => exact fun t => Does.of_go _ (fun _ => rfl) fun h hr => if_pos hr
  case missing => exact fun t => Does.of_go _ (fun _ => rfl) fun h hr => if_pos hr
  case angleOff => exact fun t => Does.of_go _ (fun _ => rfl) fun h hr => if_neg (by simp [hr])
  case missingOff => exact fun t => Does.of_go _ (fun _ => rfl) fun h hr => if_neg (by simp [hr])
  case fires =>
    exact fun h t a e l hr hm hp hu hs ha hfirst =>
      (Hw.tickSteps_fires hr hm hp hu hs ha hfirst).trans (Hw.fireNext_due (h := { h with stp := { h.stp with marks := [], points := [] } })
        (Hw.dueEntry_of_unfired hu hs ha) (Hw.laterThan_false hfirst))
  case waits =>
    exact fun h t a e l u y hu ht hr hm hp hunf hy hlt =>
      Hw.tickSteps_none hr hm hp (Hw.pointReady_waits hunf (by rw [Hw.trackerCount, ht]; exact hu) hy hlt _)
  case firesMissing =>
    exact fun h t a e l hr hm hp hu hs ha hfirst =>
      (Hw.tickSteps_fires hr hm hp hu hs ha hfirst).trans (Hw.fireNext_due (h := { h with stp := { h.stp with marks := [], points := [] } })
        (Hw.dueEntry_of_unfired hu hs ha) (Hw.laterThan_false hfirst))
  case timed =>
    refine fun h num n e hr hm hp hf => Hw.tickSteps_one hr hm hp rfl ?_
    simp only [Hw.pointActs, hf]
  case swapOff =>
    refine fun a t => Does.of_go _ (fun _ => rfl) fun h ⟨hr, ht, ho, hl⟩ => (Hw.access_reach hr).trans ?_
    rw [Hw.stpCmd_swap, Hw.stpSwap_off (h := h.reply 0) ht ho hl]
    rfl
  case swap =>
    refine fun a t k => Does.of_go _ (fun _ => rfl) fun h ⟨hr, ht, ho, hrun, hl, hk⟩ => (Hw.access_reach hr).trans ?_
    rw [Hw.stpCmd_swap, Hw.stpSwap_running (h := h.reply 0) ht ho hrun hl hk]
    rfl
  case swapIllegal =>
    refine fun a t => Does.of_go _ (fun _ => rfl) fun h ⟨hr, ht, hs, hl⟩ => (Hw.access_reach hr).trans ?_
    rw [Hw.stpCmd_swap, Hw.stpSwap_illegal (h := h.reply 0) ht hs hl]
    exact congrArg Hw.dropSwap (Hw.refuse_eq _ _ (by decide))
  case setIndex => exact fun a t => Does.of_go _ (fun _ => rfl) fun h ⟨hr, ht, hv⟩ => Hw.hostWrite_ok hr (Hw.setIndex_ok (h := h.reply 0) ht hv)
  case enable =>
    exact fun a v hv => Does.of_go _ (fun _ => rfl) fun h ⟨hr, hl⟩ =>
      (if_pos (by decide)).trans (Hw.hostWrite_ok hr (Hw.trkEnWrite_leaf (h := h.reply 0) hv hl))
  case enableRefused =>
    exact fun a i v hi hv => Does.of_go _ (fun _ => rfl) fun h ⟨hr, hl, hm⟩ =>
      (if_pos hi).trans (Hw.hostWrite_err hr (Hw.trkEnWrite_refused (h := h.reply 0) hv hl hm))

end Sys2Proof.Machine
end

section
/-!
Frames and polls (R174–R177, R189, R206–R209), taps and windows (R230–R236, R252): what their commands come to.
-/
namespace Sys2Proof.Machine

/-! ### FRM_CMD and CNT_SOFT (R174, R189) -/

section
variable {h : Hw}

theorem Hw.frmCmd_running (full set sync : Bool) (k : Nat) (hr : h.running 0x09 = true) :
    h.frmCmd full set sync k =
      (let h := if full then h.captureFull none else h
      let h := if set && decide (h.prof = .l) then h.capture (some k) else h
      .ok (if sync then h.each (h.flw.streams.map fun s => s.source) fun h src => h.syncStream src else h)) :=
  if_neg (by simp [hr])

theorem Hw.frmCmd_set (k : Nat) (hr : h.running 0x09 = true) (hl : h.prof = .l) : h.frmCmd false true false k = .ok (h.capture (some k)) := by
  rw [Hw.frmCmd_running _ _ _ _ hr]
  simp [hl]

theorem Hw.frmCmd_set_refused (k : Nat) (hr : h.running 0x09 = false) : h.frmCmd false true false k = .error E.badState := if_pos (by simp [hr])

theorem Hw.softAdd_ok (v : Nat) (hl : h.prof = .l) (hc : h.g (R.CNT_SRC_CLASS.at (h.g R.CNT_SOFT_SLOT_SLOT)) = 7) (hr : h.running 0x08 = true) :
    h.softAdd v =
      (let k := h.setSlot (h.g R.CNT_SOFT_SLOT_SLOT) (h.slotVal (h.g R.CNT_SOFT_SLOT_SLOT) + v)
      .ok { k with cnt := { k.cnt with soft := (h.g R.CNT_SOFT_SLOT_SLOT, v, k.frc) :: k.cnt.soft.filter fun x => x.2.2 == k.frc } }) :=
  (if_neg (by simp [hl, hc])).trans (if_neg (by simp [hr]))

theorem Hw.softAdd_refused (v : Nat) (hn : h.prof ≠ .l ∨ h.g (R.CNT_SRC_CLASS.at (h.g R.CNT_SOFT_SLOT_SLOT)) ≠ 7) : h.softAdd v = .error E.badValue :=
  if_pos hn

theorem Hw.prxWorks_eq : h.prxWorks = true ↔ h.state 0x0A = 2 ∨ h.state 0x0A = 3 ∨ h.state 0x0A = 6 := by
  simp [Hw.prxWorks, Hw.running, or_assoc]

end

/-- Settles O31, command by command. -/
theorem frameCommandsDo : Obligations.FrameCommandsDo := by
  refine ⟨?full, ?set, ?sync, ?setRefused, ?refill, ?soft, ?softRefused, ?pollStart, ?polled, ?pollFails, ?pollOff⟩
  case full => exact fun a => Does.of_go _ (fun _ => rfl) fun h ⟨hr, hp⟩ => Hw.hostWrite_ok hr (Hw.frmCmd_running (h := h.reply 0) true false false 0 hp)
  case set => exact fun a set => Does.of_go _ (fun _ => rfl) fun h ⟨hr, hp, hl⟩ => Hw.hostWrite_ok hr (Hw.frmCmd_set (h := h.reply 0) _ hp hl)
  case sync => exact fun a => Does.of_go _ (fun _ => rfl) fun h ⟨hr, hp⟩ => Hw.hostWrite_ok hr (Hw.frmCmd_running (h := h.reply 0) false false true 0 hp)
  case setRefused =>
    exact fun a set => Does.of_go _ (fun _ => rfl) fun h ⟨hr, hp⟩ => Hw.hostWrite_err hr (Hw.frmCmd_set_refused (h := h.reply 0) _ hp)
  case refill => exact Does.of_go _ (fun _ => rfl) fun h ⟨hp, ht⟩ => if_pos (by simp [hp, ht])
  case soft =>
    refine fun a v hv => Does.of_go _ (fun _ => rfl) fun h ⟨hr, hl, hc, hp⟩ => ?_
    rw [Nat.mod_eq_of_lt hv]
    exact Hw.hostWrite_ok (f := fun h => h.softAdd v) hr (Hw.softAdd_ok (h := h.reply 0) v hl hc hp)
  case softRefused => exact fun a v => Does.of_go _ (fun _ => rfl) fun h ⟨hr, hn⟩ => Hw.hostWrite_err hr (Hw.softAdd_refused (h := h.reply 0) _ hn)
  case pollStart =>
    refine fun b x => Does.of_go _ (fun _ => rfl) fun h ⟨ht, hs, hb, hw⟩ => (if_neg (by simp [ht, hb, Hw.prxWorks_eq.2 hs])).trans ?_
    simp only [hw]
    rfl
  case polled =>
    refine fun p segs span => Does.of_go _ (fun _ => rfl) fun h ⟨ht, hb, hs, hbad⟩ => (if_neg (by simp [hb])).trans ((if_neg (by simp [ht, hb])).trans
      ((if_neg (by simp [Hw.prxWorks_eq.2 hs])).trans (if_neg fun hall => ?_)))
    simp only [Bool.and_eq_true, Bool.not_eq_true', beq_iff_eq] at hall
    simp [hall.1, hall.2] at hbad
  case pollFails =>
    refine fun p segs span => Does.of_go _ (fun _ => rfl) fun h ⟨ht, hb, hs, hne, hall⟩ => (if_neg (by simp [hb])).trans ((if_neg (by simp [ht, hb])).trans
      ((if_neg (by simp [Hw.prxWorks_eq.2 hs])).trans ?_))
    simp only [hall]
    exact if_pos (by simp [hne])
  case pollOff =>
    refine fun p segs span => Does.of_go _ (fun _ => rfl) fun h ⟨ht, hb, h2, h3, h6⟩ => (if_neg (by simp [hb])).trans ((if_neg (by simp [ht, hb])).trans
      (if_pos ?_))
    simpa [h2, h3, h6] using Hw.prxWorks_eq (h := h)

/-! ### Taps and windows (R230–R236, R252) -/

section
variable {h : Hw} {tap fmt tag b n : Nat}

/-- A first beat that a binding takes, without an override of its format, an overflow or a fault: what is left to tell is the header (R231–R233). -/
theorem Hw.tapStart_bound (bs : List Nat) (hr : h.running 0x10 = true) (he : h.on (R.TAP_CFG_EN.at tap) = true) (ht : h.tensor tap = none)
    (hm : h.matchBinding tap tag = some b) (hn : (h.takeTensor b tag).2 = some n) (ho : h.on (R.BIND_CTL_FMT_OVR.at b) = false) (hf : fmt < 6) :
    h.tapStart tap fmt tag bs false false false =
      (let k := (h.takeTensor b tag).1.inc (R.BIND_TENSORS_COUNT.at b)
      let off := if h.on (R.TAP_CFG_HDR.at tap) then fld bs 0 8 else 0
      let t : Tensor := ⟨tap, fmt, fmt, off, if h.on (R.TAP_CFG_HDR.at tap) then some (fld bs 8 8) else none, 0, tag, some b,
        k.g (R.BIND_CTL_MODE.at b), some n, k.g (R.BIND_CTL_WINDOW.at b), k.on (R.BIND_CTL_DIG.at b), false, [], k.frc⟩
      if off % 32 != 0 then k.tensorFault t else if h.on (R.TAP_CFG_HDR.at tap) then k.putTensor t else k.tensorData t bs) := by
  have h7 : ¬ fmt = 7 := by omega
  have h6 : (fmt == 6) = false := by simp; omega
  have hgo : (!h.running 0x10 || !h.on (R.TAP_CFG_EN.at tap) || fmt == 7) = false := by simp [hr, he, h7]
  simp only [Hw.tapStart, ht, hgo, hm, ho, hn, h7, h6, Bool.false_eq_true, if_false, Bool.false_and, Bool.or_false, Bool.false_or]

theorem Hw.tapBeat_clean {t : Tensor} (bs : List Nat) (ht : h.tensor tap = some t) : h.tapBeat tap t.tapFmt bs false false false = h.tensorData t bs := by
  simp [Hw.tapBeat, ht]

/-- A window that is closing, and whose accounts are done, closes them and stands closed (R235). -/
theorem Hw.windowFinish_done {w : Nat} (hc : h.on (R.WIN_STAT_CLOSING.at w) = true) (hb : h.windowBusy w = false)
    (hd : (((h.each (h.windowAccounts w) fun k n => k.closeFor (h.win w) n).s (R.WIN_STAT_CLOSING.at w) 0).inc (R.WIN_STAT_INSTANCES.at w)).on
      (R.WIN_STAT_DEFER.at w) = false) :
    h.windowFinish w = ((h.each (h.windowAccounts w) fun k n => k.closeFor (h.win w) n).s (R.WIN_STAT_CLOSING.at w) 0).inc (R.WIN_STAT_INSTANCES.at w) :=
  (if_neg (by simp [hc, hb])).trans (if_neg (by simp only [hd]; decide))

theorem Hw.windowOpen_idle {w : Nat} (hr : h.running 0x10 = true) (hc : h.on (R.WIN_STAT_CLOSING.at w) = false) (ho : h.on (R.WIN_STAT_OPEN.at w) = false) :
    h.windowOpen w none = h.windowOpenNow w none :=
  (if_neg (by simp [hr])).trans ((if_neg (by simp [hc])).trans (if_neg (by simp [ho])))

end

/-- Settles O32, command by command. -/
theorem tapCommandsDo : Obligations.TapCommandsDo := by
  refine ⟨?unbound, ?plain, ?header, ?cut, ?beat, ?beatFault, ?overflow, ?last, ?idle, ?closed, ?opens, ?closes, ?notOpen⟩
  case unbound =>
    refine fun tap fmt tag bs err full digFull hf => Does.of_go _ (fun _ => rfl) fun h ⟨hr, he, ht, hm⟩ => ?_
    have hgo : (!((h.countBeat tap err).count 2 tap 1 1).running 0x10 || !((h.countBeat tap err).count 2 tap 1 1).on (R.TAP_CFG_EN.at tap) ||
      fmt == 7) = false := by simp [hr, he, hf]
    simp only [Hw.tapStart, ht, hgo, hm, Bool.false_eq_true, if_false]
  case plain =>
    refine fun tap fmt tag bs b n hf => Does.of_go _ (fun _ => rfl) fun h ⟨hr, he, ht, hm, hh, hn, ho⟩ => ?_
    rw [Hw.tapStart_bound bs hr he ht hm hn ho hf]
    simp only [hh, Bool.false_eq_true, if_false]
    rfl
  case header =>
    refine fun tap fmt tag bs b n hf hoff => Does.of_go _ (fun _ => rfl) fun h ⟨hr, he, ht, hm, hh, hn, ho⟩ => ?_
    rw [Hw.tapStart_bound bs hr he ht hm hn ho hf]
    simp only [hh, if_true]
    exact if_neg (by simp [hoff])
  case cut =>
    refine fun tap fmt tag bs err full digFull t => Does.of_go _ (fun _ => rfl) fun h ⟨ht, hr⟩ => ?_
    simp only [Hw.tapStart, ht]
    exact if_pos (by rw [Hw.tensorFault, hr]; rfl)
  case beat => exact fun tap bs t => Does.of_go _ (fun _ => rfl) fun h ht => Hw.tapBeat_clean bs ht
  case beatFault =>
    refine fun tap fmt bs digFull t => Does.of_go _ (fun _ => rfl) fun h ht => ?_
    simp only [Hw.tapBeat, ht, Bool.true_or, if_true, Bool.false_eq_true, if_false]
    rfl
  case overflow =>
    refine fun tap fmt bs err digFull t => Does.of_go _ (fun _ => rfl) fun h ht => ?_
    simp only [Hw.tapBeat, ht, if_true]
    rfl
  case last =>
    refine fun tap bs t u => Does.of_go _ (fun _ => rfl) fun h ⟨ht, hu⟩ => ?_
    simp only [Hw.tapEnd, Hw.tapBeat_clean bs ht, hu]
  case idle =>
    refine fun tap t => Does.of_go _ (fun _ => rfl) fun h ⟨hf, ht, hl⟩ => (if_neg (by simp [hf])).trans ?_
    simp only [Hw.tapIdle, ht]
    exact if_pos hl
  case closed =>
    exact fun w hw => Does.of_go _ (fun _ => rfl) fun h ⟨hf, hc, hb, hd⟩ => (if_neg (by simp [hf])).trans ((if_pos hw).trans (Hw.windowFinish_done hc hb hd))
  case opens =>
    refine fun a w hw => Does.of_go _ (fun _ => rfl) fun h ⟨hr, hp, hc, ho⟩ => ?_
    rw [Nat.mod_eq_of_lt hw]
    exact Hw.hostWrite_ok hr (congrArg Except.ok (Hw.windowOpen_idle (h := h.reply 0) hp hc ho))
  case closes =>
    refine fun a w hw => Does.of_go _ (fun _ => rfl) fun h ⟨hr, ho⟩ => ?_
    rw [Nat.mod_eq_of_lt hw]
    exact Hw.hostWrite_ok hr (congrArg Except.ok (if_neg (by simp [ho])))
  case notOpen =>
    refine fun a w hw => Does.of_go _ (fun _ => rfl) fun h ⟨hr, ho⟩ => ?_
    rw [Nat.mod_eq_of_lt hw]
    exact Hw.hostWrite_ok hr (congrArg Except.ok (if_pos (by simp [ho])))

end Sys2Proof.Machine
end

section
/-!
Check entries (R255–R257) and the tree engine (R291–R320): what their commands come to.
-/
namespace Sys2Proof.Machine

/-! ### Check entries -/

section
variable {h : Hw}

theorem Hw.checkEnable_ok (hp : h.prof ≠ .l) (hr : h.running 0x10 = true) (he : h.on (R.CHK_CTL_EN.at (h.g R.CHK_SEL_ENTRY)) = false) :
    h.checkEnable = .ok ((h.s (R.CHK_CTL_EN.at (h.g R.CHK_SEL_ENTRY)) 1).dmaRead (h.g (R.CHK_CTX_CTX.at (h.g R.CHK_SEL_ENTRY)))
      (h.g64 (R.CHK_DEF_LO_ADDR.at (h.g R.CHK_SEL_ENTRY)) (R.CHK_DEF_HI_ADDR.at (h.g R.CHK_SEL_ENTRY)))
      (h.g (R.CHK_DEF_LEN_BYTES.at (h.g R.CHK_SEL_ENTRY))) (.check (h.g R.CHK_SEL_ENTRY))) :=
  (if_neg hp).trans ((if_neg (by simp [hr])).trans (if_neg (by simp [he])))

theorem Hw.checkDisable_loaded {e : CheckEntry} (hp : h.prof ≠ .l) (hr : h.running 0x10 = true) (he : h.checkEntry (h.g R.CHK_SEL_ENTRY) = some e)
    (hk : e.defn.kind ≠ 0) : h.checkDisable = .ok ((h.closeRounds e).dropCheck (h.g R.CHK_SEL_ENTRY)) := by
  refine (if_neg hp).trans ((if_neg (by simp [hr])).trans ?_)
  simp only [he]
  exact congrArg Except.ok (if_neg (by simp [hk]))

theorem Hw.checkDisable_refused (hp : h.prof ≠ .l) (hr : h.running 0x10 = false) : h.checkDisable = .error E.badState :=
  (if_neg hp).trans (if_pos (by simp [hr]))

/-- A record that is not a duplicate is delivered (R349). -/
theorem Hw.deliver_first {x : HeldRec} (hd : h.duplicate x.r = false) : (h.deliver x).2 = true := by
  simp [Hw.deliver, hd]

end

/-- Settles O33, command by command. -/
theorem checkCommandsDo : Obligations.CheckCommandsDo := by
  refine ⟨?enable, ?badDefinition, ?loaded, ?disable, ?disableRefused, ?arrival, ?timeout⟩
  case enable => exact fun a => Does.of_go _ (fun _ => rfl) fun h ⟨hr, hp, hrun, he⟩ => Hw.hostWrite_ok hr (Hw.checkEnable_ok (h := h.reply 0) hp hrun he)
  case badDefinition =>
    refine fun n x => Does.of_go _ (fun _ => rfl) fun h ⟨hf, hn⟩ => ?_
    simp only [hf, hn]
    rfl
  case loaded =>
    refine fun n x d => Does.of_go _ (fun _ => rfl) fun h ⟨hf, hd⟩ => ?_
    simp only [hf, hd]
  case disable =>
    exact fun a e => Does.of_go _ (fun _ => rfl) fun h ⟨hr, hp, hrun, he, hk⟩ =>
      Hw.hostWrite_ok hr (Hw.checkDisable_loaded (h := h.reply 0) hp hrun he hk)
  case disableRefused =>
    exact fun a e => Does.of_go _ (fun _ => rfl) fun h ⟨hr, hp, hrun, _⟩ => Hw.hostWrite_err hr (Hw.checkDisable_refused (h := h.reply 0) hp hrun)
  case arrival =>
    refine fun x => Does.of_go _ (fun _ => rfl) fun h ⟨hf, hd⟩ => ?_
    simp only [hf]
    exact if_neg (by simp [Hw.deliver_first hd])
  case timeout =>
    refine fun n e r => Does.of_go _ (fun _ => rfl) fun h ⟨he, hr⟩ => ?_
    simp only [he, hr]

/-! ### The tree engine -/

section
variable {h : Hw} {q : Nat} {d : DescWords}

theorem Hw.modelSwap_ok (hv : h.on (R.AGT_MS_STAT_STANDBY_VALID.at (h.g R.AGT_MSEL_SLOT)) = true) :
    h.modelSwap = .ok (h.s (R.AGT_MS_STAT_SWAP_PENDING.at (h.g R.AGT_MSEL_SLOT)) 1) := if_pos hv

theorem Hw.modelSwap_refused (hv : h.on (R.AGT_MS_STAT_STANDBY_VALID.at (h.g R.AGT_MSEL_SLOT)) = false) : h.modelSwap = .error E.badState :=
  if_neg (by simp [hv])

/-- A model is loaded into a standby that is not busy (R303). -/
theorem Hw.descMload_ok (hf : h.slotFault q (dw d 0 16 4) = none) (hn : dw d 2 0 32 ≠ 0) (hl : dw d 2 0 32 % 64 = 0) (ha : nth d 1 % 64 = 0)
    (hb : h.on (R.AGT_MS_STAT_STANDBY_BUSY.at (dw d 0 16 4)) = false) :
    h.descMload q d = ((h.putSlotState { h.slotState (dw d 0 16 4) with standby := none }).s (R.AGT_MS_STAT_STANDBY_VALID.at (dw d 0 16 4)) 0).descRead q
      (nth d 1) (dw d 2 0 32) := by
  simp only [Hw.descMload, hf]
  exact (if_neg (by simp [hn, hl, ha])).trans (if_neg (by simp [hb]))

/-- Samples without a dense page are read for a slot whose model is active (R309). -/
theorem Hw.descEval_ok (hf : h.slotFault q (dw d 0 16 4) = none) (hn : dw d 2 0 16 ≠ 0) (ha : nth d 1 % 64 = 0) (hb : nth d 3 % 64 = 0)
    (hm : dw d 2 32 32 = 0xFFFFFFFF) (hv : (h.slotState (dw d 0 16 4)).active.isSome = true) :
    h.descEval q d = h.descRead q (nth d 1) (576 * dw d 2 0 16) := by
  simp only [Hw.descEval, hf]
  exact (if_neg (by simp [hn, ha, hb, hm])).trans (if_neg (by simp [Option.isSome_iff_ne_none.1 hv]))

/-- A rule table whose enabled rules all have a legal operation is taken (R314). -/
theorem Hw.colSwap_legal (hl : ∀ r, r < 128 → bit (h.g (R.AGT_COL_A_A.at r)) 21 = true → bits (h.g (R.AGT_COL_A_A.at r)) 28 3 < 6) :
    h.colSwap = .ok (h.s R.AGT_COL_STAT_COL_PENDING 1) := by
  refine if_neg ?_
  rw [List.any_eq_true]
  rintro ⟨r, hr, hbad⟩
  simp only [Bool.and_eq_true, decide_eq_true_eq] at hbad
  exact absurd (hl r (List.mem_range.1 hr) hbad.1) (by omega)

end

/-- Settles O34, command by command. -/
theorem agateCommandsDo : Obligations.AgateCommandsDo := by
  refine ⟨?boundary, ?boundaryOff, ?dispatch, ?result, ?mload, ?eload, ?eval, ?modelSwap, ?modelSwapRefused, ?colSwap, ?rulesTake, ?modelTakes⟩
  case boundary =>
    refine fun b rest => Does.of_go _ (fun _ => rfl) fun h ⟨hw, hb⟩ => (if_neg (by simp [hw])).trans ?_
    simp only [hb]
    rfl
  case boundaryOff => exact Does.of_go _ (fun _ => rfl) fun h hw => if_pos (by simp [hw])
  case dispatch =>
    refine fun x l => Does.of_go _ (fun _ => rfl) fun h ⟨hw, hx, hl⟩ => (if_neg (by simp [hw])).trans ?_
    simp only [hx, hl]
  case result =>
    refine fun ser x => Does.of_go _ (fun _ => rfl) fun h ⟨hw, hx⟩ => (if_neg (by simp [hw])).trans ?_
    simp only [hx]
  case mload =>
    exact fun q d => Does.of_go _ (fun _ => rfl) fun h ⟨hs, hf, hn, hl, ha, hb⟩ => (Hw.withDesc_starts hs _).trans (Hw.descMload_ok hf hn hl ha hb)
  case eload =>
    exact fun q d => Does.of_go _ (fun _ => rfl) fun h ⟨hs, hn, hl⟩ => (Hw.withDesc_starts hs _).trans (if_neg (by omega))
  case eval =>
    refine fun q d r => Does.of_go _ (fun _ => rfl) fun h ⟨hr, hj, hs, hf, hn, ha, hb, hm, hv⟩ => ?_
    simp only [hr]
    exact (if_neg (by simp [hj])).trans ((Hw.withDesc_starts hs _).trans (Hw.descEval_ok hf hn ha hb hm hv))
  case modelSwap => exact fun a => Does.of_go _ (fun _ => rfl) fun h ⟨hr, hv⟩ => Hw.operWrite_ok hr (Hw.modelSwap_ok (h := h.reply 0) hv)
  case modelSwapRefused => exact fun a => Does.of_go _ (fun _ => rfl) fun h ⟨hr, hv⟩ => Hw.operWrite_err hr (Hw.modelSwap_refused (h := h.reply 0) hv)
  case colSwap => exact fun a => Does.of_go _ (fun _ => rfl) fun h ⟨hr, hl⟩ => Hw.operWrite_ok hr (Hw.colSwap_legal (h := h.reply 0) hl)
  case rulesTake =>
    refine Does.of_go _ (fun _ => rfl) fun h ⟨hf, hb, hs, hp⟩ => (if_neg (by simp [hf])).trans ?_
    have hnone : ((List.range h.slotCount).filter fun s => h.on (R.AGT_MS_STAT_SWAP_PENDING.at s) &&
        !(h.agt.bounds.any fun b => h.slotTakes s b.ent.key b.frameNo)) = [] := by
      rw [List.filter_eq_nil_iff] at hs ⊢
      intro s hmem
      simp [hs s hmem]
    simp only [hnone]
    exact if_pos (by simp [Hw.each, hp, hb])
  case modelTakes =>
    refine fun s => Does.of_go _ (fun _ => rfl) fun h ⟨hf, hs, hp⟩ => (if_neg (by simp [hf])).trans ?_
    simp only [hs]
    exact if_neg (by simp [Hw.each, hp])

end Sys2Proof.Machine
end

section
/-!
The descriptors of the sketch array, the dense-layer engine and the digest engine (R227, R237, R241–R248, R273), and the macros (R243–R249).
-/
namespace Sys2Proof.Machine

/-! ### Descriptors whose operands stand -/

section
variable {h : Hw} {q : Nat} {d : DescWords} {r : EntryRun}

theorem Hw.descOpen_free (hk : h.kLogOk (dw d 0 26 4) = true) (hn : dw d 0 16 10 < h.accountCount) (ho : h.accOpen (dw d 0 16 10) = false) :
    h.descOpen q d = (h.openAccount (dw d 0 16 10) (h.qCtx q) 1 (dw d 0 26 4) (dw d 2 0 16) (nth d 1) 0xFF 0).descDone q :=
  (if_neg (by simp [hk]; omega)).trans (if_neg (by simp [ho]))

theorem Hw.descOpen_taken (hk : h.kLogOk (dw d 0 26 4) = true) (hn : dw d 0 16 10 < h.accountCount) (ho : h.accOpen (dw d 0 16 10) = true) :
    h.descOpen q d = h.descFail q E.badState :=
  (if_neg (by simp [hk]; omega)).trans (if_pos ho)

theorem Hw.descLoad_ok {a : Nat} (ha : h.opbAddr (h.qCtx q) (dw d 2 32 32) (dw d 2 0 32) = some a) (hn : dw d 2 0 32 ≠ 0) (ho : dw d 2 32 32 % 64 = 0)
    (hr : h.started q = some r) : h.descLoad q d = h.dmaRead (h.qCtx q) (nth d 1) (dw d 2 0 32) (.payload q r.index) := by
  simp only [Hw.descLoad, ha, hr]
  exact if_neg (by simp [hn, ho])

theorem Hw.descProject_ok {bs : List Nat} (hf : dw d 0 26 3 ≤ 5) (hn : dw d 0 16 10 < h.accountCount) (hc : dw d 2 0 32 ≠ 0) (ho : nth d 1 % 32 = 0)
    (hown : h.ownAccount q (dw d 0 16 10) = true)
    (hb : (h.operand (h.qCtx q) (dw d 2 32 32) (fmtBytes (dw d 0 26 3) (dw d 2 0 32)) (bit (nth d 0) 29)).2 = .ok bs) :
    h.descProject q d =
      (((h.operand (h.qCtx q) (dw d 2 32 32) (fmtBytes (dw d 0 26 3) (dw d 2 0 32)) (bit (nth d 0) 29)).1.feed (dw d 0 16 10) (dw d 0 26 3) (nth d 1)
        ((fmtVals (dw d 0 26 3) bs).take (dw d 2 0 32))).inc (R.ACC_TENSORS_COUNT.at (dw d 0 16 10))).descDone q := by
  refine (if_neg (by omega)).trans ((if_neg (by simp [hown])).trans ?_)
  simp only [hb]

/-- A close to the record (DST 0) closes the account and is done. -/
theorem Hw.descClose_record (hdst : dw d 0 26 2 = 0) (hn : dw d 0 16 10 < h.accountCount) (hown : h.ownAccount q (dw d 0 16 10) = true) :
    h.descClose q d = (h.closeAccount (dw d 0 16 10) true h.stampOwn).descDone q := by
  refine (if_neg (by omega)).trans ((if_neg (by simp [hown])).trans ((if_pos hdst).trans ?_))
  rw [hdst]
  rfl

/-- A close to memory (DST 1) writes the sketch and leaves the record out. -/
theorem Hw.descClose_memory (hdst : dw d 0 26 2 = 1) (hn : dw d 0 16 10 < h.accountCount) (ha : nth d 1 % 64 = 0)
    (hown : h.ownAccount q (dw d 0 16 10) = true) (hr : (h.closeAccount (dw d 0 16 10) false h.stampOwn).started q = some r) :
    h.descClose q d =
      (let a := h.account (dw d 0 16 10)
      let k := h.closeAccount (dw d 0 16 10) false h.stampOwn
      k.dmaWrite (k.qCtx q) (nth d 1) (h.sketchPart a h.frc 0 a.acc.length true) (.payload q r.index)) := by
  refine (if_neg (by omega)).trans ((if_neg (by simp [hown])).trans ((if_neg (by omega)).trans ?_))
  have hno : (dw d 0 26 2 != 1) = false := by simp [hdst]
  simp only [hno, hr]

theorem Hw.descWload_ok (hn : dw d 2 16 16 ≠ 0) (hown : h.denseOwn (h.qCtx q) (dw d 2 0 16) (dw d 2 16 16) = true)
    (hfit : dw d 2 0 16 + dw d 2 16 16 ≤ h.densePages) (hr : h.started q = some r) :
    h.descWload q d = h.dmaRead (h.qCtx q) (nth d 1) (dw d 2 16 16 * densePageBytes) (.payload q r.index) := by
  refine (if_neg hn).trans ((if_neg (by simp [hown])).trans ((if_neg (by omega)).trans ?_))
  simp only [hr]

theorem Hw.descStore_ok {a : Nat} (ha : h.opbAddr (h.qCtx q) (dw d 2 32 32) (dw d 2 0 32) = some a) (hr : h.started q = some r) (hn : dw d 2 0 32 ≠ 0) :
    h.descStore q d = h.dmaWrite (h.qCtx q) (nth d 1) (h.opbRead a (dw d 2 0 32)) (.payload q r.index) := by
  simp only [Hw.descStore, ha, hr]
  exact if_neg hn

theorem Hw.descHash_ok (hdst : dw d 0 16 2 ≠ 3) (hn : dw d 2 0 40 ≠ 0) (ha : dw d 0 16 2 ≠ 0 → nth d 3 % 32 = 0) (hr : h.started q = some r) :
    h.descHash q d = h.dmaRead (h.qCtx q) (nth d 1) (dw d 2 0 40) (.payload q r.index) := by
  refine (if_neg ?_).trans ?_
  · rintro (h3 | h0 | ⟨hne, hbad⟩)
    · exact hdst h3
    · exact hn h0
    · exact hbad (ha hne)
  · simp only [hr]

end

/-- Settles O35, command by command. -/
theorem garnetDescriptorsDo : Obligations.GarnetDescriptorsDo := by
  refine ⟨?opens, ?openTaken, ?load, ?project, ?closeRecord, ?closeMemory, ?wload, ?layer, ?store, ?hash⟩
  case opens => exact fun q d => Does.of_go _ (fun _ => rfl) fun h ⟨hs, hk, hn, ho⟩ => (Hw.withDesc_starts hs _).trans (Hw.descOpen_free hk hn ho)
  case openTaken => exact fun q d => Does.of_go _ (fun _ => rfl) fun h ⟨hs, hk, hn, ho⟩ => (Hw.withDesc_starts hs _).trans (Hw.descOpen_taken hk hn ho)
  case load =>
    refine fun q d a r => Does.of_go _ (fun _ => rfl) fun h ⟨he, hs, ha, hn, ho, hr⟩ => ?_
    rw [if_neg (by omega)]
    exact (Hw.withDesc_starts hs _).trans (Hw.descLoad_ok ha hn ho hr)
  case project =>
    exact fun q d bs => Does.of_go _ (fun _ => rfl) fun h ⟨hs, hf, hn, hc, ho, hown, hb⟩ =>
      (Hw.withDesc_starts hs _).trans (Hw.descProject_ok hf hn hc ho hown hb)
  case closeRecord =>
    exact fun q d => Does.of_go _ (fun _ => rfl) fun h ⟨hs, hdst, hn, hown⟩ => (Hw.withDesc_starts hs _).trans (Hw.descClose_record hdst hn hown)
  case closeMemory =>
    exact fun q d r => Does.of_go _ (fun _ => rfl) fun h ⟨hs, hdst, hn, ha, hown, hr⟩ =>
      (Hw.withDesc_starts hs _).trans (Hw.descClose_memory hdst hn ha hown hr)
  case wload =>
    exact fun q d r => Does.of_go _ (fun _ => rfl) fun h ⟨hs, hn, hown, hfit, hr⟩ => (Hw.withDesc_starts hs _).trans (Hw.descWload_ok hn hown hfit hr)
  case layer =>
    refine fun q d ba oa bs => Does.of_go _ (fun _ => rfl) fun h ⟨hs, hi0, hi, ho0, ho, hrange, hown, hfit, hba, hoa, hbs⟩ =>
      (Hw.withDesc_starts hs _).trans ?_
    refine (if_neg (by omega)).trans ((if_neg (by simp [hown])).trans ((if_neg (by omega)).trans ?_))
    -- Built as a module of its own, the statement's `match` on the started entry and the model's are two matchers: `rfl` closes what is left there.
    simp only [hba, hoa, hbs] <;> rfl
  case store => exact fun q d a r => Does.of_go _ (fun _ => rfl) fun h ⟨hs, ha, hr, hn⟩ => (Hw.withDesc_starts hs _).trans (Hw.descStore_ok ha hr hn)
  case hash =>
    exact fun q d r => Does.of_go _ (fun _ => rfl) fun h ⟨hs, hdst, hn, ha, hr⟩ => (Hw.withDesc_starts hs _).trans (Hw.descHash_ok hdst hn ha hr)

/-! ### Macros -/

section
variable {h : Hw} {m : Nat} (hr : h.running 0x10 = true) (hret : h.retired m = false) (hm : m < h.physMacros)
  (hk : h.on R.SAF_CFG_GAR_KAT_DIS = false)
include hr hret hm hk

/-- A macro that fails its test, with macros left in the round (R249). -/
theorem Hw.testSlot_fails
    (hnext : ((List.range ((h.diagRun 4).katFailed false m).physMacros).filter fun x => m < x && !((h.diagRun 4).katFailed false m).retired x) ≠ []) :
    h.testSlot m false = (h.diagRun 4).katFailed false m :=
  (if_neg (by simp [hr, hret, hk]; omega)).trans (if_neg (by simpa using hnext))

/-- The last macro of a round that passes: the spare takes its role, and it becomes the spare (R249). -/
theorem Hw.testSlot_swaps {t : Nat} (hrole : h.gar.pools.getD m 4 ≠ 3) (hspare : ((h.diagRun 4).katPassed m).lastInRole 3 = some t)
    (hlast : ((List.range (((((h.diagRun 4).katPassed m).setRole t (h.gar.pools.getD m 4)).setRole m 3).replaceDense m t).physMacros).filter fun x =>
      m < x && !(((((h.diagRun 4).katPassed m).setRole t (h.gar.pools.getD m 4)).setRole m 3).replaceDense m t).retired x) = []) :
    h.testSlot m true = (((((h.diagRun 4).katPassed m).setRole t (h.gar.pools.getD m 4)).setRole m 3).replaceDense m t).inc R.GAR_ROT_ROUNDS := by
  refine (if_neg (by simp [hr, hret, hk]; omega)).trans ?_
  simp only [if_true, if_neg hrole, hspare, hlast]
  rfl

end

/-- Settles O36, command by command. -/
theorem macroCommandsDo : Obligations.MacroCommandsDo := by
  refine ⟨?retire, ?retireRefused, ?ecc, ?fails, ?swaps⟩
  case retire => exact fun a m => Does.of_go _ (fun _ => rfl) fun h ⟨hr, hm⟩ => Hw.operWrite_ok hr (if_neg (by show ¬ h.physMacros ≤ m; omega))
  case retireRefused => exact fun a m => Does.of_go _ (fun _ => rfl) fun h ⟨hr, hm⟩ => Hw.operWrite_err hr (if_pos hm)
  case ecc => exact fun m => Does.of_go _ (fun _ => rfl) fun h hg => if_pos hg
  case fails => exact fun m => Does.of_go _ (fun _ => rfl) fun h ⟨hr, hret, hm, hk, hnext⟩ => Hw.testSlot_fails hr hret hm hk hnext
  case swaps =>
    exact fun m t => Does.of_go _ (fun _ => rfl) fun h ⟨hr, hret, hm, hk, hrole, _, hspare, hlast⟩ =>
      Hw.testSlot_swaps hr hret hm hk hrole hspare hlast

end Sys2Proof.Machine
end

section
/-!
The frames and time-outs of a link (R324–R328, R340–R344, R362, R371): what they come to.
-/
namespace Sys2Proof.Machine

/-! ### CUL_PORT_CTL.INSVC (R371) -/

section
variable {h : Hw} {p v : Nat}

theorem Hw.insvcWrite_out (hp : p < h.culverts) (hv : v % 2 = 0) :
    h.insvcWrite p v =
      .ok ((((((h.linkDown p).endSession p).s (R.CUL_PORT_CTL_INSVC.at p) 0).onLink p fun k => { k with phy := false }).showLink p).showNeed) :=
  (if_neg (by omega)).trans (if_pos hv)

theorem Hw.insvcWrite_absent (hp : p < h.culverts) (hv : v % 2 = 1) (ha : h.absent (0x8000 + p) = true) :
    h.insvcWrite p v = .error (E.held (0x8000 + p)) :=
  (if_neg (by omega)).trans ((if_neg (by omega)).trans (if_pos ha))

theorem Hw.insvcWrite_off (hp : p < h.culverts) (hv : v % 2 = 1) (ha : h.absent (0x8000 + p) = false) (ho : h.off 0x2C = true) :
    h.insvcWrite p v = .ok (h.s (R.CUL_PORT_CTL_INSVC.at p) 1) :=
  (if_neg (by omega)).trans ((if_neg (by omega)).trans ((if_neg (by simp [ha])).trans (if_pos ho)))

theorem Hw.insvcWrite_claims {k : Hw} (hp : p < h.culverts) (hv : v % 2 = 1) (ha : h.absent (0x8000 + p) = false) (ho : h.off 0x2C = false)
    (hneed : h.resvNeed (p :: h.culsIn.filter (· != p)) (if h.off 0x28 then [] else h.fabsIn) ≤ h.g R.FLW_RESV_AVAIL)
    (hk : h.claim 0x2C [0x8000 + p] 0 = .ok k) :
    h.insvcWrite p v =
      .ok ((((k.s (R.CUL_PORT_CTL_INSVC.at p) 1).liveUpdate 5 p (k.g (R.CUL_LAT_TX.at p) + 2 ^ 16 * k.g (R.CUL_LAT_RX.at p)) 0).showLink p).showNeed) := by
  refine (if_neg (by omega)).trans ((if_neg (by omega)).trans ((if_neg (by simp [ha])).trans ((if_neg (by simp [ho])).trans ((if_neg (by omega)).trans ?_))))
  simp only [hk]

/-- A write whose resource is held leaves the claim's failure in the page's header (R89). -/
theorem Hw.operWrite_held {a : Acc} {off r : Nat} {f : Hw → Tried} (hr : h.Reach a p off) (e : f (h.reply 0) = .error (E.held r)) :
    h.operWrite a p off f = (h.reply 0).claimFail p r := by
  refine (Hw.operAccess_reach hr).trans ?_
  rw [e]
  refine (if_neg (by unfold E.held; omega)).trans ?_
  rw [E.held, Nat.add_sub_cancel_left]

end

/-- No record held is kept back for a hop that keeps none. -/
theorem filter_keptBy_nil {l : List HeldRec} {p : Nat} (hl : ∀ x ∈ l, x.keptBy ≠ some p) (old : HeldRec → Bool) :
    (l.filter fun x => x.keptBy == some p && old x) = [] := by
  rw [List.filter_eq_nil_iff]
  intro x hx
  simp [hl x hx]

/-- Settles O37, command by command. That PHY_RDY is ignored while the PHY is in reset is log entry 144, and the reason of a leaf's drops while
it has lost its homes log entry 46. -/
theorem linkCommandsDo : Obligations.LinkCommandsDo := by
  refine ⟨?helloFabric, ?helloCulvert, ?helloBad, ?helloConflict, ?helloUp, ?keepaliveTx, ?keepaliveRx, ?ackTx, ?ackRx, ?crc, ?align, ?phyDown, ?phyRise,
    ?phyReset, ?rxTimeout, ?fabricTimeout, ?failback, ?windowNone, ?windowOne, ?windowLost, ?longFrame, ?longHeld, ?insvcOut, ?insvcAbsent, ?insvcOff, ?insvc⟩
  case helloFabric =>
    refine fun p => Does.of_go _ (fun _ => rfl) fun h ⟨hi, hc, ht⟩ => if_pos ?_
    simpa [hi, hc] using ht
  case helloCulvert => exact fun p => Does.of_go _ (fun _ => rfl) fun h ⟨hi, hc, hu, ht⟩ => if_pos (by simp [hi, hc, hu, ht])
  case helloBad =>
    exact fun p bs f => Does.of_go _ (fun _ => rfl) fun h ⟨hh, hb⟩ => (Hw.receive_hears hh _).trans (if_pos (by simp [hb]))
  case helloConflict =>
    exact fun p bs f hb => Does.of_go _ (fun _ => rfl) fun h ⟨hh, hc, hid⟩ =>
      (Hw.receive_hears hh _).trans ((if_neg (by simp [hb])).trans (if_pos ⟨by simp [hc], hid⟩))
  case helloUp =>
    refine fun p bs f hb hl => Does.of_go _ (fun _ => rfl) fun h ⟨hh, hc, hp, hu⟩ =>
      (Hw.receive_hears hh _).trans ((if_neg (by simp [hb])).trans ((if_neg (by simp [hc])).trans ?_))
    simp only [hl, hc, hp, hu, Nat.lt_irrefl, Bool.not_true, Bool.not_false, Bool.false_and, Bool.false_eq_true, if_false, if_true, false_and, and_false]
  case keepaliveTx => exact fun p => Does.of_go _ (fun _ => rfl) fun h ⟨hu, ht⟩ => if_pos (by simpa [hu] using ht)
  case keepaliveRx => exact fun p bs f hl => Does.of_go _ (fun _ => rfl) fun h hh => (Hw.receive_hears hh _).trans (if_pos hl)
  case ackTx => exact fun p => Does.of_go _ (fun _ => rfl) fun h ⟨hc, hu, hd, ht, hb⟩ => if_pos (by simp [hc, hu, hd, ht, hb])
  case ackRx => exact fun p bs f hl => Does.of_go _ (fun _ => rfl) fun h hh => (Hw.receive_hears hh _).trans (if_pos hl)
  case crc => exact fun p => Does.of_go _ (fun _ => rfl) fun h ⟨hc, hi, hp⟩ => if_pos (by simp [hc, hi, hp])
  case align => exact fun p lane hl => Does.of_go _ (fun _ => rfl) fun h ⟨hc, hi⟩ => if_pos (by simp [hc, hi, hl])
  case phyDown => exact fun p => Does.of_go _ (fun _ => rfl) fun h ⟨hc, hp⟩ => if_pos (by simp [hc, hp])
  case phyRise => exact fun p => Does.of_go _ (fun _ => rfl) fun h ⟨hc, hp, ha, hr⟩ => if_pos (by simp [hc, hp, ha, hr])
  case phyReset => exact fun p => Does.of_go _ (fun _ => rfl) fun h hr => if_neg (by simp [hr])
  case rxTimeout => exact fun p => Does.of_go _ (fun _ => rfl) fun h ⟨hc, hu, ht⟩ => if_pos (by simp [hc, hu, ht])
  case fabricTimeout => exact fun p => Does.of_go _ (fun _ => rfl) fun h ⟨hc, hu, ht⟩ => if_pos (by simp [hc, hu, ht])
  case failback => exact Does.of_go _ (fun _ => rfl) fun h ⟨hp, ha, hr, hu, ht⟩ => if_pos ⟨hp, ha, by simp [hr], hu, ht⟩
  case windowNone =>
    refine Does.of_go _ (fun _ => rfl) fun h ⟨hp, hl, hyoung⟩ => (if_neg (by simp [hp])).trans (if_pos ?_)
    simp only [hl, List.flatMap_nil, List.isEmpty_nil, Bool.true_and, List.isEmpty_iff, List.filter_eq_nil_iff]
    intro x hx
    cases hf : x.firstSent with
    | none => simp
    | some f => simpa using hyoung x hx f hf
  case windowOne =>
    refine fun x f hf => Does.of_go _ (fun _ => rfl) fun h ⟨hp, hl, hh, ht, hhome⟩ => (if_neg (by simp [hp])).trans ?_
    simp only [hl, hh, hhome, hf, ht, List.flatMap_nil, List.filter_cons, decide_true, if_true]
    rfl
  case windowLost =>
    refine fun x f hf => Does.of_go _ (fun _ => rfl) fun h ⟨hp, hl, hh, ht, hhome⟩ => (if_neg (by simp [hp])).trans ?_
    simp only [hl, hh, hhome, hf, ht, List.flatMap_nil, List.filter_cons, decide_true, if_true]
    rfl
  case longFrame =>
    refine fun p t x f hf hx => Does.of_go _ (fun _ => rfl) fun h ⟨hl, hret, hheld, ht⟩ => (if_neg (by simp [hl])).trans ?_
    simp only [hret, hx, hf, ht, filter_keptBy_nil hheld, List.filter_nil, List.filter_cons, List.any_cons, decide_true, Bool.true_or, if_true]
    rfl
  case longHeld =>
    refine fun p x f hf hk => Does.of_go _ (fun _ => rfl) fun h ⟨hl, hret, hheld, ht⟩ => (if_neg (by simp [hl])).trans ?_
    simp only [hret, hheld, hf, hk, ht, List.filter_nil, List.filter_cons, decide_true, beq_self_eq_true, Bool.and_self, if_true]
    rfl
  case insvcOut =>
    exact fun a v => Does.of_go _ (fun _ => rfl) fun h ⟨hr, hp, hv⟩ => Hw.operWrite_ok hr (Hw.insvcWrite_out (h := h.reply 0) hp hv)
  case insvcAbsent =>
    exact fun a v => Does.of_go _ (fun _ => rfl) fun h ⟨hr, hp, hv, ha⟩ => Hw.operWrite_held hr (Hw.insvcWrite_absent (h := h.reply 0) hp hv ha)
  case insvcOff =>
    exact fun a v => Does.of_go _ (fun _ => rfl) fun h ⟨hr, hp, hv, ha, ho⟩ => Hw.operWrite_ok hr (Hw.insvcWrite_off (h := h.reply 0) hp hv ha ho)
  case insvc =>
    exact fun a v k => Does.of_go _ (fun _ => rfl) fun h ⟨hr, hp, hv, ha, ho, hneed, hk⟩ =>
      Hw.operWrite_ok hr (Hw.insvcWrite_claims (h := h.reply 0) hp hv ha ho hneed hk)

end Sys2Proof.Machine
end

section
/-!
Link sessions (R519, R526), and the claim, the database and the frames of the fabric (R22, R325–R339): what their commands come to.
-/
namespace Sys2Proof.Machine

/-! ### Sessions -/

/-- Settles O38, command by command. -/
theorem sessionCommandsDo : Obligations.SessionCommandsDo := by
  refine ⟨?retry, ?rekeyTimer, ?rekey, ?erase, ?expiry, ?reseed⟩
  case retry =>
    refine fun p t => Does.of_go _ (fun _ => rfl) fun h ⟨hr, ht⟩ => ?_
    simp only [hr]
    exact if_pos ht
  case rekeyTimer => exact fun p => Does.of_go _ (fun _ => rfl) fun h ⟨hu, hs, hl, ht⟩ => if_pos (by simp [hu, hs, hl, ht])
  case rekey => exact fun a => Does.of_go _ (fun _ => rfl) fun h hr => Hw.operWrite_ok hr rfl
  case erase =>
    refine fun p t => Does.of_go _ (fun _ => rfl) fun h ⟨hf, ht⟩ => ?_
    simp only [hf]
    exact if_pos ht
  case expiry => exact fun p => Does.of_go _ (fun _ => rfl) fun h ⟨hu, ht⟩ => if_pos (by simp [hu, ht])
  case reseed => exact Does.of_go _ (fun _ => rfl) fun h ⟨hc, ht, hn⟩ => if_pos (by simpa [hc, hn] using ht)

/-! ### The fabric -/

section
variable {h : Hw}

/-- A frame out of its class's order is not accepted, and its acknowledgement is due (R325). -/
theorem Hw.acceptRel_other {p : Nat} {f : Frame} (hf : f.hseq ≠ nth (h.link p).rxNext f.cls) :
    (h.acceptRel p f 0 0) = (h.putLink { h.link p with ackDue := true }, false) :=
  if_pos hf

end

/-- Settles O39, command by command. -/
theorem fabricCommandsDo : Obligations.FabricCommandsDo := by
  refine ⟨?join, ?hold, ?refresh, ?lsa, ?lsaOther, ?age, ?routes, ?register, ?retryFirst, ?retryStandby, ?data, ?dataOver, ?dataDrains, ?homes⟩
  case join => exact Does.of_go _ (fun _ => rfl) fun h ⟨hr, ht, hs, hl, hj⟩ => if_pos (by simp [hr, ht, hs, hl, hj])
  case hold => exact Does.of_go _ (fun _ => rfl) fun h ⟨hr, hs, ht⟩ => if_pos (by simp [hr, hs, ht])
  case refresh => exact Does.of_go _ (fun _ => rfl) fun h ⟨hr, hs, ht⟩ => if_pos (by simpa [hr, hs] using ht)
  case lsa =>
    refine fun p bs f l => Does.of_go _ (fun _ => rfl) fun h ⟨hh, hl, hf, hp, hr⟩ => (Hw.receive_hears hh _).trans ?_
    simp only [hl]
    exact if_pos (by simp [Hw.acceptRel_next hf, hp, hr])
  case lsaOther =>
    refine fun p bs f l => Does.of_go _ (fun _ => rfl) fun h ⟨hh, hl, hf⟩ => (Hw.receive_hears hh _).trans ?_
    simp only [hl, Hw.acceptRel_other hf, Bool.false_and, Bool.false_eq_true, if_false]
  case age =>
    refine Does.of_go _ (fun _ => rfl) fun h ⟨hf, x, hx, hne, hold⟩ => (if_neg (by simp [hf])).trans (if_pos ?_)
    refine lt_of_le_of_ne (List.length_filter_le _ _) fun he => ?_
    have := List.length_filter_eq_length_iff.1 he x hx
    simp [hne] at this
    omega
  case routes => exact Does.of_go _ (fun _ => rfl) fun h ⟨hr, hd⟩ => if_neg (by simp [hr, hd])
  case register =>
    refine fun p bs f => Does.of_go _ (fun _ => rfl) fun h ⟨hh, hc, hk, hf⟩ => (Hw.receive_hears hh _).trans ((if_neg (by simp [hc, hk])).trans ?_)
    exact if_pos (Hw.acceptRel_next hf 0 0)
  case retryFirst =>
    exact Does.of_go _ (fun _ => rfl) fun h ⟨ht, hp, hu, hr⟩ =>
      (if_neg (by omega)).trans ((if_neg (by simp [hr])).trans (if_pos ⟨hp, hu, by simp [hr]⟩))
  case retryStandby =>
    exact Does.of_go _ (fun _ => rfl) fun h ⟨ht, hp, hu, hr, hs⟩ =>
      (if_neg (by omega)).trans ((if_pos (by simp [hr, hs])).trans (if_pos ⟨hp, hu, hr⟩))
  case data =>
    exact fun p dei bs f => Does.of_go _ (fun _ => rfl) fun h ⟨hh, hp, hne, hd, hf, hw, hres⟩ => (Hw.receive_hears hh _).trans
      ((if_neg (by simp [hp, hne])).trans ((if_neg (by simp [hd])).trans ((if_neg (by simp [hf])).trans ((if_neg (by omega)).trans
        (if_neg (by simp [hres]))))))
  case dataOver =>
    exact fun p dei bs f => Does.of_go _ (fun _ => rfl) fun h ⟨hh, hp, hne, hd, hf, hw⟩ => (Hw.receive_hears hh _).trans
      ((if_neg (by simp [hp, hne])).trans ((if_neg (by simp [hd])).trans ((if_neg (by simp [hf])).trans (if_pos hw))))
  case dataDrains =>
    exact fun p dei bs f => Does.of_go _ (fun _ => rfl) fun h ⟨hh, hp, hne, hd⟩ => (Hw.receive_hears hh _).trans
      ((if_neg (by simp [hp, hne])).trans (if_pos hd))
  case homes =>
    refine fun p => Does.of_go _ (fun _ => rfl) fun h ⟨hp, hlt, hreg, hu, ht, hun, hex⟩ => (if_neg ?_).trans ?_
    · simpa [hp, hreg, hu, Nat.not_le.2 hlt, Nat.not_lt.2 ht] using hun
    simp only [hex]
    rfl

end Sys2Proof.Machine
end

section
/-!
Reductions (R346–R349) and launches (R351–R356): what their commands and messages come to.
-/
namespace Sys2Proof.Machine

/-! ### Reductions -/

section
variable {h : Hw} {v : Nat} (hn : h.g R.RED_SEL_GROUP < h.checkGroup 0) (hr : h.running 0x24 = true)
include hn hr

theorem Hw.redLoad_on (hv : v % 2 = 1) (he : h.on (R.RED_CTL_EN.at (h.g R.RED_SEL_GROUP)) = false) :
    h.redLoad v = .ok ((h.s (R.RED_CTL_EN.at (h.g R.RED_SEL_GROUP)) 1).dmaRead (h.g (R.RED_CTX_CTX.at (h.g R.RED_SEL_GROUP)))
      (h.g64 (R.RED_DEF_LO_ADDR.at (h.g R.RED_SEL_GROUP)) (R.RED_DEF_HI_ADDR.at (h.g R.RED_SEL_GROUP)))
      (h.g (R.RED_DEF_LEN_BYTES.at (h.g R.RED_SEL_GROUP))) (.group (h.g R.RED_SEL_GROUP))) :=
  (if_neg (by omega)).trans ((if_neg (by simp [hr])).trans ((if_pos hv).trans (if_neg (by simp [he]))))

theorem Hw.redLoad_off (hv : v % 2 = 0) (he : h.on (R.RED_CTL_EN.at (h.g R.RED_SEL_GROUP)) = true) :
    h.redLoad v = .ok (((h.s (R.RED_CTL_EN.at (h.g R.RED_SEL_GROUP)) 0).removeGroup (h.g R.RED_SEL_GROUP)).floodRemoval (h.g R.RED_SEL_GROUP)) :=
  (if_neg (by omega)).trans ((if_neg (by simp [hr])).trans ((if_neg (by omega)).trans (if_neg (by simp [he]))))

end

theorem Hw.redWorks_of {h : Hw} (hs : h.state 0x24 = 2 ∨ h.state 0x24 = 3 ∨ h.state 0x24 = 6) : h.redWorks = true := by
  rcases hs with hs | hs | hs <;> simp [Hw.redWorks, hs]

/-- Settles O40, command by command. -/
theorem reductionCommandsDo : Obligations.ReductionCommandsDo := by
  refine ⟨?load, ?unload, ?groupDef, ?member, ?memberAgain, ?partialRec, ?partialTimeout, ?roundTimeout⟩
  case load => exact fun a v => Does.of_go _ (fun _ => rfl) fun h ⟨hr, hn, hp, hv, he⟩ => Hw.hostWrite_ok hr (Hw.redLoad_on (h := h.reply 0) hn hp hv he)
  case unload => exact fun a v => Does.of_go _ (fun _ => rfl) fun h ⟨hr, hn, hp, hv, he⟩ => Hw.hostWrite_ok hr (Hw.redLoad_off (h := h.reply 0) hn hp hv he)
  case groupDef =>
    exact fun p bs f => Does.of_go _ (fun _ => rfl) fun h ⟨hh, hok, hf, hp⟩ =>
      (Hw.receive_hears hh _).trans ((if_neg (by simp [hok])).trans (if_pos (by simp [Hw.acceptRel_next hf, hp])))
  case member =>
    refine fun x => Does.of_go _ (fun _ => rfl) fun h ⟨hf, hc, hd⟩ => ?_
    simp only [hf]
    exact (if_pos hc).trans (if_neg (by simp [hd]))
  case memberAgain =>
    refine fun x => Does.of_go _ (fun _ => rfl) fun h ⟨hf, hc, hd⟩ => ?_
    simp only [hf]
    exact (if_pos hc).trans (if_pos hd)
  case partialRec =>
    refine fun x => Does.of_go _ (fun _ => rfl) fun h ⟨hf, hc, ht, hd, hk⟩ => ?_
    simp only [hf]
    exact (if_neg (by simp [hc])).trans ((if_neg (by simp [Hw.deliver_first hd, hk])).trans (if_neg (by simp [ht])))
  case partialTimeout => exact Does.of_go _ (fun _ => rfl) fun h hs => if_pos (Hw.redWorks_of hs)
  case roundTimeout => exact Does.of_go _ (fun _ => rfl) fun h hs => if_pos (Hw.redWorks_of hs)

/-! ### The commands of a launch -/

section
variable {h : Hw} {l : Launch}

theorem Hw.launchArm_ok (hr : h.running 0x28 = true) (hid : h.g R.FAB_ID_STATE = 2)
    (hns : h.ns + 2000000 + 2 * h.launchH ≤ h.g (R.FAB_LAUNCH_NT_NT.at 0) + 2 ^ 32 * h.g (R.FAB_LAUNCH_NT_NT.at 1))
    (hs0 : 0 < h.g R.FAB_LAUNCH_SIZE_SIZE) (hs : h.g R.FAB_LAUNCH_SIZE_SIZE ≤ 262144) (hfree : ∀ l, h.fab.launch = some l → l.decision ≠ 0) :
    h.launchArm =
      (let ns := h.g (R.FAB_LAUNCH_NT_NT.at 0) + 2 ^ 32 * h.g (R.FAB_LAUNCH_NT_NT.at 1)
      let l : Launch := ⟨h.g R.FAB_LAUNCH_JOB_JOB, ns, h.g R.FAB_LAUNCH_SIZE_SIZE, h.nodeId, 0, 0, [], h.launchH⟩
      let k := { h with fab := { h.fab with launch := some l, seenMsgs := h.fab.seenMsgs.filter fun x => x.2 % 2 ^ 32 != l.job } }
      let k := ((k.showLaunch l 1 0).s R.FAB_LAUNCH_COUNT_COUNT 0).raise 0x28 19
      .ok (k.spread l (launchMsg l 0 0 0)).showBackup) := by
  refine (if_neg (by simp [hr, hid])).trans (if_neg ?_)
  rintro (hlate | hzero | hmany | harmed)
  · omega
  · omega
  · omega
  · cases hl : h.fab.launch with
    | none => simp [hl] at harmed
    | some l => simp [hl, hfree l hl] at harmed

theorem Hw.launchArm_late (hr : h.running 0x28 = true) (hid : h.g R.FAB_ID_STATE = 2)
    (hns : h.g (R.FAB_LAUNCH_NT_NT.at 0) + 2 ^ 32 * h.g (R.FAB_LAUNCH_NT_NT.at 1) < h.ns + 2000000 + 2 * h.launchH) :
    h.launchArm = .error E.badValue :=
  (if_neg (by simp [hr, hid])).trans (if_pos (.inl hns))

theorem Hw.launchCancel_ok (hl : h.fab.launch = some l) (hroot : l.root = h.nodeId) (hd : l.decision = 0) (ht : h.ns + 500000 + l.h < l.instant) :
    h.launchCancel = .ok (h.rootAbort l 3) := by
  simp only [Hw.launchCancel, hl]
  exact if_pos ⟨hroot, hd, ht⟩

theorem Hw.launchAck_ok (hp : h.prof = .l) (hs : h.g R.CUL_LAUNCH_STAT_STATE = 1) :
    h.launchAck = (let k := h.s R.CUL_LAUNCH_STAT_ACKED 1
      .ok (k.handOver (k.setRecords (h.g R.CUL_LAUNCH_JOB_JOB) [(k.g R.CUL_LEAF_NODE, 2 ^ k.g R.CUL_LEAF_PORT)] 0x0000 none))) :=
  (if_neg (by simp [hp])).trans (if_neg (by simp [hs]))

theorem Hw.proxyAck_ok {i v : Nat} (hi : i < 4) (hp : h.prof = .t) (hl : h.fab.launch = some l) (hd : l.decision = 0)
    (hnew : (addAcks l.acks h.nodeId (v % 2 ^ 32 * 2 ^ (32 * i))).2 = true) :
    h.proxyAck i v = .ok (h.acksChanged { l with acks := (addAcks l.acks h.nodeId (v % 2 ^ 32 * 2 ^ (32 * i))).1 }) := by
  refine (if_neg (by simp [hp]; omega)).trans ?_
  simp only [hl]
  exact (if_neg (by simp [hd])).trans (congrArg Except.ok (if_pos hnew))

end

/-! ### Its messages -/

/-- A launch message that is heard for the first time acts, and a node that is no leaf spreads it (R352). -/
theorem Hw.launchRx_hears {h m : Hw} {p msg : Nat} {bs : List Nat} {f : Frame} {k : Launch → List Nat → Hw → Hw} (hh : h.HearsLaunch p bs msg f)
    (hm : k ((h.heardLaunch p msg f).toldLaunch f.payload) f.payload (h.heardLaunch p msg f) = m) :
    h.launchRx p 1 bs msg k = if m.prof = .l then m else m.spread ((h.heardLaunch p msg f).toldLaunch f.payload) f.payload := by
  obtain ⟨hhear, hok, hmsg, hf, hnew⟩ := hh
  subst hm
  exact (Hw.receive_hears hhear _).trans ((if_neg (by simp [hok])).trans ((if_neg (by simp [hmsg])).trans
    (if_neg (by rw [Hw.acceptRel_next hf, hnew]; decide))))

/-- On a leaf it acts and goes no further. -/
theorem Hw.launchRx_leaf {h m : Hw} {p msg : Nat} {bs : List Nat} {f : Frame} {k : Launch → List Nat → Hw → Hw} (hh : h.HearsLaunch p bs msg f)
    (hm : k ((h.heardLaunch p msg f).toldLaunch f.payload) f.payload (h.heardLaunch p msg f) = m) (hp : m.prof = .l) : h.launchRx p 1 bs msg k = m :=
  (Hw.launchRx_hears hh hm).trans (if_pos hp)

/-- Settles O41, command by command. -/
theorem launchCommandsDo : Obligations.LaunchCommandsDo := by
  refine ⟨?arm, ?armLate, ?cancel, ?commit, ?short, ?instant, ?instantOpen, ?ack, ?proxyAck, ?armRx, ?commitRx, ?abortRx, ?armRxNode⟩
  case arm =>
    refine fun a => Does.of_go _ (fun _ => rfl) fun h ⟨hr, hp, hid, hns, hs0, hs, hfree⟩ => (Hw.operAccess_reach hr).trans ?_
    rw [Hw.launchArm_ok (h := h.reply 0) hp hid hns hs0 hs hfree]
    rfl
  case armLate =>
    refine fun a => Does.of_go _ (fun _ => rfl) fun h ⟨hr, hp, hid, hns⟩ => (Hw.operAccess_reach hr).trans ?_
    rw [Hw.launchArm_late (h := h.reply 0) hp hid hns]
    rfl
  case cancel =>
    exact fun a l => Does.of_go _ (fun _ => rfl) fun h ⟨hr, hl, hroot, hd, ht⟩ => Hw.operWrite_ok hr (Hw.launchCancel_ok (h := h.reply 0) hl hroot hd ht)
  case commit =>
    refine fun l => Does.of_go _ (fun _ => rfl) fun h ⟨hf, hl, hroot, hp, hd, ht, hall⟩ => (if_neg (by simp [hf])).trans ?_
    simp only [hl]
    exact (if_neg (by simp [hroot, hp, hd]; omega)).trans (if_pos hall)
  case short =>
    refine fun l => Does.of_go _ (fun _ => rfl) fun h ⟨hf, hl, hroot, hp, hd, ht, hmiss⟩ => (if_neg (by simp [hf])).trans ?_
    simp only [hl]
    exact (if_neg (by simp [hroot, hp, hd]; omega)).trans (if_neg hmiss)
  case instant =>
    refine fun l => Does.of_go _ (fun _ => rfl) fun h ⟨hf, hl, ht, hp, hd⟩ => (if_neg (by simp [hf])).trans ?_
    simp only [hl]
    refine (if_neg (by omega)).trans ?_
    simp only [hp, hd]
  case instantOpen =>
    refine fun l => Does.of_go _ (fun _ => rfl) fun h ⟨hf, hl, ht, hp, hd⟩ => (if_neg (by simp [hf])).trans ?_
    simp only [hl]
    refine (if_neg (by omega)).trans ?_
    simp only [hp, hd]
  case ack => exact fun a => Does.of_go _ (fun _ => rfl) fun h ⟨hr, hp, hs⟩ => Hw.hostWrite_ok hr (Hw.launchAck_ok (h := h.reply 0) hp hs)
  case proxyAck =>
    exact fun a i v l hi => Does.of_go _ (fun _ => rfl) fun h ⟨hr, hp, hl, hd, hnew⟩ =>
      Hw.hostWrite_ok hr (Hw.proxyAck_ok (h := h.reply 0) hi hp hl hd hnew)
  case armRx =>
    refine fun p bs f => Does.of_go _ (fun _ => rfl) fun h ⟨hh, hp⟩ => Hw.launchRx_leaf hh (if_pos ?_) ?_
    · exact (h.heardLaunch_prof p 0 f).trans hp
    · exact (h.heardLaunch_prof p 0 f).trans hp
  case commitRx =>
    refine fun p bs f => Does.of_go _ (fun _ => rfl) fun h ⟨hh, hp, ht⟩ => Hw.launchRx_leaf hh ((if_neg (by omega)).trans (if_pos ?_)) ?_
    · exact (h.heardLaunch_prof p 1 f).trans hp
    · exact (h.heardLaunch_prof p 1 f).trans hp
  case abortRx =>
    refine fun p bs f => Does.of_go _ (fun _ => rfl) fun h ⟨hh, hp⟩ => Hw.launchRx_leaf hh (if_pos ?_) ?_
    · exact (h.heardLaunch_prof p 2 f).trans hp
    · exact (h.heardLaunch_prof p 2 f).trans hp
  case armRxNode =>
    refine fun p bs f => Does.of_go _ (fun _ => rfl) fun h ⟨hh, hp, hq⟩ => (Hw.launchRx_hears hh (if_neg ?_)).trans (if_neg hq)
    exact fun he => hp ((h.heardLaunch_prof p 0 f).symm.trans he)

end Sys2Proof.Machine
end

section
/-!
Flow control, ledgers and delivery (R191, R368–R380, R580), and the shaper (R381–R387): what their commands and instants come to.
-/
namespace Sys2Proof.Machine

/-! ### Streams, the leaf's steps and routes -/

section
variable {h : Hw}

/-- A stream whose first record waits for an earlier one of its path releases nothing (R380). -/
theorem Hw.releaseStream_waits {source : Nat} {r : Rec} {rest : List Rec} (hh : (h.stream source).held = r :: rest) (hr : h.mayRelease r = false)
    (fuel : Nat) : h.releaseStream source false fuel = h := by
  cases fuel with
  | zero => rfl
  | succ n =>
    unfold Hw.releaseStream
    simp only [hh, hr]
    exact if_pos (by simp)

/-- A step of the encoding downwards shows as stepped down where the encoding configured is not the one in force (R191). -/
theorem Hw.setSteps_down (h : Hw) (n : Nat) :
    h.setSteps (n + 1) = (Hw.s { h with cnt := { h.cnt with stepDown := n + 1, stepFrc := h.frc } } R.FRM_STAT_STEPPED_DOWN
      (b2n (h.g R.FRM_CFG_ENC < h.g R.FRM_STAT_ENC_ACTIVE))).choice 11 := by
  unfold Hw.setSteps Hw.showSteps
  simp only [show (n + 1 != 0) = true from rfl, Bool.true_or, Bool.true_and]
  rfl

end

/-- Settles O42, command by command. The delay of the acknowledgements that a ledger period waits for is log entry 167, and what may stand before a
record on its path log entry 49. -/
theorem flowCommandsDo : Obligations.FlowCommandsDo := by
  refine ⟨?release, ?releaseWaits, ?gap, ?period, ?periodOpen, ?rehome, ?rehomeBack, ?stepDown, ?stepUp, ?ring, ?ringAgain, ?route, ?hostrec, ?hostrecEmpty,
    ?bytes⟩
  case release =>
    refine fun source => Does.of_go _ (fun _ => rfl) fun h ⟨x, hx, hs⟩ => if_pos ?_
    rw [List.any_eq_true]
    exact ⟨x, hx, by simp [hs]⟩
  case releaseWaits =>
    refine fun source r rest hne => Does.of_go _ (fun _ => rfl) fun h ⟨⟨x, hx, hs⟩, hh, hp, ht⟩ => (if_pos ?_).trans (Hw.releaseStream_waits hh ?_ _)
    · rw [List.any_eq_true]
      exact ⟨x, hx, by simp [hs]⟩
    · simp [Hw.mayRelease, hp, ht]
  case gap => exact Does.of_go _ (fun _ => rfl) fun h _ => rfl
  case period => exact Does.of_go _ (fun _ => rfl) fun h ⟨hw, ht, hp⟩ => if_pos (by simp [hw, ht, hp])
  case periodOpen => exact Does.of_go _ (fun _ => rfl) fun h hn => if_neg (by simp; omega)
  case rehome =>
    exact Does.of_go _ (fun _ => rfl) fun h ⟨hp, hr, ha, hm, h0, h1, hs, hh⟩ => if_pos ⟨hp, hr, ha, by simp [hm], h0, h1, hs, hh⟩
  case rehomeBack => exact Does.of_go _ (fun _ => rfl) fun h hs => if_pos hs
  case stepDown => exact Does.of_go _ (fun _ => rfl) fun h hs => (if_pos hs).trans (Hw.setSteps_down h _)
  case stepUp => exact Does.of_go _ (fun _ => rfl) fun h hs => if_pos hs
  case ring =>
    refine fun c x at_ t => Does.of_go _ (fun _ => rfl) fun h ⟨hw, hb, hn, hd, hr⟩ => (if_neg (by simp [hw, hb])).trans ?_
    simp only [hn]
    refine (if_neg (by simp [hd])).trans ?_
    simp only [hr, if_true]
  case ringAgain =>
    refine fun c x => Does.of_go _ (fun _ => rfl) fun h ⟨hw, hb, hn, hd⟩ => (if_neg (by simp [hw, hb])).trans ?_
    simp only [hn]
    exact if_pos hd
  case route =>
    refine fun x => Does.of_go _ (fun _ => rfl) fun h ⟨hp, hw, hx, ha, hr, hroute, ht⟩ => (if_neg (by simp [hp, hw])).trans ?_
    have hdue : (!h.arrived x && (h.route (h.dstOf x)).isNone && x.route.isEmpty &&
      decide (x.waitFrom + h.g R.FLW_ROUTE_WAIT_MS * 1000000 ≤ h.frc)) = true := by simp [ha, hr, hroute, ht]
    simp only [hx, List.filter_cons, List.filter_nil, List.map_cons, List.map_nil, hdue, if_true]
    rfl
  case hostrec =>
    exact fun q d => Does.of_go _ (fun _ => rfl) fun h ⟨hf, hs, h0, hn⟩ => (if_neg (by simp [hf])).trans ((Hw.withDesc_starts hs _).trans
      ((if_neg (by omega)).trans (if_neg (by omega))))
  case hostrecEmpty =>
    exact fun q d => Does.of_go _ (fun _ => rfl) fun h ⟨hf, hs, h0⟩ => (if_neg (by simp [hf])).trans ((Hw.withDesc_starts hs _).trans
      ((if_neg (by omega)).trans (if_pos h0)))
  case bytes => exact fun q d => Does.of_go _ (fun _ => rfl) fun h ⟨hs, hn⟩ => (Hw.withDesc_starts hs _).trans (if_neg hn)

/-! ### The shaper -/

section
variable {h : Hw} {p c len : Nat} {f : Frame} {rs : List HeldRec}

theorem Hw.serveQueue_pays {k : Hw} (hc : (k.selectQueue p).1 = some c) (hq : (k.selectQueue p).2.ptpHead p c = none)
    (he : (k.selectQueue p).2.eligible p c = some (f, rs, len)) (hd : k.completes p c len = true) (hp : k.paid p c len f.replay = true) :
    k.serveQueue p (k.selectQueue p) = (k.selectQueue p).2.sendHead p c f rs len := by
  simp only [Hw.serveQueue, hc, hq, he]
  exact if_pos (by simp [hd, hp])

theorem Hw.serveQueue_unpaid {k : Hw} (hc : (k.selectQueue p).1 = some c) (hq : (k.selectQueue p).2.ptpHead p c = none)
    (he : (k.selectQueue p).2.eligible p c = some (f, rs, len)) (hp : k.paid p c len f.replay = false) :
    k.serveQueue p (k.selectQueue p) = k := by
  simp only [Hw.serveQueue, hc, hq, he]
  exact if_neg (by simp [hp])

theorem Hw.serveQueue_ptp {k : Hw} {w : PtpWait} (hc : (k.selectQueue p).1 = some 2) (hq : (k.selectQueue p).2.ptpHead p 2 = some w)
    (hd : k.completes p 2 (k.ptpLen p w) = true) (hp : k.paid p 2 (k.ptpLen p w) false = true) :
    k.serveQueue p (k.selectQueue p) = (k.selectQueue p).2.sendWaiting p w := by
  simp only [Hw.serveQueue, hc, hq]
  exact if_pos (by simp [hd, hp])

theorem Hw.gateRefresh_due {g : Nat} {x : GateCfg} (hr : h.running 0x34 = true) (hx : (h.gateList g).pending = some x) (hm : x.mode = 1)
    (ht : (h.gateList g).at_ ≤ h.ns) : h.gateRefresh g = h.gateSwap g := by
  simp only [Hw.gateRefresh, hx]
  exact if_pos (by simp [hm, ht, hr])

theorem Hw.gateRefresh_none {g : Nat} (hx : (h.gateList g).pending = none) : h.gateRefresh g = h.showGates g := by
  simp only [Hw.gateRefresh, hx]
  exact if_neg (by simp)

/-- A list without a cycle is taken at once while the page is OFF (R387). -/
theorem Hw.gswap_off {g : Nat} (ho : h.off 0x34 = true) (hm : (h.shadowGates g).mode = 0) :
    h.gswap g =
      (let c := h.shadowGates g
      let at_ := if h.ns ≤ c.base then c.base else c.base + ceilDiv (h.ns - c.base) (max 1 c.cycle) * c.cycle
      .ok ((h.putGates g { h.gateList g with pending := some c, at_ := at_ }).gateRefresh g)) :=
  (if_neg (by simp [hm])).trans (if_pos ho)

end

/-- Settles O43, command by command. That a frame selected and not paid for is not made is log entry 181, and that a waiting PTP frame goes ahead of
queue 2 log entry 162. -/
theorem shaperCommandsDo : Obligations.ShaperCommandsDo := by
  refine ⟨?sends, ?unpaid, ?ptp, ?closed, ?swap, ?noSwap, ?gswap, ?gswapRefused⟩
  case sends =>
    refine fun p c f rs len => Does.of_go _ (fun _ => rfl) fun h ⟨hs, hu, hw, hc, hq, he, hd, hp⟩ => (if_neg (by simp [hs])).trans ?_
    simp only [hu, hw, Bool.and_self, if_true]
    exact Hw.serveQueue_pays hc hq he hd hp
  case unpaid =>
    refine fun p c f rs len => Does.of_go _ (fun _ => rfl) fun h ⟨hs, hu, hw, hc, hq, he, hp⟩ => (if_neg (by simp [hs])).trans ?_
    simp only [hu, hw, Bool.and_self, if_true]
    exact Hw.serveQueue_unpaid hc hq he hp
  case ptp =>
    refine fun p w => Does.of_go _ (fun _ => rfl) fun h ⟨hs, hu, hw, hc, hq, hd, hp⟩ => (if_neg (by simp [hs])).trans ?_
    simp only [hu, hw, Bool.and_self, if_true]
    exact Hw.serveQueue_ptp hc hq hd hp
  case closed => exact fun p => Does.of_go _ (fun _ => rfl) fun h hs => if_pos (by simp [hs])
  case swap => exact fun g hg => Does.of_go _ (fun _ => rfl) fun h ⟨hr, c, hc, hm, ht⟩ => (if_pos hg).trans (Hw.gateRefresh_due hr hc hm ht)
  case noSwap => exact fun g hg => Does.of_go _ (fun _ => rfl) fun h hn => (if_pos hg).trans (Hw.gateRefresh_none hn)
  case gswap =>
    refine fun a g hg => Does.of_go _ (fun _ => rfl) fun h ⟨hr, ho, hm⟩ => ?_
    rw [Nat.mod_eq_of_lt hg]
    exact Hw.operWrite_ok (f := fun h => h.gswap g) hr (Hw.gswap_off (h := h.reply 0) ho hm)
  case gswapRefused =>
    refine fun a g hg => Does.of_go _ (fun _ => rfl) fun h ⟨hr, hm⟩ => ?_
    rw [Nat.mod_eq_of_lt hg]
    exact Hw.operWrite_err (f := fun h => h.gswap g) hr (if_pos (.inl hm))

end Sys2Proof.Machine
end

section
/-!
The trace unit (R388–R411), the low-power request (R412, R413) and debug (R68, R69, R414–R417): what their commands come to.
-/
namespace Sys2Proof.Machine

/-! ### What a frame, or the trace unit's state, leaves -/

theorem Hw.running_fab (h : Hw) (x : Fab) (p : Nat) : Hw.running { h with fab := x } p = h.running p := rfl

theorem Hw.on_fab (h : Hw) (x : Fab) (f : Field) : Hw.on { h with fab := x } f = h.on f := rfl

theorem Hw.running_trc (h : Hw) (x : Trc) (p : Nat) : Hw.running { h with trc := x } p = h.running p := rfl

/-! ### The trace unit -/

section
variable {h : Hw}

theorem Hw.closeTrace_open {id : Nat} {o : TrcOpen} (ho : (h.trc.open_.find? fun o => o.id == id) = some o) :
    h.closeTrace id =
      (let k := { h with trc := { h.trc with open_ := h.trc.open_.filter fun x => x.id != id } }
      k.handOver [k.mkRec 0x38 (if k.on (R.TRC_ID_PRIO.at id) then 5 else 6) (0x0100 + id) k.ownGrade o.stamp
        (o.packets.flatMap fun p => p.2.take 4 ++ le 4 (p.1 - o.stamp.nt / 65536) ++ p.2.drop 8)]) := by
  simp only [Hw.closeTrace, ho]

theorem Hw.rearm_ok (hf : h.on R.TRC_STAT_FILLING = false) (hr : h.running 0x38 = true) : h.rearm = .ok h.bufEmpty.syncPacket :=
  (if_neg (by simp [hf])).trans (congrArg Except.ok (if_pos hr))

theorem Hw.rearm_refused (hf : h.on R.TRC_STAT_FILLING = true) : h.rearm = .error E.badState := if_pos hf

theorem Hw.softTrigger_on {n : Nat} (hs : h.on (R.TL_CTL_SOFT.at (n % 4)) = true) : h.softTrigger n = .ok (h.fireLine (n % 4) none) :=
  congrArg Except.ok (if_pos hs)

theorem Hw.softTrigger_off {n : Nat} (hs : h.on (R.TL_CTL_SOFT.at (n % 4)) = false) : h.softTrigger n = .ok h :=
  congrArg Except.ok (if_neg (by simp [hs]))

/-- A watchpoint of a counter that has come from below its threshold to it fires (R402). -/
theorem Hw.compareWp_rises {w v : Nat} (hw : w < 16) (hp : h.prof ≠ .g) (he : h.on (R.WP_CTL_EN.at w) = true) (hr : h.running 0x38 = true)
    (hg : h.gauge (h.g (R.WP_CTL_SLOT.at w)) = false) (hc : h.g (R.WP_CTL_CMP.at w) = 0)
    (hwas : (h.trc.wpAt.find? fun x => x.1 == w && x.2.1 == h.g (R.WP_CTL_SLOT.at w)) = some (w, h.g (R.WP_CTL_SLOT.at w), v))
    (hlt : v < h.g64 (R.WP_THR_LO_THR.at w) (R.WP_THR_HI_THR.at w))
    (hle : h.g64 (R.WP_THR_LO_THR.at w) (R.WP_THR_HI_THR.at w) ≤ h.slotNow (h.g (R.WP_CTL_SLOT.at w))) :
    h.compareWp w =
      (let k := { h with trc := { h.trc with wpAt := (w, h.g (R.WP_CTL_SLOT.at w), h.slotNow (h.g (R.WP_CTL_SLOT.at w))) :: h.trc.wpAt.filter (fun x => x.1 != w),
                                             wpFrc := (w, h.frc) :: h.trc.wpFrc.filter fun x => x.1 != w } }
      let k := (k.inc (R.WP_HITS_COUNT.at w)).trace (0x20 + w) 3 (h.g (R.WP_CTL_SLOT.at w)) (h.slotNow (h.g (R.WP_CTL_SLOT.at w)))
      if k.on (R.WP_CTL_TRIG.at w) && k.on (R.TL_CTL_WP.at (k.g (R.WP_CTL_LINE.at w))) then k.fireLine (k.g (R.WP_CTL_LINE.at w)) none else k) := by
  refine (if_neg (by simp [hp, he, hr]; omega)).trans ?_
  simp only [hg, hc, hwas, Bool.false_eq_true, if_false]
  exact if_neg (by simp [hle]; omega)

end

/-- Settles O45, command by command. -/
theorem traceCommandsDo : Obligations.TraceCommandsDo := by
  refine ⟨?cmtFull, ?cmt, ?sync, ?syncEarly, ?close, ?rearm, ?rearmRefused, ?frozen, ?watchpoint, ?lineIn, ?lineInOff, ?pulseEnd, ?soft, ?softOff,
    ?frameLeaf, ?frameJoins, ?framePasses, ?swmark, ?readData⟩
  case cmtFull =>
    exact fun ch engine kind tag hc he => Does.of_go _ (fun _ => rfl) fun h ⟨hp, hw, hl⟩ => (if_neg (by simp [hp, hw]; omega)).trans (if_pos hl)
  case cmt =>
    exact fun ch engine tag hc he => Does.of_go _ (fun _ => rfl) fun h ⟨hp, hw, hl⟩ => (if_neg (by simp [hp, hw]; omega)).trans (if_neg (by omega))
  case sync =>
    refine Does.of_go _ (fun _ => rfl) fun h ⟨hr, ht, hb⟩ => if_pos ?_
    simpa [hr, ht] using hb
  case syncEarly => exact Does.of_go _ (fun _ => rfl) fun h ht => if_neg (by simp; omega)
  case close =>
    refine fun id o => Does.of_go _ (fun _ => rfl) fun h ⟨hf, ho, ht⟩ => (if_neg (by simp [hf])).trans ?_
    simp only [ho]
    exact (if_pos ht).trans (Hw.closeTrace_open ho)
  case rearm => exact fun a => Does.of_go _ (fun _ => rfl) fun h ⟨hr, hf, hp⟩ => Hw.hostWrite_ok hr (Hw.rearm_ok (h := h.reply 0) hf hp)
  case rearmRefused => exact fun a => Does.of_go _ (fun _ => rfl) fun h ⟨hr, hf⟩ => Hw.hostWrite_err hr (Hw.rearm_refused (h := h.reply 0) hf)
  case frozen => exact Does.of_go _ (fun _ => rfl) fun h ⟨hf, hs, hl⟩ => (if_neg (by simp [hf])).trans (if_pos (by simp [hs, hl]))
  case watchpoint =>
    exact fun w hw => Does.of_go _ (fun _ => rfl) fun h ⟨hp, he, hr, hg, hc, ⟨v, hwas, hlt⟩, hle⟩ => Hw.compareWp_rises hw hp he hr hg hc hwas hlt hle
  case lineIn => exact fun n hn => Does.of_go _ (fun _ => rfl) fun h ⟨hc, hi⟩ => (if_neg (by simp [hc]; omega)).trans (if_pos hi)
  case lineInOff => exact fun n hn => Does.of_go _ (fun _ => rfl) fun h ⟨hc, hi⟩ => (if_neg (by simp [hc]; omega)).trans (if_neg (by simp [hi]))
  case pulseEnd => exact fun n => Does.of_go _ (fun _ => rfl) fun h _ => rfl
  case soft => exact fun a line => Does.of_go _ (fun _ => rfl) fun h ⟨hr, hs⟩ => Hw.hostWrite_ok hr (Hw.softTrigger_on (h := h.reply 0) hs)
  case softOff => exact fun a line => Does.of_go _ (fun _ => rfl) fun h ⟨hr, hs⟩ => Hw.hostWrite_ok hr (Hw.softTrigger_off (h := h.reply 0) hs)
  case frameLeaf =>
    refine fun p bs f => Does.of_go _ (fun _ => rfl) fun h ⟨hh, hl, hk, hf, hc, hp, hnew⟩ => (Hw.receive_hears hh _).trans
      ((if_neg (by simp [hl])).trans ((if_neg (by simp [hk])).trans ((if_neg (by rw [Hw.acceptRel_next hf, hnew]; decide)).trans ?_)))
    have hleaf : ((h.heard p).acceptRel p f 0 0).1.prof = .l := by simp [hp]
    simp only [hleaf, if_true]
  case frameJoins =>
    refine fun p bs f hline => Does.of_go _ (fun _ => rfl) fun h ⟨hh, hl, hk, hf, hc, hp, hnew, hr, ho⟩ => (Hw.receive_hears hh _).trans
      ((if_neg (by simp [hl])).trans ((if_neg (by simp [hk])).trans ((if_neg (by rw [Hw.acceptRel_next hf, hnew]; decide)).trans ?_)))
    have hnode : ((h.heard p).acceptRel p f 0 0).1.prof ≠ .l := by simpa using hp
    simp only [hnode, hc, Hw.running_fab, hr, Hw.on_fab, ho, hline, decide_true, Bool.and_self, Bool.true_and, if_true, if_false]
  case framePasses =>
    refine fun p bs f hline => Does.of_go _ (fun _ => rfl) fun h ⟨hh, hl, hk, hf, hc, hp, hnew, ho⟩ => (Hw.receive_hears hh _).trans
      ((if_neg (by simp [hl])).trans ((if_neg (by simp [hk])).trans ((if_neg (by rw [Hw.acceptRel_next hf, hnew]; decide)).trans ?_)))
    have hnode : ((h.heard p).acceptRel p f 0 0).1.prof ≠ .l := by simpa using hp
    simp only [hnode, hc, Hw.on_fab, ho, hline, decide_true, Bool.and_false, Bool.true_and, Bool.false_eq_true, if_true, if_false]
  case swmark =>
    refine fun a m v hm => Does.of_go _ (fun _ => rfl) fun h ⟨ho, hp, _⟩ => (if_pos hm).trans ((if_neg ?_).trans (if_pos (by simp [ho])))
    simp [hp, Hw.admits, ho]
  case readData => exact fun a => Does.of_go _ (fun _ => rfl) fun h hr => Hw.access_reach hr

/-! ### The low-power request -/

/-- Settles O46, command by command. -/
theorem lowPowerCommandsDo : Obligations.LowPowerCommandsDo := by
  refine ⟨?rise, ?fall⟩
  case rise =>
    refine fun stops => Does.of_go _ (fun _ => rfl) fun h ⟨hp, ha, hl, hc, hr⟩ => (if_neg (by simp [hp, ha, hl])).trans ((if_neg (by simp [hc])).trans ?_)
    simp only [hc, Bool.not_true, Hw.running_trc, hr, if_true]
  case fall => exact Does.of_go _ (fun _ => rfl) fun h ⟨hl, hr⟩ => (if_neg (by simp [hl])).trans (if_pos hr)

/-! ### Debug -/

section
variable {h : Hw}

theorem Hw.stopCmd_plain (hf : h.stopFreezes = false) : h.stopCmd = .ok (h.globalStop 0) := by
  simp only [Hw.stopCmd, hf, Bool.false_eq_true, if_false]

/-- A stop that freezes the trace buffer leaves its packet first (R414). -/
theorem Hw.stopCmd_freezes (hf : h.stopFreezes = true) :
    h.stopCmd = .ok ((h.fresh.2.fresh.2.traceLater ⟨0x31, 8, h.fresh.1 % 2 ^ 16, h.fresh.2.fresh.1 % 2 ^ 64, 2⟩).globalStop 0) := by
  simp only [Hw.stopCmd, hf, if_true]

/-- A leaf asks its host for the stop (R68, R414). -/
theorem Hw.globalStop_leaf {cause : Nat} (hp : h.prof = .l) (hr : h.running 0x3A = true) (hs : h.g R.DBG_STAT_STATE = 0) (hq : h.trc.stopReq = false) :
    h.globalStop cause =
      (let k := { h with trc := { h.trc with stopCause := cause, stopNt := h.nt, stopFrc := h.frc, hostScan := [],
                                             stopSecs := h.dumpSections h.pageList (List.range h.queueCount) } }
      let k := (k.s R.DBG_STAT_STATE 1).raise 0x3A 16
      { k with trc := { k.trc with stopReq := !k.saf.testMode } }) := by
  refine (if_neg (by simp [hr])).trans ((if_neg (by simp [hs])).trans ((if_neg (by simp [hq])).trans ?_))
  dsimp only
  split
  · rfl
  · next hne => exact absurd hp (by simpa using hne)

theorem Hw.globalStop_again {cause : Nat} (hr : h.running 0x3A = true) (hs : h.g R.DBG_STAT_STATE = 0) (hq : h.trc.stopReq = true) :
    h.globalStop cause = h :=
  (if_neg (by simp [hr])).trans ((if_neg (by simp [hs])).trans (if_pos hq))

theorem Hw.globalStop_extra {cause : Nat} (hr : h.running 0x3A = true) (hs : h.g R.DBG_STAT_STATE ≠ 0) :
    h.globalStop cause = h.inc R.DBG_STOP_EXTRA_COUNT :=
  (if_neg (by simp [hr])).trans (if_pos hs)

end

/-- Settles O47, command by command. What the packet of a commanded stop carries is left free by log entry 185. -/
theorem debugCommandsDo : Obligations.DebugCommandsDo := by
  refine ⟨?stopLeaf, ?stopFreezes, ?stopAgain, ?stopExtra, ?ack, ?ackTimeout, ?scan, ?scanTimeout, ?done, ?hang, ?clear, ?clearNone⟩
  case stopLeaf =>
    refine fun a => Does.of_go _ (fun _ => rfl) fun h ⟨hr, hp, hrun, hs, hq, hf⟩ =>
      Hw.operWrite_ok hr ((Hw.stopCmd_plain (h := h.reply 0) ?_).trans (congrArg Except.ok (Hw.globalStop_leaf (h := h.reply 0) hp hrun hs hq)))
    simp [Hw.stopFreezes, hf]
  case stopFreezes =>
    refine fun a => Does.of_go _ (fun _ => rfl) fun h ⟨hr, hrun, hs, hq, hf, ht⟩ => Hw.operWrite_ok hr (Hw.stopCmd_freezes (h := h.reply 0) ?_)
    have hq' : (h.reply 0).trc.stopReq = false := hq
    simp [Hw.stopFreezes, hrun, hs, hf, ht, hq']
  case stopAgain =>
    refine fun a => Does.of_go _ (fun _ => rfl) fun h ⟨hr, hrun, hs, hq⟩ =>
      Hw.operWrite_ok hr ((Hw.stopCmd_plain (h := h.reply 0) ?_).trans (congrArg Except.ok (Hw.globalStop_again (h := h.reply 0) hrun hs hq)))
    have hq' : (h.reply 0).trc.stopReq = true := hq
    simp [Hw.stopFreezes, hq']
  case stopExtra =>
    refine fun a => Does.of_go _ (fun _ => rfl) fun h ⟨hr, hrun, hs⟩ =>
      Hw.operWrite_ok hr ((Hw.stopCmd_plain (h := h.reply 0) ?_).trans (congrArg Except.ok (Hw.globalStop_extra (h := h.reply 0) hrun hs)))
    simp [Hw.stopFreezes, hs]
  case ack => exact Does.of_go _ (fun _ => rfl) fun h ⟨hf, hp, hs, hst⟩ => (if_neg (by simp [hf])).trans ((if_pos (by simp [hp, hs])).trans (if_pos hst))
  case ackTimeout =>
    exact Does.of_go _ (fun _ => rfl) fun h ⟨hf, hs, ht, hh⟩ => (if_neg (by simp [hf])).trans ((if_pos (by simp [hs, ht])).trans (if_pos hh))
  case scan => exact fun data => Does.of_go _ (fun _ => rfl) fun h ⟨hf, hs, hr⟩ => (if_neg (by simp [hf])).trans (if_pos (by simp [hs, hr]))
  case scanTimeout => exact Does.of_go _ (fun _ => rfl) fun h ⟨hf, hs, hr, ht⟩ => (if_neg (by simp [hf])).trans (if_pos (by simp [hs, hr, ht]))
  case done => exact Does.of_go _ (fun _ => rfl) fun h ⟨hf, hs, hr, hd⟩ => (if_neg (by simp [hf])).trans (if_pos (by simpa [hs, hr] using hd))
  case hang =>
    refine fun q r => Does.of_go _ (fun _ => rfl) fun h ⟨hm, hr, hd, ha, hf⟩ => (if_neg (by simp [hm, hr, hd])).trans ?_
    simp only [hf, if_neg ha]
  case clear =>
    exact fun a c v hc hv => Does.of_go _ (fun _ => rfl) fun h hr => (if_pos hc).trans (Hw.hostWrite_ok hr (congrArg Except.ok (if_pos hv)))
  case clearNone =>
    exact fun a c v hc hv => Does.of_go _ (fun _ => rfl) fun h hr => (if_pos hc).trans (Hw.hostWrite_ok hr (congrArg Except.ok (if_neg (by simp [hv]))))

end Sys2Proof.Machine
end

section
/-!
Wear (R60, R419–R425, R432) and optics (R427–R437): what their commands and instants come to.
-/
namespace Sys2Proof.Machine

theorem Hw.g_hlt (h : Hw) (x : Hlt) (f : Field) : Hw.g { h with hlt := x } f = h.g f := rfl

/-- Settles O48, command by command. -/
theorem wearCommandsDo : Obligations.WearCommandsDo := by
  refine ⟨?result, ?range, ?close, ?start, ?edge, ?edgeIdle, ?gate, ?gateEarly⟩
  case result =>
    refine fun ch v => Does.of_go _ (fun _ => rfl) fun h ⟨ha, hc, hp, ht⟩ => (if_neg (by simp [ha])).trans ((if_neg (by omega)).trans
      ((if_neg (by simp [hp])).trans ?_))
    simp only [if_neg ht]
  case range =>
    exact fun ch v => Does.of_go _ (fun _ => rfl) fun h ⟨ha, hp, hc⟩ => (if_neg (by simp [ha])).trans ((if_pos hc).trans (if_pos hp))
  case close => exact Does.of_go _ (fun _ => rfl) fun h ⟨hr, ho, ht⟩ => (if_pos (by simp [hr, ho, ht])).trans (if_neg (by simp [ho]))
  case start => exact Does.of_go _ (fun _ => rfl) fun h ⟨hp, hr, hg, htr, ht⟩ => if_pos ⟨hp, hr, by simp [hg], by simp [htr], ht⟩
  case edge =>
    exact fun n t hn => Does.of_go _ (fun _ => rfl) fun h ⟨hp, hc, hg⟩ => (if_neg (by simp [hp, hc]; omega)).trans (if_pos (by simp [hg]))
  case edgeIdle =>
    exact fun n hn => Does.of_go _ (fun _ => rfl) fun h ⟨hp, hc, hg⟩ => (if_neg (by simp [hp, hc]; omega)).trans (if_neg (by simp [hg]))
  case gate =>
    refine fun t e => Does.of_go _ (fun _ => rfl) fun h ⟨hr, hg, ht, hl⟩ => ?_
    simp only [hg]
    refine (if_neg (by simp [hr]; omega)).trans ?_
    simp only [Hw.g_hlt, hl, Option.isSome_some, if_true]
    rfl
  case gateEarly =>
    refine fun t => Does.of_go _ (fun _ => rfl) fun h ⟨hg, ht⟩ => ?_
    simp only [hg]
    exact if_pos (by simp [ht])

/-! ### Optics -/

section
variable {h : Hw} {e : VEntry}

theorem Hw.switchRipe_of (hk : e.kind = 2) (hs : e.state = 3) (hd : e.due = false) (hp : e.prior = 2 ∨ e.authFrc + 60000000000 ≤ h.frc) :
    h.switchRipe e = true := by
  rcases hp with hp | hp <;> simp [Hw.switchRipe, hk, hs, hd, hp]

theorem Hw.switchOpens_of (hg : h.switchGate = true) (hl : e.shut = true ∨ h.g R.OPT_CFG_SW_LIST = 0) : h.switchOpens e = true := by
  rcases hl with hl | hl <;> simp [Hw.switchOpens, hg, hl]

theorem Hw.hgCmd_swap (h : Hw) :
    h.hgCmd true false = .ok (h.putGroup { h.heatGroup (h.g R.OPT_HSEL_GRP) with swap := true }) := rfl

theorem Hw.hgCmd_cal (hr : h.running 0x42 = true) (he : h.on (R.HG_CFG_EN.at (h.g R.OPT_HSEL_GRP)) = true)
    (hb : (h.opt.groups.any fun x => x.cal.isSome || x.result.isSome) = false) :
    h.hgCmd false true = .ok ((h.putGroup { h.heatGroup (h.g R.OPT_HSEL_GRP) with cal := some ⟨0, 0, 0, [], [], []⟩ }).s
      (R.HG_STAT_CAL_RUN.at (h.g R.OPT_HSEL_GRP)) 1) :=
  if_neg (by rw [hb, hr, he]; decide)

theorem Hw.hgCmd_cal_refused (hn : h.running 0x42 = false ∨ h.on (R.HG_CFG_EN.at (h.g R.OPT_HSEL_GRP)) = false ∨
    (h.opt.groups.any fun x => x.cal.isSome || x.result.isSome) = true) : h.hgCmd false true = .error E.badState := by
  refine if_pos ?_
  rcases hn with hn | hn | hn <;> rw [hn] <;> simp

end

/-- Settles O49, command by command. That CAL is refused while the loop does not run is log entries 95 and 97. -/
theorem opticsCommandsDo : Obligations.OpticsCommandsDo := by
  refine ⟨?evaluation, ?fade, ?switches, ?waits, ?latch, ?swap, ?cal, ?calRefused, ?calDone, ?calSingular⟩
  case evaluation => exact Does.of_go _ (fun _ => rfl) fun h ⟨hr, ht⟩ => if_pos (by simp [hr, ht])
  case fade => exact Does.of_go _ (fun _ => rfl) fun h ⟨hr, ht⟩ => if_pos (by simp [hr, ht])
  case switches =>
    refine fun n e => Does.of_go _ (fun _ => rfl) fun h ⟨hr, he, hk, hs, hd, hp, hg, hl⟩ => ?_
    simp only [he]
    exact if_pos (by rw [hr, Hw.switchRipe_of hk hs hd hp, Hw.switchOpens_of hg hl]; rfl)
  case waits =>
    refine fun n e => Does.of_go _ (fun _ => rfl) fun h ⟨he, hk, hn⟩ => ?_
    simp only [he]
    refine if_neg ?_
    rcases hn with hg | ⟨hs, hl⟩
    · simp [Hw.switchOpens, hg]
    · simp [Hw.switchOpens, hs, hl]
  case latch => exact Does.of_go _ (fun _ => rfl) fun h ⟨hr, hl, ht⟩ => if_pos (by simp [hr, hl, ht])
  case swap => exact fun a => Does.of_go _ (fun _ => rfl) fun h hr => Hw.operWrite_ok hr (Hw.hgCmd_swap (h.reply 0))
  case cal => exact fun a => Does.of_go _ (fun _ => rfl) fun h ⟨hr, hp, he, hb⟩ => Hw.operWrite_ok hr (Hw.hgCmd_cal (h := h.reply 0) hp he hb)
  case calRefused =>
    intro a
    refine Does.of_go _ (fun _ => rfl) fun h hn => ?_
    rcases hn with ⟨hr, hn⟩ | ⟨hr, hn⟩ | ⟨hr, hn⟩
    · exact Hw.operWrite_err hr (Hw.hgCmd_cal_refused (h := h.reply 0) (.inl hn))
    · exact Hw.operWrite_err hr (Hw.hgCmd_cal_refused (h := h.reply 0) (.inr (.inl hn)))
    · exact Hw.operWrite_err hr (Hw.hgCmd_cal_refused (h := h.reply 0) (.inr (.inr hn)))
  case calDone =>
    refine fun g cols m => Does.of_go _ (fun _ => rfl) fun h ⟨hr, hf, hx, hm⟩ => (if_neg (by simp [hr, hf])).trans ?_
    simp only [hx, hm]
  case calSingular =>
    refine fun g cols => Does.of_go _ (fun _ => rfl) fun h ⟨hr, hf, hx, hm⟩ => (if_neg (by simp [hr, hf])).trans ?_
    simp only [hx, hm]

end Sys2Proof.Machine
end

section
/-!
The verdict entries (R441–R462) and the ballots of the fleet (R453–R455, R462): what their commands come to.
-/
namespace Sys2Proof.Machine

theorem Hw.operWrite_refused {h : Hw} {a : Acc} {p off code : Nat} {f : Hw → Tried} (hr : h.Reach a p off) (e : f (h.reply 0) = .error code) :
    h.operWrite a p off f = (h.reply 0).refuse p code :=
  (Hw.operAccess_reach hr).trans (congrArg (Hw.finish (h.reply 0) p) e)

/-! ### The commands of an entry -/

section
variable {h : Hw} {n : Nat} {e : VEntry}

theorem Hw.authoriseCmd_ok (he : h.vEntry n = some e) (hk : e.kind ≠ 0) (hf : finalState e.state = false) (hr : h.running 0x44 = true) :
    h.authoriseCmd n = .ok (h.authorise e 1 0xFFFF) :=
  (Hw.onEntry_some he _).trans ((if_neg hk).trans (if_neg (by simp [hf, hr])))

theorem Hw.authoriseCmd_refused (he : h.vEntry n = some e) (hk : e.kind = 0) : h.authoriseCmd n = .error E.accessDenied :=
  (Hw.onEntry_some he _).trans (if_pos hk)

theorem Hw.unholdCmd_ok (he : h.vEntry n = some e) (hf : finalState e.state = false) : h.unholdCmd n = .ok (h.unhold e) :=
  (Hw.onEntry_some he _).trans (if_neg (by simp [hf]))

/-- An authorised entry whose instant has passed is released (R460). -/
theorem Hw.unhold_due (hs : e.state = 3) (hd : e.due = true) (hr : h.running 0x44 = true) : h.unhold e = h.releaseEntry { e with held := false } :=
  if_pos (by simp [hs, hd, hr])

/-- Any other entry loses its mark, and one that is authorised without a spare of its own arms one. -/
theorem Hw.unhold_rest
    (hn : e.state ≠ 3 ∨ e.due = true ∧ h.running 0x44 = false ∨ e.due = false ∧ (e.kind ≠ 2 ∨ e.prior = 2)) :
    h.unhold e = h.putEntry { e with held := false } := by
  rcases hn with hs | ⟨hd, hr⟩ | ⟨hd, hk | hp⟩
  · exact (if_neg (by simp [hs])).trans (if_neg (by simp [hs]))
  · exact (if_neg (by simp [hr])).trans (if_neg (by simp [hd]))
  · exact (if_neg (by simp [hd])).trans (if_neg (by simp [hk]))
  · exact (if_neg (by simp [hd])).trans (if_neg (by simp [hp]))

theorem Hw.unhold_arms (hs : e.state = 3) (hd : e.due = false) (hk : e.kind = 2) (hp : e.prior ≠ 2) :
    h.unhold e = (h.putEntry { e with held := false }).armSpare (e.subject % 512) :=
  (if_neg (by simp [hd])).trans (if_pos (by simp [hs, hd, hk, hp]))

theorem Hw.liftCmd_ok (he : h.vEntry n = some e) (hs : e.state = 1) (hreason : e.reason = 2) (hh : 1 ≤ h.headroom) (hr : h.running 0x44 = true) :
    h.liftCmd n = .ok (h.startBallot e 1) :=
  (Hw.onEntry_some he _).trans (if_neg (by simp [hs, hreason, hr]; omega))

theorem Hw.liftCmd_refused (he : h.vEntry n = some e) (hn : e.state ≠ 1 ∨ e.reason ≠ 2 ∨ h.headroom < 1) : h.liftCmd n = .error E.badState :=
  (Hw.onEntry_some he _).trans (if_pos (by rcases hn with hn | hn | hn <;> simp [hn]))

theorem Hw.ordLoad_ok {slot : Nat} (hs : slot < 32) (hlo : 164 ≤ h.g R.VRD_ORD_LEN_BYTES) (hhi : h.g R.VRD_ORD_LEN_BYTES ≤ 964)
    (hr : h.running 0x44 = true) :
    h.ordLoad slot = .ok (h.dmaRead (h.g R.VRD_ORD_CTX_CTX) (h.g64 R.VRD_ORD_LO_ADDR R.VRD_ORD_HI_ADDR) (h.g R.VRD_ORD_LEN_BYTES)
      (.order slot (h.g R.VRD_ORD_LEN_BYTES))) :=
  (if_neg (by omega)).trans (if_neg (by simp [hr]))

theorem Hw.ordLoad_refused {slot : Nat} (hn : h.g R.VRD_ORD_LEN_BYTES < 164 ∨ 964 < h.g R.VRD_ORD_LEN_BYTES) : h.ordLoad slot = .error E.badValue :=
  if_pos (by omega)

/-- The hour's count sheds the instants that lie an hour back (R457). -/
theorem Hw.hourNow_sheds (hx : ∃ t ∈ h.vrd.hour, t + 3600000000000 ≤ h.ns) : h.hourNow.length < h.vrd.hour.length := by
  obtain ⟨t, hmem, ht⟩ := hx
  refine lt_of_le_of_ne (List.length_filter_le _ _) fun he => ?_
  have := List.length_filter_eq_length_iff.1 he t hmem
  simp at this
  omega

end

/-- Settles O50, command by command. That LIFT of a final entry is refused is log entry 36, that UNHOLD arms the spare log entry 189, and what UNHOLD does
while the page does not run log entry 190. -/
theorem verdictCommandsDo : Obligations.VerdictCommandsDo := by
  refine ⟨?holdExpiry, ?opens, ?renews, ?passes, ?authorise, ?authoriseRefused, ?hold, ?unholdDue, ?unhold, ?unholdArms, ?lift, ?liftRefused, ?logRestart,
    ?ttl, ?hour, ?spare, ?load, ?loadRefused, ?revoke⟩
  case holdExpiry => exact Does.of_go _ (fun _ => rfl) fun h hr => if_neg (by simp [hr])
  case opens =>
    refine fun x n => Does.of_go _ (fun _ => rfl) fun h ⟨hr, hf, hd, hk, ha, hl, hn⟩ => (if_neg (by simp [hr])).trans ?_
    simp only [hf]
    refine (if_neg (by simp [hd, hk])).trans ((if_neg (by simp [ha])).trans ?_)
    simp only [hl, hn]
  case renews =>
    refine fun x e => Does.of_go _ (fun _ => rfl) fun h ⟨hr, hf, hd, hk, ha, hl⟩ => (if_neg (by simp [hr])).trans ?_
    simp only [hf]
    refine (if_neg (by simp [hd, hk])).trans ((if_neg (by simp [ha])).trans ?_)
    simp only [hl]
  case passes =>
    refine fun x => Does.of_go _ (fun _ => rfl) fun h ⟨hr, hf, hn⟩ => (if_neg (by simp [hr])).trans ?_
    simp only [hf]
    exact if_pos (by rcases hn with hn | hn <;> simp [hn])
  case authorise =>
    exact fun a n e => Does.of_go _ (fun _ => rfl) fun h ⟨hr, he, hk, hf, hp⟩ => Hw.operWrite_ok hr (Hw.authoriseCmd_ok (h := h.reply 0) he hk hf hp)
  case authoriseRefused =>
    exact fun a n e => Does.of_go _ (fun _ => rfl) fun h ⟨hr, he, hk⟩ => Hw.operWrite_refused hr (Hw.authoriseCmd_refused (h := h.reply 0) he hk)
  case hold => exact fun a n e => Does.of_go _ (fun _ => rfl) fun h ⟨hr, he, hf⟩ => Hw.operWrite_ok hr (Hw.holdCmd_ok (h := h.reply 0) he hf)
  case unholdDue =>
    exact fun a n e => Does.of_go _ (fun _ => rfl) fun h ⟨hr, he, hf, hs, hd, hp⟩ =>
      Hw.operWrite_ok hr ((Hw.unholdCmd_ok (h := h.reply 0) he hf).trans (congrArg Except.ok (Hw.unhold_due (h := h.reply 0) hs hd hp)))
  case unhold =>
    exact fun a n e => Does.of_go _ (fun _ => rfl) fun h ⟨hr, he, hf, hn⟩ =>
      Hw.operWrite_ok hr ((Hw.unholdCmd_ok (h := h.reply 0) he hf).trans (congrArg Except.ok (Hw.unhold_rest (h := h.reply 0) hn)))
  case unholdArms =>
    exact fun a n e => Does.of_go _ (fun _ => rfl) fun h ⟨hr, he, hs, hd, hk, hp⟩ =>
      Hw.operWrite_ok hr ((Hw.unholdCmd_ok (h := h.reply 0) he (by rw [hs]; rfl)).trans (congrArg Except.ok (Hw.unhold_arms (h := h.reply 0) hs hd hk hp)))
  case lift =>
    exact fun a n e => Does.of_go _ (fun _ => rfl) fun h ⟨hr, he, hs, hreason, hh, hp⟩ =>
      Hw.operWrite_ok hr (Hw.liftCmd_ok (h := h.reply 0) he hs hreason hh hp)
  case liftRefused => exact fun a n e => Does.of_go _ (fun _ => rfl) fun h ⟨hr, he, hn⟩ => Hw.operWrite_err hr (Hw.liftCmd_refused (h := h.reply 0) he hn)
  case logRestart => exact fun a => Does.of_go _ (fun _ => rfl) fun h hr => Hw.operWrite_ok hr rfl
  case ttl =>
    refine fun n e => Does.of_go _ (fun _ => rfl) fun h ⟨he, hw, hs, ht⟩ => ?_
    simp only [he]
    exact if_pos (by simpa [hw, ht] using hs)
  case hour => exact Does.of_go _ (fun _ => rfl) fun h hx => if_pos (Hw.hourNow_sheds hx)
  case spare => exact fun a v => Does.of_go _ (fun _ => rfl) fun h hr => Hw.operWrite_ok hr rfl
  case load =>
    exact fun a slot hs => Does.of_go _ (fun _ => rfl) fun h ⟨hr, hlo, hhi, hp⟩ => Hw.operWrite_ok hr (Hw.ordLoad_ok (h := h.reply 0) hs hlo hhi hp)
  case loadRefused => exact fun a slot => Does.of_go _ (fun _ => rfl) fun h ⟨hr, hn⟩ => Hw.operWrite_err hr (Hw.ordLoad_refused (h := h.reply 0) hn)
  case revoke => exact fun a slot hs => Does.of_go _ (fun _ => rfl) fun h hr => Hw.operWrite_ok hr (if_neg (by omega))

/-! ### Ballots -/

section
variable {h : Hw} {n : Nat}

theorem Hw.liftVote_open {l : LiftAsk} (vote : Nat) (hl : (h.vrd.lifts.find? fun l => l.entry == n) = some l) (ht : h.ns < l.deadline) :
    h.liftVote n vote = .ok (h.answerLift l vote) := by
  simp only [Hw.liftVote, hl]
  exact if_pos ht

theorem Hw.liftVote_none (vote : Nat) (hl : (h.vrd.lifts.find? fun l => l.entry == n) = none) : h.liftVote n vote = .error E.badState := by
  simp only [Hw.liftVote, hl]

end

/-- Settles O51, command by command. That a vote with no request open is refused is log entry 39. -/
theorem ballotCommandsDo : Obligations.BallotCommandsDo := by
  refine ⟨?expel, ?lift, ?passes, ?yes, ?no, ?yesRefused, ?vote, ?voteClosed, ?votePasses, ?timeout, ?timeoutNone⟩
  case expel =>
    refine fun x => Does.of_go _ (fun _ => rfl) fun h ⟨hf, hd, hk, hw, hb⟩ => ?_
    simp only [hf]
    exact (if_neg (by simp [hd, hk, hw])).trans (if_pos hb)
  case lift =>
    refine fun x => Does.of_go _ (fun _ => rfl) fun h ⟨hf, hd, hk, hw, hb⟩ => ?_
    simp only [hf]
    exact (if_neg (by simp [hd, hk, hw])).trans (if_neg hb)
  case passes =>
    refine fun x => Does.of_go _ (fun _ => rfl) fun h ⟨hf, hn⟩ => ?_
    simp only [hf]
    exact if_pos (by rcases hn with hn | hn | hn <;> simp [hn])
  case yes =>
    exact fun a n l => Does.of_go _ (fun _ => rfl) fun h ⟨hr, hl, ht⟩ => Hw.operWrite_ok hr (Hw.liftVote_open (h := h.reply 0) 1 hl ht)
  case no =>
    exact fun a n l => Does.of_go _ (fun _ => rfl) fun h ⟨hr, hl, ht⟩ => Hw.operWrite_ok hr (Hw.liftVote_open (h := h.reply 0) 0 hl ht)
  case yesRefused => exact fun a n => Does.of_go _ (fun _ => rfl) fun h ⟨hr, hl⟩ => Hw.operWrite_err hr (Hw.liftVote_none (h := h.reply 0) 1 hl)
  case vote =>
    refine fun x e k => Does.of_go _ (fun _ => rfl) fun h ⟨hf, hd, hk, hb, hv, hw⟩ => ?_
    simp only [hf]
    refine (if_neg (by simp [hd, hk, hw])).trans ?_
    simp only [hb, hv]
  case voteClosed =>
    refine fun x e => Does.of_go _ (fun _ => rfl) fun h ⟨hf, hd, hk, hb, hv, hw⟩ => ?_
    simp only [hf]
    refine (if_neg (by simp [hd, hk, hw])).trans ?_
    simp only [hb, hv]
  case votePasses =>
    refine fun x => Does.of_go _ (fun _ => rfl) fun h ⟨hf, hn⟩ => ?_
    simp only [hf]
    exact if_pos (by rcases hn with hn | hn | hn <;> simp [hn])
  case timeout =>
    refine fun n e => Does.of_go _ (fun _ => rfl) fun h ⟨he, hdue⟩ => ?_
    simp only [he, if_pos hdue]
  case timeoutNone =>
    refine fun n => Does.of_go _ (fun _ => rfl) fun h he => ?_
    simp only [he]

end Sys2Proof.Machine
end

section
/-!
Compression (R467–R488): what its descriptors, its archive command and its privileged channels come to.
-/
namespace Sys2Proof.Machine

/-! ### Descriptors whose operands stand -/

section
variable {h : Hw} {q n : Nat} {d : DescWords} {r : EntryRun} {s : CmpSlot}

/-- A slot of another context is refused (R471). -/
theorem Hw.ownSlot_other (hs : h.slot n = some s) (hx : s.ctx ≠ h.qCtx q) : h.ownSlot q n = .error E.accessDenied := by
  simp only [Hw.ownSlot, hs]
  exact if_pos (.inr hx)

theorem Hw.descCmpOpen_free (h1 : 1 ≤ dw d 0 20 9) (h2 : dw d 0 20 9 ≤ 256) (hs : h.slot (dw d 0 16 4) = none) :
    h.descCmpOpen q d = (h.putSlot ⟨dw d 0 16 4, h.qCtx q, 0, dw d 0 20 9, [], 0, 0⟩).descDone q :=
  (if_neg (by omega)).trans (if_neg (by simp [hs]))

theorem Hw.descCmpOpen_taken (h1 : 1 ≤ dw d 0 20 9) (h2 : dw d 0 20 9 ≤ 256) (hs : (h.slot (dw d 0 16 4)).isSome = true) :
    h.descCmpOpen q d = h.descFail q E.stateFull :=
  (if_neg (by omega)).trans (if_pos hs)

theorem Hw.descDeflate_ok (hn : dw d 2 0 17 ≠ 0) (hn' : dw d 2 0 17 ≤ 65536) (ha : nth d 4 % 16 = 0) (ho : h.ownSlot q (dw d 0 16 4) = .ok s)
    (hr : h.started q = some r) (hb : h.slotBusy q (dw d 0 16 4) = false) :
    h.descDeflate q d = h.dmaRead (h.qCtx q) (nth d 1) (dw d 2 0 17) (.payload q r.index) := by
  refine (if_neg (by omega)).trans ?_
  simp only [ho, hr]
  exact if_neg (by simp [hb])

theorem Hw.descCmpClose_ok (ho : h.ownSlot q (dw d 0 16 4) = .ok s) (hb : h.slotBusy q s.num = false) :
    h.descCmpClose q d = (h.freeSlot s.num).descDone q := by
  simp only [Hw.descCmpClose, ho]
  exact if_neg (by simp [hb])

theorem Hw.descCmpClose_refused {e : Nat} (ho : h.ownSlot q (dw d 0 16 4) = .error e) : h.descCmpClose q d = h.descFail q e := by
  simp only [Hw.descCmpClose, ho]

theorem Hw.descSave_ok {x : List Nat × Hw} (ha : nth d 1 % 64 = 0) (ho : h.ownSlot q (dw d 0 16 4) = .ok s) (hr : h.started q = some r)
    (hb : h.slotBusy q s.num = false) (hx : h.slotImage s = some x) :
    h.descSave q d = (x.2.freeSlot s.num).dmaWrite (x.2.qCtx q) (nth d 1) x.1 (.payload q r.index) := by
  refine (if_neg (by omega)).trans ?_
  simp only [ho, hr, hx]
  exact if_neg (by simp [hb])

theorem Hw.descRestore_ok (ha : nth d 1 % 64 = 0) (hs : h.slot (dw d 0 16 4) = none) (hr : h.started q = some r) :
    h.descRestore q d = h.dmaRead (h.qCtx q) (nth d 1) 49152 (.payload q r.index) := by
  refine (if_neg (by omega)).trans ((if_neg (by simp [hs])).trans ?_)
  simp only [hr]

theorem Hw.descInflate_ok (hn : dw d 2 0 32 ≠ 0) (ha : nth d 5 % 16 = 0) (hr : h.started q = some r) :
    h.descInflate q d = h.dmaRead (h.qCtx q) (nth d 1) (dw d 2 0 32) (.payload q r.index) := by
  refine (if_neg (by omega)).trans ?_
  simp only [hr]

theorem Hw.descPack_ok (hw : dw d 0 16 2 ≠ 3) (hn : dw d 2 0 40 ≠ 0) (hm : dw d 2 0 40 % packW (dw d 0 16 2) = 0) (h3 : nth d 3 % 64 = 0)
    (h4 : nth d 4 % 16 = 0) (hr : h.started q = some r) :
    h.descPack q d = h.dmaRead (h.qCtx q) (nth d 1) (dw d 2 0 40) (.payload q r.index) := by
  refine (if_neg (by simp [hw, hn, hm, h3, h4])).trans ?_
  simp only [hr]

end

/-! ### The archive of the trace buffer -/

theorem Hw.archiveStart_input {h : Hw} (hi : h.archiveInput ≠ []) :
    h.archiveStart = (let k := h.putChan { h.chan 1 with n := 0 }; { k with cmp := { k.cmp with archive := some h.archiveInput } }) :=
  if_neg (by simpa using hi)

theorem Hw.archiveCmd_ok {h : Hw} (ho : h.chanOn 1 = true) (ha : h.cmp.archive = none) : h.archiveCmd = .ok h.archiveStart :=
  if_neg (by simp [ho, ha])

theorem Hw.archiveCmd_busy {h : Hw} (ha : h.cmp.archive.isSome = true) : h.archiveCmd = .error E.badState :=
  if_pos (by simp [ha])

/-- Settles O52, command by command. -/
theorem compressionCommandsDo : Obligations.CompressionCommandsDo := by
  refine ⟨?opens, ?openTaken, ?openDepth, ?deflate, ?close, ?closeOther, ?save, ?restore, ?inflate, ?pack, ?archive, ?archiveBusy, ?cut, ?chunkArchive,
    ?chunkVerdict⟩
  case opens =>
    exact fun q d => Does.of_go _ (fun _ => rfl) fun h ⟨hs, h1, h2, hn⟩ => (Hw.withDesc_starts hs _).trans (Hw.descCmpOpen_free h1 h2 hn)
  case openTaken =>
    exact fun q d => Does.of_go _ (fun _ => rfl) fun h ⟨hs, h1, h2, hn⟩ => (Hw.withDesc_starts hs _).trans (Hw.descCmpOpen_taken h1 h2 hn)
  case openDepth => exact fun q d => Does.of_go _ (fun _ => rfl) fun h ⟨hs, hn⟩ => (Hw.withDesc_starts hs _).trans (if_pos hn)
  case deflate =>
    exact fun q d r s ha => Does.of_go _ (fun _ => rfl) fun h ⟨hs, hn, hn', hslot, hchan, hctx, hr, hb⟩ =>
      (Hw.withDesc_starts hs _).trans (Hw.descDeflate_ok hn hn' ha (Hw.ownSlot_ok hslot hchan hctx) hr hb)
  case close =>
    exact fun q d s => Does.of_go _ (fun _ => rfl) fun h ⟨hs, hslot, hchan, hctx, hb⟩ =>
      (Hw.withDesc_starts hs _).trans (Hw.descCmpClose_ok (Hw.ownSlot_ok hslot hchan hctx) hb)
  case closeOther =>
    exact fun q d s => Does.of_go _ (fun _ => rfl) fun h ⟨hs, hslot, hctx⟩ =>
      (Hw.withDesc_starts hs _).trans (Hw.descCmpClose_refused (Hw.ownSlot_other hslot hctx))
  case save =>
    refine fun q d s r img ha => Does.of_go _ (fun _ => rfl) fun h ⟨hs, hslot, hchan, hctx, hr, hb, himg⟩ => ?_
    obtain ⟨x, hx, rfl⟩ := Option.map_eq_some_iff.mp himg
    simp only [hx]
    exact (Hw.withDesc_starts hs _).trans (Hw.descSave_ok ha (Hw.ownSlot_ok hslot hchan hctx) hr hb hx)
  case restore =>
    exact fun q d r ha => Does.of_go _ (fun _ => rfl) fun h ⟨hs, hslot, hr⟩ => (Hw.withDesc_starts hs _).trans (Hw.descRestore_ok ha hslot hr)
  case inflate =>
    exact fun q d r ha hn => Does.of_go _ (fun _ => rfl) fun h ⟨hs, hr⟩ => (Hw.withDesc_starts hs _).trans (Hw.descInflate_ok hn ha hr)
  case pack =>
    exact fun q d r hw hn hm h3 h4 => Does.of_go _ (fun _ => rfl) fun h ⟨hs, hr⟩ =>
      (Hw.withDesc_starts hs _).trans (Hw.descPack_ok hw hn hm h3 h4 hr)
  case archive =>
    exact fun a => Does.of_go _ (fun _ => rfl) fun h ⟨hr, ho, ha, hi⟩ =>
      Hw.operWrite_ok hr ((Hw.archiveCmd_ok (h := h.reply 0) ho ha).trans (congrArg Except.ok (Hw.archiveStart_input (h := h.reply 0) hi)))
  case archiveBusy => exact fun a => Does.of_go _ (fun _ => rfl) fun h ⟨hr, ha⟩ => Hw.operWrite_err hr (Hw.archiveCmd_busy (h := h.reply 0) ha)
  case cut =>
    refine Does.of_go _ (fun _ => rfl) fun h ⟨e, t, hb, ho, hc, hf⟩ => ?_
    dsimp only
    split
    next hnil => exact absurd (hb.symm.trans hnil) (by simp)
    next e' t' hb' =>
      obtain ⟨rfl, rfl⟩ := List.cons.inj (hb.symm.trans hb')
      exact if_pos (by simp [ho, hc, hf])
  case chunkArchive => exact Does.of_go _ (fun _ => rfl) fun h ⟨hw, ho, hc⟩ => if_neg (by simp [hw, ho, hc])
  case chunkVerdict => exact Does.of_go _ (fun _ => rfl) fun h ⟨hw, ho, hc⟩ => if_neg (by simp [hw, ho, hc])

end Sys2Proof.Machine
end

section
/-!
The event recorder (R489–R492), its mirror (R493–R497) and its NV store port (R71, R498): what their commands come to.
-/
namespace Sys2Proof.Machine

/-! ### EVR_CMD -/

section
variable {h : Hw}

theorem Hw.evrCmd_restart (h : Hw) : h.evrCmd false true false = .ok h.evrRestart := rfl

theorem Hw.evrCmd_format (h : Hw) : h.evrCmd false false true = h.evrFormat := rfl

theorem Hw.evrCmd_write_ok {k : Hw} (e : h.evrWriteCmd = .ok k) : h.evrCmd true false false = .ok k := by
  simp only [Hw.evrCmd, if_true, e]
  rfl

theorem Hw.evrCmd_write_error {c : Nat} (e : h.evrWriteCmd = .error c) : h.evrCmd true false false = .error c := by
  simp only [Hw.evrCmd, if_true, e]

/-- A host entry with a payload waits for the read of it. -/
theorem Hw.evrWriteCmd_payload (hw : h.evr.hostWait = false) (hc : 0x8000 ≤ h.g R.EVR_HOST_LEN_CODE) (hn : h.g R.EVR_HOST_LEN_BYTES ≤ 992)
    (h8 : h.g R.EVR_HOST_LEN_BYTES % 8 = 0) (h0 : h.g R.EVR_HOST_LEN_BYTES ≠ 0) :
    h.evrWriteCmd = .ok
      (let k := { h with evr := { h.evr with hostWait := true, hostCode := h.g R.EVR_HOST_LEN_CODE } }
      k.dmaRead k.operCtx (h.g64 R.EVR_HOST_ADDR_LO_ADDR R.EVR_HOST_ADDR_HI_ADDR) (h.g R.EVR_HOST_LEN_BYTES) .evrHost) :=
  (if_neg (by simp [hw])).trans ((if_neg (by omega)).trans (congrArg Except.ok (if_neg h0)))

theorem Hw.evrWriteCmd_refused (hw : h.evr.hostWait = false)
    (hn : h.g R.EVR_HOST_LEN_CODE < 0x8000 ∨ 992 < h.g R.EVR_HOST_LEN_BYTES ∨ h.g R.EVR_HOST_LEN_BYTES % 8 ≠ 0) :
    h.evrWriteCmd = .error E.badValue :=
  (if_neg (by simp [hw])).trans (if_pos hn)

theorem Hw.evrRestart_stopped (hs : h.on R.EVR_STAT_NV_STOPPED = true) (hr : h.running 0x4C = true) :
    h.evrRestart = (h.s R.EVR_STAT_NV_STOPPED 0).s R.EVR_STAT_MIRROR_RUN 1 := if_pos ⟨hs, hr⟩

theorem Hw.evrFormat_idle (hr : h.running 0x4C = false) : h.evrFormat = .ok h.emptyMirror := if_neg (by simp [hr])

end

/-! ### The NV store port -/

section
variable {h : Hw} {w : NvWrite} {t : List NvWrite}

theorem Hw.nvDone_superblock (hn : h.evr.nv = w :: t) (hk : w.kind = 1) :
    h.nvDone = Hw.nvIssue (Hw.s { h with evr := { h.evr with nv := t, sbFrc := h.frc } } R.EVR_STAT_SB (w.unit - h.nvBase)) := by
  simp only [Hw.nvDone, hn, hk]
  rfl

theorem Hw.nvFailed_retry (hn : h.evr.nv = w :: t) (hr : w.retried = false) :
    h.nvFailed = Hw.nvIssue { h with evr := { h.evr with nv := { w with retried := true } :: t } } := by
  simp only [Hw.nvFailed, hn]
  exact if_pos (by simp [hr])

theorem Hw.nvFailed_stop (hn : h.evr.nv = w :: t) (hr : w.retried = true) :
    h.nvFailed =
      (let k := { h with evr := { h.evr with nv := [], cut := [], gapBefore := h.evr.gapBefore || h.evr.gapOut, gapOut := false } }
      ((((k.s R.EVR_STAT_NV_STOPPED 1).s R.EVR_STAT_MIRROR_RUN 0).err 0x4C E.nvFault).event 0x0080 2 (le 4 w.unit)).raise 0x4C 17) := by
  simp only [Hw.nvFailed, hn]
  exact if_neg (by simp [hr])

end

/-- Settles O53, command by command. -/
theorem recorderCommandsDo : Obligations.RecorderCommandsDo := by
  refine ⟨?repeats, ?second, ?readData, ?write, ?writeRefused, ?restart, ?format, ?formatRefused, ?item, ?flush, ?superblock, ?superblockWritten, ?retry, ?stop,
    ?timeout, ?log, ?firstSuperblock, ?headItem⟩
  case repeats =>
    refine fun e => Does.of_go _ (fun _ => rfl) fun h ⟨he, ha, hc, ht⟩ => ?_
    simp only [he]
    exact if_pos ⟨ha, by simp [hc], ht⟩
  case second => exact Does.of_go _ (fun _ => rfl) fun h ha => if_pos ha
  case readData =>
    refine fun a => Does.of_go _ (fun _ => rfl) fun h ⟨hr, hc⟩ => (Hw.operAccess_reach hr).trans ?_
    have hc' : ((h.reply 0).ringCover ((h.reply 0).g R.EVR_RD_OFF_OFF)).isSome = true := hc
    simp only [Hw.readRing, if_pos hc']
    rfl
  case write =>
    exact fun a => Does.of_go _ (fun _ => rfl) fun h ⟨hr, hw, hc, hn, h8, h0⟩ =>
      Hw.operWrite_ok hr (Hw.evrCmd_write_ok (Hw.evrWriteCmd_payload (h := h.reply 0) hw hc hn h8 h0))
  case writeRefused =>
    exact fun a => Does.of_go _ (fun _ => rfl) fun h ⟨hr, hw, hn⟩ =>
      Hw.operWrite_err hr (Hw.evrCmd_write_error (Hw.evrWriteCmd_refused (h := h.reply 0) hw hn))
  case restart =>
    exact fun a => Does.of_go _ (fun _ => rfl) fun h ⟨hr, hs, hrun⟩ =>
      Hw.operWrite_ok hr ((Hw.evrCmd_restart (h.reply 0)).trans (congrArg Except.ok (Hw.evrRestart_stopped (h := h.reply 0) hs hrun)))
  case format =>
    exact fun a => Does.of_go _ (fun _ => rfl) fun h ⟨hr, hrun⟩ => Hw.operWrite_ok hr (Hw.evrFormat_idle (h := h.reply 0) hrun)
  case formatRefused =>
    exact fun a => Does.of_go _ (fun _ => rfl) fun h ⟨hr, hrun⟩ => Hw.operWrite_err hr (Hw.evrFormat_running (h := h.reply 0) hrun)
  case item =>
    refine fun r => Does.of_go _ (fun _ => rfl) fun h ⟨hm, hn, hrd, hi, hp, hroom⟩ => ?_
    refine (if_neg (by simp [hm, hn, hrd])).trans ((if_neg (by simpa using hi)).trans ((if_neg (by simp [hp])).trans ?_))
    simp only [hp, Bool.false_eq_true, if_false, hroom]
  case flush =>
    refine fun e t => Does.of_go _ (fun _ => rfl) fun h ⟨hu, hm, hp, hc, hf, ht⟩ => ?_
    simp only [hu]
    exact if_pos ⟨hm, hp, by simp [hc], by simp [hf], ht⟩
  case superblock => exact Does.of_go _ (fun _ => rfl) fun h ⟨hr, hm, hn, hrd, ht⟩ => if_pos ⟨hr, hm, by simp [hn], by simp [hrd], ht⟩
  case superblockWritten => exact fun w t hk => Does.of_go _ (fun _ => rfl) fun h hn => Hw.nvDone_superblock hn hk
  case retry => exact fun w t hr => Does.of_go _ (fun _ => rfl) fun h hn => Hw.nvFailed_retry hn hr
  case stop => exact fun w t hr => Does.of_go _ (fun _ => rfl) fun h hn => Hw.nvFailed_stop hn hr
  case timeout =>
    exact fun w t hr => Does.of_go _ (fun _ => rfl) fun h ⟨hn, ht⟩ => (if_pos ⟨by simp [hn], ht⟩).trans (Hw.nvFailed_retry hn hr)
  case log =>
    refine fun bytes u t b => Does.of_go _ (fun _ => rfl) fun h ⟨hrd, hsb⟩ => ?_
    simp only [hrd, hsb]
    rfl
  case firstSuperblock =>
    refine fun bytes u t => Does.of_go _ (fun _ => rfl) fun h ⟨hrd, hsb⟩ => ?_
    simp only [hrd, hsb]
    rfl
  case headItem =>
    refine fun ok bytes u t => Does.of_go _ (fun _ => rfl) fun h hrd => ?_
    simp only [hrd]
    rfl

end Sys2Proof.Machine
end

section
/-!
Mailboxes and doorbells (R499–R504): what the accesses of the operator and the commands of the firmware come to.
-/
namespace Sys2Proof.Machine

section
variable {h : Hw} {a : Acc} {m : Nat}

/-- An access of the operator that reaches a register of a mailbox is what its rule says (R501). -/
theorem Hw.mbxAccess_reach {off : Nat} {f : Hw → Hw} (hm : m < 16) (hr : h.Reach a 0x4D (0x100 + 0x80 * m + off)) :
    (if 16 ≤ m then h.busError else h.access a 0x4D (mbxOff m off) (h.ownsMbx a m) f) = f (h.reply 0) :=
  (if_neg (by omega)).trans (Hw.access_reach hr)

theorem Hw.mbxDataAccess_reach {i strb : Nat} {f : Hw → Hw} (hm : m < 16) (hi : i < 8) (hs : [0x0F, 0xF0, 0xFF].contains strb = true)
    (hr : h.Reach a 0x4D (0x100 + 0x80 * m + 8 * i)) :
    (if 16 ≤ m ∨ 8 ≤ i ∨ ! [0x0F, 0xF0, 0xFF].contains strb then h.busError else h.access a 0x4D (mbxOff m (8 * i)) (h.ownsMbx a m) f) =
      f (h.reply 0) :=
  (if_neg (by rw [hs, Bool.not_true]; simp; omega)).trans (Hw.access_reach hr)

theorem Hw.mbxCtl_abort_full (hm : m < 8) (hf : h.mbxFull m = true) : h.mbxCtl m false true 0 = (h.mbxEmpty m).accepted 0x4D :=
  (if_neg (by omega)).trans (congrArg (Hw.accepted · 0x4D) (if_pos hf))

end

/-- Settles O54, command by command. -/
theorem mailboxCommandsDo : Obligations.MailboxCommandsDo := by
  refine ⟨?data, ?dataFull, ?push, ?pushLength, ?abort, ?popRead, ?pop, ?send, ?inLow, ?inHigh, ?outLow, ?outHigh, ?ring, ?clear⟩
  case data =>
    exact fun a m i v hm hi => Does.of_go _ (fun _ => rfl) fun h ⟨hr, hf⟩ =>
      (Hw.mbxDataAccess_reach (by omega) hi rfl hr).trans (Hw.mbxData_whole (h := h.reply 0) hm i v hf)
  case dataFull =>
    exact fun a m i strb v hm hi hs => Does.of_go _ (fun _ => rfl) fun h ⟨hr, hf⟩ =>
      (Hw.mbxDataAccess_reach (by omega) hi hs hr).trans (Hw.mbxData_full (h := h.reply 0) hm i strb v hf)
  case push =>
    refine fun a m len hm h1 h64 => Does.of_go _ (fun _ => rfl) fun h ⟨hr, hf, ht⟩ => (Hw.mbxAccess_reach (by omega) hr).trans ?_
    rw [Nat.mod_eq_of_lt (by omega)]
    exact Hw.mbxCtl_push_ok (h := h.reply 0) hm hf ⟨h1, h64⟩ ht
  case pushLength =>
    refine fun a m len hm hl => Does.of_go _ (fun _ => rfl) fun h ⟨hr, hf⟩ => (Hw.mbxAccess_reach (by omega) hr).trans ?_
    rw [Nat.mod_eq_of_lt (by omega)]
    exact (Hw.mbxCtl_push_badLen (h := h.reply 0) hm hf (by omega)).trans (Hw.refuse_eq _ _ (by decide))
  case abort =>
    exact fun a m hm => Does.of_go _ (fun _ => rfl) fun h ⟨hr, hf⟩ =>
      (Hw.mbxAccess_reach (by omega) hr).trans (Hw.mbxCtl_abort_full (h := h.reply 0) hm hf)
  case popRead =>
    exact fun a m hm hm' => Does.of_go _ (fun _ => rfl) fun h ⟨hr, hf⟩ =>
      (Hw.mbxAccess_reach hm' hr).trans (Hw.mbxPop_full (h := h.reply 0) hm hf)
  case pop => exact fun m hm => Does.of_go _ (fun _ => rfl) fun h ⟨hw, hf⟩ => if_pos ⟨hw, hm, hf⟩
  case send =>
    exact fun m bytes hm hm' hb hb' => Does.of_go _ (fun _ => rfl) fun h ⟨hw, hf, ht⟩ => Hw.firmwareSend_eq ⟨hm, hm'⟩ ⟨hb, hb'⟩ hw hf ht _ _
  case inLow => exact fun a v hv => Does.of_go _ (fun _ => rfl) fun h hr => (if_pos rfl).trans ((Hw.bellWrite_oper hr hv).trans (by rw [Nat.mod_eq_of_lt hv]))
  case inHigh =>
    exact fun a v hv => Does.of_go _ (fun _ => rfl) fun h hr => (if_neg (by decide)).trans ((Hw.bellWrite_oper hr hv).trans (by rw [Nat.mod_eq_of_lt hv]))
  case outLow => exact fun a v hv => Does.of_go _ (fun _ => rfl) fun h hr => (if_pos rfl).trans ((Hw.bellWrite_oper hr hv).trans (by rw [Nat.mod_eq_of_lt hv]))
  case outHigh =>
    exact fun a v hv => Does.of_go _ (fun _ => rfl) fun h hr => (if_neg (by decide)).trans ((Hw.bellWrite_oper hr hv).trans (by rw [Nat.mod_eq_of_lt hv]))
  case ring => exact fun n hn => Does.of_go _ (fun _ => rfl) fun h hw => (if_neg (by simp [hw]; omega)).trans (if_pos rfl)
  case clear => exact fun n hn => Does.of_go _ (fun _ => rfl) fun h hw => (if_neg (by simp [hw]; omega)).trans (if_neg (by decide))

end Sys2Proof.Machine
end

section
/-!
Contexts (R514, R515, R531) and the root of trust (R72, R574): what their commands come to.
-/
namespace Sys2Proof.Machine

/-! ### CTX_CFG, case by case -/

section
variable {h : Hw} {c w : Nat} (h1 : 1 ≤ w) (h255 : w ≤ 255) (hc : c < h.contexts)
include h1 h255 hc

/-- EN rises on a context that is not being cleared: the context draws its key (R514). -/
theorem Hw.ctxCfg_enable (ho : c ≠ h.operCtx) (he : h.on (R.CTX_CFG_EN.at c) = false)
    (hcl : (h.s (R.CTX_CFG_WEIGHT.at c) w).on (R.CTX_STAT_CLEARING.at c) = false) :
    h.ctxCfg c true w = .ok (((h.s (R.CTX_CFG_WEIGHT.at c) w).s (R.CTX_CFG_EN.at c) 1).drawKey c) :=
  (if_neg (by omega)).trans <| (if_neg (by omega)).trans <| (if_neg (by simp [ho])).trans <| (if_pos (by simp [he])).trans (if_neg (by simp [hcl]))

/-- EN falls on an idle context: its clearing begins (R515). -/
theorem Hw.ctxCfg_disable (ho : c ≠ h.operCtx) (he : h.on (R.CTX_CFG_EN.at c) = true) (hi : (h.s (R.CTX_CFG_WEIGHT.at c) w).ctxIdle c = true) :
    h.ctxCfg c false w = .ok
      (let k := (((h.s (R.CTX_CFG_WEIGHT.at c) w).s (R.CTX_CFG_EN.at c) 0).s (R.CTX_STAT_CLEARING.at c) 1).clearContext c
      { k with sec := { k.sec with clearing := (c, k.frc) :: k.sec.clearing.filter fun x => x.1 != c } }) :=
  (if_neg (by omega)).trans <| (if_neg (by omega)).trans <| (if_neg (by simp [ho])).trans <|
    (if_neg (by simp)).trans <| (if_pos (by simp [he])).trans (if_neg (by simp [hi]))

/-- The operator's context stays enabled while the blob names it (R514). -/
theorem Hw.ctxCfg_disable_operator (ho : c = h.operCtx) (hb : h.g R.SEC_STAT_BLOB = 1) : h.ctxCfg c false w = .error E.badValue :=
  (if_neg (by omega)).trans <| (if_neg (by omega)).trans <| (if_pos ⟨ho, hb⟩).trans (if_neg (by decide))

end

theorem Hw.ctxCmd_kill {h : Hw} {c : Nat} (hc : c < h.contexts) : h.ctxCmd true c = .ok ((h.killContext c).raise 0x01 16) :=
  (if_neg (by decide)).trans (if_neg (by omega))

theorem Hw.secCmd_reload (h : Hw) : h.secCmd false true = .ok h.blobAsk := rfl

/-- Settles O55, command by command. -/
theorem contextCommandsDo : Obligations.ContextCommandsDo := by
  refine ⟨?enable, ?disable, ?disableOperator, ?cleared, ?kill, ?blobRetry, ?reload, ?response, ?timeout⟩
  case enable =>
    exact fun a c => Does.of_go _ (fun _ => rfl) fun h ⟨hr, hc, ho, h1, h255, he, hcl⟩ =>
      Hw.operWrite_ok hr (Hw.ctxCfg_enable (h := h.reply 0) h1 h255 hc ho he hcl)
  case disable =>
    exact fun a c => Does.of_go _ (fun _ => rfl) fun h ⟨hr, hc, ho, h1, h255, he, hi⟩ =>
      Hw.operWrite_ok hr (Hw.ctxCfg_disable (h := h.reply 0) h1 h255 hc ho he hi)
  case disableOperator =>
    exact fun a c => Does.of_go _ (fun _ => rfl) fun h ⟨hr, hc, ho, hb, h1, h255⟩ =>
      Hw.operWrite_err hr (Hw.ctxCfg_disable_operator (h := h.reply 0) h1 h255 hc ho hb)
  case cleared => exact fun c => Does.of_go _ (fun _ => rfl) fun h hc => if_pos hc
  case kill =>
    refine fun a c h64 => Does.of_go _ (fun _ => rfl) fun h ⟨hr, hc⟩ => ?_
    rw [Nat.mod_eq_of_lt h64]
    exact Hw.hostWrite_ok hr (Hw.ctxCmd_kill (h := h.reply 0) hc)
  case blobRetry => exact Does.of_go _ (fun _ => rfl) fun h ⟨hr, hb, ht⟩ => if_pos ⟨hr, hb, ht⟩
  case reload => exact fun a => Does.of_go _ (fun _ => rfl) fun h hr => Hw.operWrite_ok hr (Hw.secCmd_reload (h.reply 0))
  case response =>
    refine fun id ok bytes r => Does.of_go _ (fun _ => rfl) fun h hf => ?_
    simp only [hf]
    rfl
  case timeout =>
    refine fun id r => Does.of_go _ (fun _ => rfl) fun h ⟨hf, ht⟩ => ?_
    simp only [hf]
    exact if_pos ht

end Sys2Proof.Machine
end

section
/-!
The safety monitor: its diagnostics and commands (R536–R543, R554), the hazard comparators and the two outputs (R67, R548–R552).
-/
namespace Sys2Proof.Machine

/-! ### SAF_CMD, case by case -/

section
variable {h : Hw} {d i : Nat}

theorem Hw.safCmd_clear (h : Hw) : h.safCmd true false 0 0 = .ok (h.s R.SAF_STAT_DF_LATCHED 0).safState := rfl

theorem Hw.safCmd_inject (h1 : 1 ≤ d) (h17 : d ≤ 17) (hi : h.injItem d i = true) (hn : h.saf.inj = none) :
    h.safCmd false true d i =
      .ok (Hw.injectFailure (Hw.s { h with saf := { h.saf with inj := some (d, i) } } R.SAF_STAT_INJ_BUSY 1) d i) :=
  (if_neg (by simp [hi]; omega)).trans (if_neg (by simp [hn]))

/-- No diagnostic has the number 0 or one above 17 (R556, INJ_DIAG). -/
theorem Hw.safCmd_noDiagnostic (hd : d = 0 ∨ 17 < d) : h.safCmd false true d i = .error E.badValue := by
  refine if_pos ?_
  rcases hd with rfl | hd
  · rfl
  · simp [hd]

theorem Hw.safCmd_busy (h1 : 1 ≤ d) (h17 : d ≤ 17) (hi : h.injItem d i = true) (hs : h.saf.inj.isSome = true) :
    h.safCmd false true d i = .error E.badState :=
  (if_neg (by simp [hi]; omega)).trans (if_pos (by simp [hs]))

end

/-- Settles O56, command by command. -/
theorem diagnosticCommandsDo : Obligations.DiagnosticCommandsDo := by
  refine ⟨?lockstep, ?restarted, ?katFails, ?katPasses, ?xWindow, ?xWatchdog, ?duplicate, ?ledger, ?scrub, ?clear, ?inject, ?injectUnknown, ?injectBusy⟩
  case lockstep => exact fun imageOk => Does.of_go _ (fun _ => rfl) fun h ⟨hc, hh⟩ => if_neg (by simp [hc, hh])
  case restarted => exact Does.of_go _ (fun _ => rfl) fun h ⟨hp, hh⟩ => if_pos (by simp [hp, hh])
  case katFails =>
    exact fun l n hn => Does.of_go _ (fun _ => rfl) fun h ⟨hr, hk, hl, hret⟩ => (if_neg (by rw [hr, hk, hret]; simp; omega)).trans (if_neg hn)
  case katPasses =>
    exact fun l => Does.of_go _ (fun _ => rfl) fun h ⟨hr, hk, hl, hret⟩ => (if_neg (by rw [hr, hk, hret]; simp; omega)).trans (if_pos rfl)
  case xWindow => exact Does.of_go _ (fun _ => rfl) fun h ha => if_pos ha
  case xWatchdog => exact Does.of_go _ (fun _ => rfl) fun h ⟨ha, ht⟩ => if_pos ⟨ha, ht⟩
  case duplicate => exact fun diff => Does.of_go _ (fun _ => rfl) fun h ha => if_pos ha
  case ledger => exact fun credit => Does.of_go _ (fun _ => rfl) fun h hc => if_neg (by simp [hc])
  case scrub => exact fun m fixed => Does.of_go _ (fun _ => rfl) fun h ⟨hc, hd⟩ => if_neg (by simp [hc, hd])
  case clear => exact fun a => Does.of_go _ (fun _ => rfl) fun h hr => Hw.operWrite_ok hr (Hw.safCmd_clear (h.reply 0))
  case inject =>
    refine fun a d i h1 h17 h16 => Does.of_go _ (fun _ => rfl) fun h ⟨hr, hi, hn⟩ => ?_
    rw [Nat.mod_eq_of_lt (by omega : d < 32), Nat.mod_eq_of_lt h16]
    exact Hw.operWrite_ok hr (Hw.safCmd_inject (h := h.reply 0) h1 h17 hi hn)
  case injectUnknown =>
    refine fun a d i h32 h16 => Does.of_go _ (fun _ => rfl) fun h ⟨hr, hd⟩ => ?_
    rw [Nat.mod_eq_of_lt h32]
    exact Hw.operWrite_err hr (Hw.safCmd_noDiagnostic hd)
  case injectBusy =>
    refine fun a d i h1 h17 h16 => Does.of_go _ (fun _ => rfl) fun h ⟨hr, hi, hs⟩ => ?_
    rw [Nat.mod_eq_of_lt (by omega : d < 32), Nat.mod_eq_of_lt h16]
    exact Hw.operWrite_err hr (Hw.safCmd_busy (h := h.reply 0) h1 h17 hi hs)

/-! ### The hazard comparators and the two outputs -/

/-- What ends the injection of the diagnostic that runs (R552). -/
theorem Hw.injDone_running {h : Hw} {d i : Nat} (hi : h.saf.inj = some (d, i)) :
    h.injDone d = Hw.s { h with saf := { h.saf with inj := none } } R.SAF_STAT_INJ_BUSY 0 := by
  simp only [Hw.injDone, hi, if_true]

/-- Settles O57, command by command. -/
theorem hazardCommandsDo : Obligations.HazardCommandsDo := by
  refine ⟨?testTrips, ?testSilent, ?crcSame, ?crcOther, ?dual, ?readback, ?lineRises, ?lineFalls, ?silent, ?holdEnds, ?holdStays, ?toggle, ?resume⟩
  case testTrips => exact fun c => Does.of_go _ (fun _ => rfl) fun h ha => (if_neg (by simp [ha])).trans (if_pos rfl)
  case testSilent => exact fun c => Does.of_go _ (fun _ => rfl) fun h ha => (if_neg (by simp [ha])).trans (if_neg (by decide))
  case crcSame => exact fun crc => Does.of_go _ (fun _ => rfl) fun h ⟨ha, hc⟩ => (if_neg (by simp [ha])).trans (if_pos hc)
  case crcOther => exact fun crc => Does.of_go _ (fun _ => rfl) fun h ⟨ha, hc⟩ => (if_neg (by simp [ha])).trans (if_neg hc)
  case dual => exact fun detail => Does.of_go _ (fun _ => rfl) fun h ha => if_pos ha
  case readback => exact Does.of_go _ (fun _ => rfl) fun h ha => if_pos ha
  case lineRises =>
    exact fun n hn => Does.of_go _ (fun _ => rfl) fun h ⟨ha, he, hi⟩ => (if_neg (by simp [ha]; omega)).trans (if_pos (by simp [he, hi]))
  case lineFalls =>
    exact fun n hn => Does.of_go _ (fun _ => rfl) fun h ⟨ha, hi⟩ =>
      (if_neg (by simp [ha]; omega)).trans ((if_neg (by simp)).trans (if_pos (by simp [hi])))
  case silent => exact fun ch => Does.of_go _ (fun _ => rfl) fun h ha => if_neg (by simp [ha])
  case holdEnds => exact Does.of_go _ (fun _ => rfl) fun h ⟨ha, hh, ht, hc, hd⟩ => if_pos ⟨ha, by simp [hh], by simp [ht], hc, hd⟩
  case holdStays =>
    refine Does.of_go _ (fun _ => rfl) fun h hn => if_neg ?_
    rintro ⟨_, hh, ht, hc, _⟩
    rcases hn with hn | hn | hn
    · simp [hn] at hh
    · simp [hn] at ht
    · omega
  case toggle => exact Does.of_go _ (fun _ => rfl) fun h ⟨ha, hs, ht⟩ => if_pos ⟨ha, by simp [hs], ht⟩
  case resume =>
    refine fun i => Does.of_go _ (fun _ => rfl) fun h ⟨hi, ht⟩ => ?_
    simp only [hi]
    exact (if_pos ⟨trivial, ht⟩).trans (Hw.injDone_running rfl)

end Sys2Proof.Machine
end

section
/-!
Start-up (R561, R562, R564) and the live update of the firmware (R572, R573, R577): what their steps and commands come to.
-/
namespace Sys2Proof.Machine

/-! ### UPD_CMD, case by case -/

section
variable {h : Hw}

theorem Hw.updCmd_load (hr : h.running 0x5C = true) (h3 : h.updState ≠ 3) (h4 : h.updState ≠ 4) (hlo : 64 ≤ h.g R.UPD_SEG_LEN_BYTES)
    (hhi : h.g R.UPD_SEG_LEN_BYTES ≤ 65536) (hfit : h.g R.UPD_SEG_OFF_OFF + h.g R.UPD_SEG_LEN_BYTES ≤ h.stageSize) :
    h.updCmd true false false false false = .ok h.loadSegment :=
  (if_neg (by simp [hr, h3, h4])).trans (if_neg (by simp; omega))

theorem Hw.updCmd_verify (hr : h.running 0x5C = true) (h3 : h.updState ≠ 3) (h4 : h.updState ≠ 4) :
    h.updCmd false true false false false = .ok h.verifyStage :=
  (if_neg (by simp [hr, h3, h4])).trans (if_neg (by simp))

theorem Hw.updCmd_handover (hr : h.running 0x5C = true) (h2 : h.updState = 2) : h.updCmd false false true false false = .ok h.handoverCmd :=
  (if_neg (by simp [hr, h2])).trans (if_neg (by simp))

theorem Hw.updCmd_handover_refused (h2 : h.updState ≠ 2) : h.updCmd false false true false false = .error E.badState :=
  if_pos (by simp [h2])

theorem Hw.updCmd_commit (h4 : h.updState = 4) : h.updCmd false false false true false = .ok h.commitCmd :=
  (if_neg (by simp [h4])).trans (if_neg (by simp))

theorem Hw.updCmd_commit_refused (h4 : h.updState ≠ 4) : h.updCmd false false false true false = .error E.badState :=
  if_pos (by simp [h4])

theorem Hw.updCmd_discard (h3 : h.updState ≠ 3) (h4 : h.updState ≠ 4) : h.updCmd false false false false true = .ok h.emptyStage :=
  (if_neg (by simp [h3, h4])).trans (if_neg (by simp))

end

/-- Settles O58, command by command. Which of EMPTY and VERIFIED the store shows after a rollback is the model's free choice (log entry 87). -/
theorem startAndUpdateCommandsDo : Obligations.StartAndUpdateCommandsDo := by
  refine ⟨?boots, ?bootFails, ?selfTest, ?selfTestHalts, ?startDone, ?load, ?verify, ?handover, ?handoverRefused, ?commit, ?commitRefused, ?discard,
    ?handsOver, ?alive, ?rollsBack⟩
  case boots => exact Does.of_go _ (fun _ => rfl) fun h hb => (if_neg (by simp [hb])).trans (if_pos rfl)
  case bootFails => exact Does.of_go _ (fun _ => rfl) fun h hb => (if_neg (by simp [hb])).trans (if_neg (by decide))
  case selfTest => exact fun t => Does.of_go _ (fun _ => rfl) fun h ⟨hd, hl⟩ => (if_pos hd).trans (if_neg (by simp [hl]))
  case selfTestHalts => exact fun t => Does.of_go _ (fun _ => rfl) fun h ⟨hd, hl⟩ => (if_pos hd).trans (if_pos (by simp [hl]))
  case startDone => exact Does.of_go _ (fun _ => rfl) fun h ⟨hd, hn⟩ => if_pos (by simp [hd, hn])
  case load =>
    exact fun a => Does.of_go _ (fun _ => rfl) fun h ⟨hr, hrun, h3, h4, hlo, hhi, hfit⟩ =>
      Hw.operWrite_ok hr (Hw.updCmd_load (h := h.reply 0) hrun h3 h4 hlo hhi hfit)
  case verify =>
    exact fun a => Does.of_go _ (fun _ => rfl) fun h ⟨hr, hrun, h3, h4⟩ => Hw.operWrite_ok hr (Hw.updCmd_verify (h := h.reply 0) hrun h3 h4)
  case handover =>
    exact fun a => Does.of_go _ (fun _ => rfl) fun h ⟨hr, hrun, h2⟩ => Hw.operWrite_ok hr (Hw.updCmd_handover (h := h.reply 0) hrun h2)
  case handoverRefused =>
    exact fun a => Does.of_go _ (fun _ => rfl) fun h ⟨hr, h2⟩ => Hw.operWrite_err hr (Hw.updCmd_handover_refused (h := h.reply 0) h2)
  case commit => exact fun a => Does.of_go _ (fun _ => rfl) fun h ⟨hr, h4⟩ => Hw.operWrite_ok hr (Hw.updCmd_commit (h := h.reply 0) h4)
  case commitRefused =>
    exact fun a => Does.of_go _ (fun _ => rfl) fun h ⟨hr, h4⟩ => Hw.operWrite_err hr (Hw.updCmd_commit_refused (h := h.reply 0) h4)
  case discard =>
    exact fun a => Does.of_go _ (fun _ => rfl) fun h ⟨hr, h3, h4⟩ => Hw.operWrite_ok hr (Hw.updCmd_discard (h := h.reply 0) h3 h4)
  case handsOver => exact Does.of_go _ (fun _ => rfl) fun h ⟨hc, hd⟩ => if_pos (by simp [hc, hd])
  case alive => exact Does.of_go _ (fun _ => rfl) fun h ⟨hc, hw, hp⟩ => if_pos (by simp [hc, hw, hp])
  case rollsBack => exact Does.of_go _ (fun _ => rfl) fun h ⟨hc, hw, ht⟩ => if_pos (by simp [hc, hw, ht])

end Sys2Proof.Machine
end
